-- ==== Sys2Proof/Word.lean ====
section
/-! DEFINITION. The words of the DZ-64: the plain types its registers, bytes and addresses are made of. -/

namespace Sys2Proof

/-- A 32-bit register or memory word. -/
abbrev Word := BitVec 32

/-- A 64-bit word: device time, a microcode word, a 64-bit operand. -/
abbrev DWord := BitVec 64

/-- One byte of memory (R5: multi-byte values are little-endian). -/
abbrev Byte := BitVec 8

/-- A 40-bit fabric address (R29, Table 2.1). -/
abbrev Addr := BitVec 40

/-- A finite map with Nat keys, kept as a list whose keys rise strictly and which lists no entry equal to what an
unlisted key reads as (its default). -/
abbrev Sparse (α : Type) := List (Nat × α)

end Sys2Proof
end

