-- ==== Sys2Proof/Syntax.lean ====
section
/-! DEFINITION. The commands of the DZ-64: one constructor of Instr per row of spec/opcode_table.json, and the operand types
they carry. The table gives its rows no bits, so a command carries its operands as data. -/

namespace Sys2Proof

/-- A request header flit with its payload (R49, Table 2.9). `owner` is the model's own side band: the thread whose spike an
event-engine POST belongs to (R222), or what a PUT of the management core is for; it is no bit of the flit. -/
structure ReqFlit where
  op       : BitVec 5
  ack      : Bool
  anyEpoch : Bool
  notice   : Bool
  prio     : BitVec 2
  epoch    : BitVec 8
  addr     : Addr
  size     : BitVec 4
  type     : BitVec 3
  tag      : BitVec 10
  srcChip  : BitVec 4
  srcTile  : BitVec 8
  srcUnit  : BitVec 4
  arg0     : Word
  payload  : List Byte
  owner    : BitVec 2
deriving DecidableEq, Repr

/-- A response header flit with its payload (R74, Table 2.16). -/
structure RespFlit where
  prio    : BitVec 2
  epoch   : BitVec 8
  status  : BitVec 8
  flags   : BitVec 8
  tag     : BitVec 10
  dstChip : BitVec 4
  dstTile : BitVec 8
  dstUnit : BitVec 4
  data0   : Word
  aux     : Word
  payload : List Byte
deriving DecidableEq, Repr

/-- Who issued a posted operation, at which priority: what a target keeps its applied and failed counts by (R81). -/
structure IssuerId where
  chip  : BitVec 4
  tile  : BitVec 8
  unit  : BitVec 4
  owner : BitVec 2
  prio  : BitVec 2
deriving DecidableEq, Repr

/-- A CREDIT flit (R81): the target that sends it (a targetKey), the issuer it goes to, and the operations applied and failed. -/
structure CreditFlit where
  issuer  : IssuerId
  target  : Nat
  applied : Nat
  failed  : Nat
deriving DecidableEq, Repr

/-- The operand fields of a microcode word (R112, Table 3.4). -/
structure UInsn where
  dst  : BitVec 6
  srca : BitVec 6
  srcb : BitVec 6
  imm  : BitVec 36
deriving DecidableEq, Repr

/-- The three job engines of a tile (Table 3.1). -/
inductive Engine where
  | matrix | gate | scan
deriving DecidableEq, Repr

/-- Who writes a register or gives a command: the host, or a unit of the fabric. -/
inductive Origin where
  | host | tile | mgmt | peal
deriving DecidableEq, Repr

/-- Which unit holds a register: the host bus, the control space of a logical tile, a chip block. -/
inductive RegUnit where
  | hostBus
  | tile (l : Fin 256)
  | block (b : Fin 16)
deriving DecidableEq, Repr

/-- A register by its unit and its byte offset. -/
structure RegRef where
  unit : RegUnit
  off  : Nat
deriving DecidableEq, Repr

/-- What the contract units of the other chips answer an admission (R315): the lowest refusal code they report with its detail, the
ADMIT_MHZ of tiles of theirs (chip × 256 + tile), for each of their instances (chip, lead tile, ring line) the sum over class-0
streams of other chips of frames in flight times EXPERT_CP, and the chips of the board. -/
structure PeerView where
  refuse : Option (Nat × Nat)
  mhz    : List (Nat × Nat)
  xcp    : List ((Nat × Nat × Nat) × Nat)
  chips  : Nat
deriving DecidableEq, Repr

/-- A decimation chain: the coarse chain of a channel, or a fine chain (R366). -/
inductive ChainSel where
  | coarse (c : Fin 64)
  | fine (f : Fin 8)
deriving DecidableEq, Repr

/-- What the verifies of a die operation find (R486, R487): the retries that programs in a logical sector needed; the retries and the time in µs,
suspended time left out, that the erase of one needed; and the spares that failed while one was brought in. A sector that is not named needed
none. -/
structure NvVerify where
  prog  : List (Nat × Nat)
  erase : List (Nat × Nat × Nat)
  spareFails : Nat
deriving DecidableEq, Repr

/-- Every verify passes at once. -/
def NvVerify.clean : NvVerify := { prog := [], erase := [], spareFails := 0 }

/-- FS and DIN of a TDM port at the two edges of one BCLK (Table 11.2). -/
structure BclkSample where
  fsRise  : Bool
  dinRise : Bool
  fsFall  : Bool
  dinFall : Bool
deriving DecidableEq, Repr

/-- A notice record for a tile (R84, Table 2.19). -/
structure NoticeIn where
  tile  : BitVec 8
  bytes : List Byte
deriving DecidableEq, Repr

/-- What another chip answers the management core's GETs of a range: the epoch that its target tile has, against which it checks theirs (R36, R39),
and the range in lines of 64 bytes, none for one that is not returned (R76). -/
structure FarRead where
  epoch : BitVec 8
  lines : List (Option (List Byte))
deriving DecidableEq, Repr

/-- What a link carries: a request, a response or a CREDIT flit with its payload flits, or a notice push for a tile of another chip
(R85, R533). -/
inductive Packet where
  | req (r : ReqFlit)
  | resp (r : RespFlit)
  | credit (c : CreditFlit)
  | notice (chip : BitVec 4) (n : NoticeIn)
deriving DecidableEq, Repr

/-- A data flit of a frame: the first of a packet, or one that follows it (R528). -/
inductive DataFlit where
  | head (p : Packet)
  | body
deriving DecidableEq, Repr

/-- A frame: the fields of its control flit, whose bits ctlFlit and ctlFrame lay out (Table 15.2), and its data flits; COUNT is their number. -/
structure LinkFrame where
  fseq    : BitVec 12
  ack     : BitVec 12
  nak     : Bool
  vc      : Fin 6
  subLane : BitVec 3
  subReq  : Bool
  subAck  : Bool
  credits : List (BitVec 8)
  data    : List DataFlit
deriving DecidableEq, Repr

/-- A TS flit (Table 15.4). -/
structure TsFlit where
  chip   : BitVec 4
  port   : BitVec 3
  revMax : BitVec 4
  revMin : BitVec 4
  locked : BitVec 5
  time   : Word
deriving DecidableEq, Repr

/-- A link notice (R546): the chip it comes from and its number there, that chip's LINK_MAP, and the chips it holds a usable route to. -/
structure LinkNotice where
  origin : BitVec 4
  number : Nat
  map    : BitVec 128
  routes : BitVec 16
deriving DecidableEq, Repr

/-- Where a flit waits for its next hop: the router buffer of a logical tile, or the receive buffer of a port. -/
inductive FlitAt where
  | tile (l : Fin 256)
  | port (p : Fin 8)
deriving DecidableEq, Repr

/-- What power-up finds (R595 to R597): the straps, what the monitors read, whether both copies of the life cycle row or of another fuse row fail, and
the units that fail their test: always-on logic or management core, host bus unit, physical tiles with their LBIST slice, tiles whose primary
oscillator fails and whether the spare fails too, the cells that MBIST finds (tile, memory, address, bit), the key store, chip blocks and Elvind
ports. -/
structure PowerUpIn where
  chipId   : BitVec 4
  syncBus  : Bool
  mon      : BitVec 32
  lifeRow  : Bool
  fuseRow  : Bool
  control  : Bool
  hostBus  : Bool
  slices   : List (Fin 272 × Fin 24)
  oscs     : List (Fin 272 × Bool)
  cells    : List (Fin 272 × Nat × Nat × Nat)
  keyStore : Bool
  blocks   : List (Fin 16)
  ports    : List (Fin 8)
deriving DecidableEq, Repr

/-- One command of the device, one constructor per row of spec/opcode_table.json, in the table's order. -/
inductive Instr where
  /-- GET (R71). -/
  | get (r : ReqFlit)
  /-- PUT (R53). -/
  | put (r : ReqFlit)
  /-- ADD (R54). -/
  | add (r : ReqFlit)
  /-- MAX (R54). -/
  | max (r : ReqFlit)
  /-- SWAP (R54). -/
  | swap (r : ReqFlit)
  /-- CAS (R54). -/
  | cas (r : ReqFlit)
  /-- GATHER_SUM (R58). -/
  | gatherSum (r : ReqFlit)
  /-- POST (R224). -/
  | post (r : ReqFlit)
  /-- RING_PUSH (R137). -/
  | ringPush (r : ReqFlit)
  /-- RING_CLAIM (R139). -/
  | ringClaim (r : ReqFlit)
  /-- RING_PUBLISH (R138). -/
  | ringPublish (r : ReqFlit)
  /-- RING_TAIL_MOVE (R136). -/
  | ringTailMove (r : ReqFlit)
  /-- HELD_PUSH_APPLY (R140). -/
  | heldPushApply (l : Fin 256) (vc : Fin 3)
  /-- RESPONSE_ARRIVAL (R70). -/
  | responseArrival (r : RespFlit)
  /-- CREDIT_SEND (R81). -/
  | creditSend (q : IssuerId) (target : Nat)
  /-- CREDIT_ARRIVAL (R81). -/
  | creditArrival (c : CreditFlit)
  /-- NOTICE_SEND (R84). -/
  | noticeSend (arrived : Option NoticeIn)
  /-- FLIT_ADVANCE (R235). -/
  | flitAdvance (src : FlitAt) (vc : Fin 6)
  /-- MAP_CMD_BUMP_EPOCH (R42). -/
  | mapCmdBumpEpoch (o : Origin)
  /-- BUMP_EPOCH_DONE (R46). -/
  | bumpEpochDone
  /-- MAP_CMD_RELOCATE (R88). -/
  | mapCmdRelocate (o : Origin)
  /-- COPY_PASS (R582). -/
  | copyPass (l : Fin 256) (left : Nat)
  /-- RELOCATION_SWITCH (R88). -/
  | relocationSwitch (l : Fin 256)
  /-- RELOCATION_DONE (R88). -/
  | relocationDone (l : Fin 256)
  /-- TILE_CLOCK_STOP (R98). -/
  | tileClockStop (p : Fin 272) (idle : Nat)
  /-- OSC_CHECK (R102). -/
  | oscCheck (p : Fin 272) (mhz : Nat)
  /-- FAILURE_TAKEOVER (R584). -/
  | failureTakeover (l : Fin 256)
  /-- TAKEOVER_SWITCH (R586). -/
  | takeoverSwitch (l : Fin 256)
  /-- TIMER_MATCH (R157). -/
  | timerMatch (l : Fin 256)
  /-- T_CMD_START (R161). -/
  | tCmdStart (l : Fin 256) (h : Fin 4)
  /-- T_CMD_HALT (R161). -/
  | tCmdHalt (l : Fin 256) (h : Fin 4)
  /-- T_CMD_RESUME (R161). -/
  | tCmdResume (l : Fin 256) (h : Fin 4)
  /-- THREAD_UNSTALL (R107). -/
  | threadUnstall (l : Fin 256) (h : Fin 4) (cycles : Nat)
  /-- WAIT_SATISFIED (R120). -/
  | waitSatisfied (l : Fin 256) (h : Fin 4)
  /-- WAITT_TIMEOUT (R120). -/
  | waittTimeout (l : Fin 256) (h : Fin 4)
  /-- NOP (R696). -/
  | nop (l : Fin 256) (h : Fin 4) (u : UInsn)
  /-- HALT (R696). -/
  | halt (l : Fin 256) (h : Fin 4) (u : UInsn)
  /-- IDLE (R696). -/
  | idle (l : Fin 256) (h : Fin 4) (u : UInsn)
  /-- BR (R696). -/
  | br (l : Fin 256) (h : Fin 4) (u : UInsn)
  /-- BRZ (R696). -/
  | brz (l : Fin 256) (h : Fin 4) (u : UInsn)
  /-- BRNZ (R696). -/
  | brnz (l : Fin 256) (h : Fin 4) (u : UInsn)
  /-- BRLT (R696). -/
  | brlt (l : Fin 256) (h : Fin 4) (u : UInsn)
  /-- BRLTU (R696). -/
  | brltu (l : Fin 256) (h : Fin 4) (u : UInsn)
  /-- CALL (R696). -/
  | call (l : Fin 256) (h : Fin 4) (u : UInsn)
  /-- RET (R696). -/
  | ret (l : Fin 256) (h : Fin 4) (u : UInsn)
  /-- LOOP (R696). -/
  | loop (l : Fin 256) (h : Fin 4) (u : UInsn)
  /-- YIELD (R696). -/
  | yield (l : Fin 256) (h : Fin 4) (u : UInsn)
  /-- SALU_ADD (R173). -/
  | saluAdd (l : Fin 256) (h : Fin 4) (u : UInsn)
  /-- SUB (R173). -/
  | sub (l : Fin 256) (h : Fin 4) (u : UInsn)
  /-- AND (R173). -/
  | and (l : Fin 256) (h : Fin 4) (u : UInsn)
  /-- OR (R173). -/
  | or (l : Fin 256) (h : Fin 4) (u : UInsn)
  /-- XOR (R173). -/
  | xor (l : Fin 256) (h : Fin 4) (u : UInsn)
  /-- SHL (R173). -/
  | shl (l : Fin 256) (h : Fin 4) (u : UInsn)
  /-- SHR (R173). -/
  | shr (l : Fin 256) (h : Fin 4) (u : UInsn)
  /-- SRA (R173). -/
  | sra (l : Fin 256) (h : Fin 4) (u : UInsn)
  /-- MUL (R173). -/
  | mul (l : Fin 256) (h : Fin 4) (u : UInsn)
  /-- MULH (R173). -/
  | mulh (l : Fin 256) (h : Fin 4) (u : UInsn)
  /-- MULHU (R173). -/
  | mulhu (l : Fin 256) (h : Fin 4) (u : UInsn)
  /-- MIN (R173). -/
  | min (l : Fin 256) (h : Fin 4) (u : UInsn)
  /-- SALU_MAX (R173). -/
  | saluMax (l : Fin 256) (h : Fin 4) (u : UInsn)
  /-- MINU (R173). -/
  | minu (l : Fin 256) (h : Fin 4) (u : UInsn)
  /-- MAXU (R173). -/
  | maxu (l : Fin 256) (h : Fin 4) (u : UInsn)
  /-- SLT (R697). -/
  | slt (l : Fin 256) (h : Fin 4) (u : UInsn)
  /-- SLTU (R697). -/
  | sltu (l : Fin 256) (h : Fin 4) (u : UInsn)
  /-- LI (R697). -/
  | li (l : Fin 256) (h : Fin 4) (u : UInsn)
  /-- LIH (R697). -/
  | lih (l : Fin 256) (h : Fin 4) (u : UInsn)
  /-- VADD (R173). -/
  | vadd (l : Fin 256) (h : Fin 4) (u : UInsn)
  /-- VSUB (R173). -/
  | vsub (l : Fin 256) (h : Fin 4) (u : UInsn)
  /-- VMUL16 (R173). -/
  | vmul16 (l : Fin 256) (h : Fin 4) (u : UInsn)
  /-- VMULQ (R173). -/
  | vmulq (l : Fin 256) (h : Fin 4) (u : UInsn)
  /-- VSHL (R173). -/
  | vshl (l : Fin 256) (h : Fin 4) (u : UInsn)
  /-- VSHR (R173). -/
  | vshr (l : Fin 256) (h : Fin 4) (u : UInsn)
  /-- VSRA (R173). -/
  | vsra (l : Fin 256) (h : Fin 4) (u : UInsn)
  /-- VAND (R173). -/
  | vand (l : Fin 256) (h : Fin 4) (u : UInsn)
  /-- VOR (R173). -/
  | vor (l : Fin 256) (h : Fin 4) (u : UInsn)
  /-- VXOR (R173). -/
  | vxor (l : Fin 256) (h : Fin 4) (u : UInsn)
  /-- VMIN (R173). -/
  | vmin (l : Fin 256) (h : Fin 4) (u : UInsn)
  /-- VMAX (R173). -/
  | vmax (l : Fin 256) (h : Fin 4) (u : UInsn)
  /-- VCMPGE (R173). -/
  | vcmpge (l : Fin 256) (h : Fin 4) (u : UInsn)
  /-- VCMPEQ (R173). -/
  | vcmpeq (l : Fin 256) (h : Fin 4) (u : UInsn)
  /-- VSEL (R698). -/
  | vsel (l : Fin 256) (h : Fin 4) (u : UInsn)
  /-- VSAT (R173). -/
  | vsat (l : Fin 256) (h : Fin 4) (u : UInsn)
  /-- VBCAST (R698). -/
  | vbcast (l : Fin 256) (h : Fin 4) (u : UInsn)
  /-- VREDADD (R173). -/
  | vredadd (l : Fin 256) (h : Fin 4) (u : UInsn)
  /-- VREDMAX (R173). -/
  | vredmax (l : Fin 256) (h : Fin 4) (u : UInsn)
  /-- VLANE (R698). -/
  | vlane (l : Fin 256) (h : Fin 4) (u : UInsn)
  /-- LD (R699). -/
  | ld (l : Fin 256) (h : Fin 4) (u : UInsn)
  /-- ST (R699). -/
  | st (l : Fin 256) (h : Fin 4) (u : UInsn)
  /-- VLD (R699). -/
  | vld (l : Fin 256) (h : Fin 4) (u : UInsn)
  /-- VST (R699). -/
  | vst (l : Fin 256) (h : Fin 4) (u : UInsn)
  /-- VLDX (R699). -/
  | vldx (l : Fin 256) (h : Fin 4) (u : UInsn)
  /-- VSTX (R699). -/
  | vstx (l : Fin 256) (h : Fin 4) (u : UInsn)
  /-- SLOT_TAKE (R214). -/
  | slotTake (l : Fin 256) (h : Fin 4) (u : UInsn)
  /-- SLOT_ADD (R212). -/
  | slotAdd (l : Fin 256) (h : Fin 4) (u : UInsn)
  /-- SPIKE (R217). -/
  | spike (l : Fin 256) (h : Fin 4) (u : UInsn)
  /-- SPIKE1 (R212). -/
  | spike1 (l : Fin 256) (h : Fin 4) (u : UInsn)
  /-- BEAT_READ (R212). -/
  | beatRead (l : Fin 256) (h : Fin 4) (u : UInsn)
  /-- MM_START (R125). -/
  | mmStart (l : Fin 256) (h : Fin 4) (u : UInsn)
  /-- MM_WAIT (R245). -/
  | mmWait (l : Fin 256) (h : Fin 4) (u : UInsn)
  /-- ACC_RD (R700). -/
  | accRd (l : Fin 256) (h : Fin 4) (u : UInsn)
  /-- ACC_WR (R700). -/
  | accWr (l : Fin 256) (h : Fin 4) (u : UInsn)
  /-- ACC_CLR (R700). -/
  | accClr (l : Fin 256) (h : Fin 4) (u : UInsn)
  /-- GP_START (R239). -/
  | gpStart (l : Fin 256) (h : Fin 4) (u : UInsn)
  /-- GP_WAIT (R187). -/
  | gpWait (l : Fin 256) (h : Fin 4) (u : UInsn)
  /-- GP_LANE (R701). -/
  | gpLane (l : Fin 256) (h : Fin 4) (u : UInsn)
  /-- SC_START (R247). -/
  | scStart (l : Fin 256) (h : Fin 4) (u : UInsn)
  /-- SC_WAIT (R187). -/
  | scWait (l : Fin 256) (h : Fin 4) (u : UInsn)
  /-- REMOTE_GET (R117). -/
  | remoteGet (l : Fin 256) (h : Fin 4) (u : UInsn)
  /-- REMOTE_PUT (R117). -/
  | remotePut (l : Fin 256) (h : Fin 4) (u : UInsn)
  /-- REMOTE_ADD (R117). -/
  | remoteAdd (l : Fin 256) (h : Fin 4) (u : UInsn)
  /-- REMOTE_MAX (R117). -/
  | remoteMax (l : Fin 256) (h : Fin 4) (u : UInsn)
  /-- REMOTE_SWAP (R117). -/
  | remoteSwap (l : Fin 256) (h : Fin 4) (u : UInsn)
  /-- REMOTE_CAS (R117). -/
  | remoteCas (l : Fin 256) (h : Fin 4) (u : UInsn)
  /-- GSUM (R117). -/
  | gsum (l : Fin 256) (h : Fin 4) (u : UInsn)
  /-- REMOTE_POST (R223). -/
  | remotePost (l : Fin 256) (h : Fin 4) (u : UInsn)
  /-- REMOTE_FENCE (R62). -/
  | remoteFence (l : Fin 256) (h : Fin 4) (u : UInsn)
  /-- WAIT (R120). -/
  | wait (l : Fin 256) (h : Fin 4) (u : UInsn)
  /-- WAITT (R120). -/
  | waitt (l : Fin 256) (h : Fin 4) (u : UInsn)
  /-- SIGNAL (R119). -/
  | signal (l : Fin 256) (h : Fin 4) (u : UInsn)
  /-- POP (R702). -/
  | pop (l : Fin 256) (h : Fin 4) (u : UInsn)
  /-- MA_READ (R199). -/
  | maRead (l : Fin 256) (h : Fin 4) (u : UInsn)
  /-- MA_CLEAR (R199). -/
  | maClear (l : Fin 256) (h : Fin 4) (u : UInsn)
  /-- FLAGS_READ (R199). -/
  | flagsRead (l : Fin 256) (h : Fin 4) (u : UInsn)
  /-- FLAGS_CLEAR (R199). -/
  | flagsClear (l : Fin 256) (h : Fin 4) (u : UInsn)
  /-- CNT_READ (R199). -/
  | cntRead (l : Fin 256) (h : Fin 4) (u : UInsn)
  /-- ENGINE_JOB_START (R245). -/
  | engineJobStart (l : Fin 256) (e : Engine) (h : Fin 4)
  /-- MATRIX_JOB_DONE (R127). -/
  | matrixJobDone (l : Fin 256) (h : Fin 4)
  /-- GATE_JOB_DONE (R186). -/
  | gateJobDone (l : Fin 256) (h : Fin 4)
  /-- SCAN_JOB_DONE (R131). -/
  | scanJobDone (l : Fin 256) (h : Fin 4)
  /-- EVENT_ENGINE_SPIKE (R220). -/
  | eventEngineSpike (l : Fin 256)
  /-- EV_CFG_WRITE (R209). -/
  | evCfgWrite (l : Fin 256) (v : Word)
  /-- EV_CLEAR_DONE (R208). -/
  | evClearDone (l : Fin 256)
  /-- RING_CFG_WRITE (R135). -/
  | ringCfgWrite (l : Fin 256) (n : Fin 8) (v : Word)
  /-- SYNC_CFG_WRITE (R159). -/
  | syncCfgWrite (l : Fin 256) (n : Fin 32) (v : Word)
  /-- SYNC_THRESHOLD_WRITE (R146). -/
  | syncThresholdWrite (l : Fin 256) (n : Fin 32) (v : Word)
  /-- TIMER_WRITE (R157). -/
  | timerWrite (l : Fin 256) (ctrl : Bool) (v : Word)
  /-- MA_CFG_WRITE (R134). -/
  | maCfgWrite (l : Fin 256) (n : Fin 16) (v : Word)
  /-- MA_MAX_READ (R134). -/
  | maMaxRead (l : Fin 256) (n : Fin 16)
  /-- RC_COUNTER_READ (R10). -/
  | rcCounterRead (g : RegRef)
  /-- REGISTER_WRITE (R8). -/
  | registerWrite (o : Origin) (g : RegRef) (be : BitVec 4) (v : Word)
  /-- CLAP_TAKE (R560). -/
  | clapTake
  /-- CLAP_NET_RELEASE (R561). -/
  | clapNetRelease
  /-- CLAP_NET_FALL (R562). -/
  | clapNetFall
  /-- CLAP_NET_STUCK (R562). -/
  | clapNetStuck
  /-- CLAP_CTRL_CLAP (R559). -/
  | clapCtrlClap
  /-- CLAP_CTRL_RELEASE (R572). -/
  | clapCtrlRelease
  /-- CONTRACT_CMD_REGISTER (R308). -/
  | contractCmdRegister (stream : BitVec 15)
  /-- CONTRACT_CMD_ACTIVATE (R313). -/
  | contractCmdActivate (stream : BitVec 15) (v : PeerView)
  /-- CONTRACT_CMD_DEACTIVATE (R308). -/
  | contractCmdDeactivate (stream : BitVec 15)
  /-- CONTRACT_CMD_UNREGISTER (R308). -/
  | contractCmdUnregister (stream : BitVec 15)
  /-- CONTRACT_CMD_CHECK (R308). -/
  | contractCmdCheck (stream : BitVec 15) (v : PeerView)
  /-- CONTRACT_CMD_BREAK (R308). -/
  | contractCmdBreak (stream : BitVec 15)
  /-- DRAIN_DONE (R309). -/
  | drainDone (e : Fin 2048)
  /-- FRAME_END (R317). -/
  | frameEnd (e : Fin 2048)
  /-- SOURCE_GAP (R318). -/
  | sourceGap (e : Fin 2048)
  /-- RECORD_COMMIT (R322). -/
  | recordCommit (r : ReqFlit)
  /-- HINT_WRITE (R324). -/
  | hintWrite (r : ReqFlit)
  /-- CUT (R324). -/
  | cut (e : Fin 2048) (seq : Word)
  /-- WAKE_PULSE_END (R332). -/
  | wakePulseEnd (n : Fin 8)
  /-- WAKE_CTRL_WRITE (R332). -/
  | wakeCtrlWrite (v : Word)
  /-- RES_TAIL_WRITE (R327). -/
  | resTailWrite (v : Word)
  /-- COVERAGE_BREAK (R276). -/
  | coverageBreak (e : Fin 2048)
  /-- SWAP_IN (R257). -/
  | swapIn (e : Fin 2048)
  /-- SWAP_IN_DONE (R259). -/
  | swapInDone (e : Fin 2048)
  /-- SWAP_OUT (R256). -/
  | swapOut (e : Fin 2048)
  /-- CONTEXT_RESET (R440). -/
  | contextReset (e : Fin 2048)
  /-- RESIDENCY_FALLBACK (R265). -/
  | residencyFallback (e : Fin 2048)
  /-- RESOLVE_RECOMPUTE (R273). -/
  | resolveRecompute
  /-- FE_CMD_LOAD_CAL (R355). -/
  | feCmdLoadCal
  /-- FE_CMD_WAKE (R359). -/
  | feCmdWake
  /-- WAKE_REQ_WRITE (R359). -/
  | wakeReqWrite (r : ReqFlit)
  /-- ALIGN_WRITE (R352). -/
  | alignWrite (c : Fin 64) (v : Word)
  /-- SETTLE_END (R343). -/
  | settleEnd
  /-- STUCK_DETECT (R340). -/
  | stuckDetect (c : Fin 64)
  /-- CHAIN_OUTPUT_SAMPLE (R371). -/
  | chainOutputSample (k : ChainSel) (bits : List Bool)
  /-- DELIV_PUSH (R346). -/
  | delivPush (g : Fin 4)
  /-- FEED_PUSH (R347). -/
  | feedPush (g : Fin 4)
  /-- DC_START (R382). -/
  | dcStart (r : Fin 3) (v : Word)
  /-- DC_STOP (R386). -/
  | dcStop (r : Fin 3) (v : Word)
  /-- CH_CFG0_WRITE (R376). -/
  | chCfg0Write (c : Fin 64) (v : Word)
  /-- FINE_CFG0_WRITE (R376). -/
  | fineCfg0Write (f : Fin 8) (v : Word)
  /-- CHANNEL_SWITCH (R387). -/
  | channelSwitch (f : Fin 8) (src : Fin 64)
  /-- SHIFT_WRITE (R390). -/
  | shiftWrite (k : ChainSel) (v : Word)
  /-- MAXABS_READ (R392). -/
  | maxabsRead (k : ChainSel)
  /-- TH_CTRL_WRITE (R394). -/
  | thCtrlWrite (c : Fin 64) (u : Fin 2) (v : Word)
  /-- TDM_LOCK (R400). -/
  | tdmLock (p : Fin 2)
  /-- TDM_LOST (R400). -/
  | tdmLost (p : Fin 2) (cause : Fin 3)
  /-- TDM_FS_ERROR (R401). -/
  | tdmFsError (p : Fin 2) (frames : List (List BclkSample))
  /-- TDM_DELIV_PUSH (R402). -/
  | tdmDelivPush (p : Fin 2) (frames : List (List BclkSample))
  /-- TDM_TX_FETCH (R405). -/
  | tdmTxFetch (p : Fin 2) (remote : Option (Word × Nat × List Byte))
  /-- AE_EVENT (R408). -/
  | aeEvent (p : Fin 2) (a : Fin 65536)
  /-- AE_POST_ISSUE (R410). -/
  | aePostIssue (p : Fin 2) (urgent : Bool)
  /-- AE_RATE_WINDOW (R411). -/
  | aeRateWindow (p : Fin 2)
  /-- AE_HOLD_EXPIRE (R411). -/
  | aeHoldExpire (p : Fin 2)
  /-- AE_FRAME_END (R414). -/
  | aeFrameEnd (e : Fin 2048)
  /-- HOST_FRAME_WRITE (R416). -/
  | hostFrameWrite (n : Fin 16) (v : Word)
  /-- SCRUB_VISIT (R447). -/
  | scrubVisit
  /-- BANK_RETENTION (R425). -/
  | bankRetention (p : Fin 272) (bank : Fin 16) (idle : Nat)
  /-- BANK_SPARE (R451). -/
  | bankSpare (l : Fin 256) (bank : Fin 16)
  /-- BANK_SPARE_DONE (R451). -/
  | bankSpareDone (l : Fin 256)
  /-- COLUMN_FAULT (R452). -/
  | columnFault (l : Fin 256) (cause : Fin 4) (bank : Fin 16)
  /-- POOL_CFG_WRITE (R428). -/
  | poolCfgWrite (v : Word)
  /-- STALE_TAIL_WRITE (R444). -/
  | staleTailWrite (v : Word)
  /-- NV_CMD_READ (R463). -/
  | nvCmdRead (len : BitVec 9)
  /-- NV_CMD_PROGRAM (R464). -/
  | nvCmdProgram (len : BitVec 9)
  /-- NV_CMD_ERASE (R463). -/
  | nvCmdErase (len : BitVec 9)
  /-- NV_CMD_PUT_RECORD (R469). -/
  | nvCmdPutRecord (len : BitVec 9)
  /-- NV_CMD_GET_RECORD (R471). -/
  | nvCmdGetRecord
  /-- NV_CMD_DELETE (R463). -/
  | nvCmdDelete
  /-- NV_CMD_TX_BEGIN (R472). -/
  | nvCmdTxBegin
  /-- NV_CMD_TX_COMMIT (R473). -/
  | nvCmdTxCommit
  /-- NV_CMD_TX_ABORT (R463). -/
  | nvCmdTxAbort
  /-- NV_CMD_TALLY_INC (R482). -/
  | nvCmdTallyInc
  /-- NV_CMD_TALLY_READ (R482). -/
  | nvCmdTallyRead
  /-- NV_OP_DONE (R463). -/
  | nvOpDone (prog : List (Nat × Nat)) (erase : List (Nat × Nat × Nat)) (spareFails : Nat)
  /-- NV_DATA_ACCESS (R462). -/
  | nvDataAccess (w : Option Word)
  /-- NV_PROTECT_WRITE (R458). -/
  | nvProtectWrite (v : Word)
  /-- COMPACTION (R475). -/
  | compaction (enroll : Bool)
  /-- LOG_APPEND (R667). -/
  | logAppend
  /-- NV_SPARE_MAP_LOAD (R489). -/
  | nvSpareMapLoad
  /-- WIN_DATA_WRITE (R512). -/
  | winDataWrite (v : Word)
  /-- WIN_DATA_READ (R501). -/
  | winDataRead
  /-- WIN_READ_TIMEOUT (R502). -/
  | winReadTimeout
  /-- POSTED_WRITE_ISSUE (R498). -/
  | postedWriteIssue
  /-- POSTED_BUFFER_TIMEOUT (R499). -/
  | postedBufferTimeout
  /-- OP_CMD_GET (R515). -/
  | opCmdGet (v : Word)
  /-- OP_CMD_PUT (R515). -/
  | opCmdPut (v : Word)
  /-- OP_CMD_ADD (R515). -/
  | opCmdAdd (v : Word)
  /-- OP_CMD_MAX (R515). -/
  | opCmdMax (v : Word)
  /-- OP_CMD_SWAP (R515). -/
  | opCmdSwap (v : Word)
  /-- OP_CMD_CAS (R515). -/
  | opCmdCas (v : Word)
  /-- OP_CMD_FENCE (R515). -/
  | opCmdFence (v : Word)
  /-- HB_CONTROL_MGMT_RESTART (R506). -/
  | hbControlMgmtRestart
  /-- INT_CLEAR_WRITE (R507). -/
  | intClearWrite (v : Word)
  /-- TIME_LO_READ (R516). -/
  | timeLoRead
  /-- MGMT_REPLY_READ (R521). -/
  | mgmtReplyRead
  /-- POWER_CAP_WRITE (R520). -/
  | powerCapWrite (v : Word)
  /-- ALARM_POLICY_WRITE (R519). -/
  | alarmPolicyWrite (v : Word)
  /-- AUDIT_COMMIT (R523). -/
  | auditCommit
  /-- LINK_CMD_TRAIN (R539). -/
  | linkCmdTrain (p : Fin 8)
  /-- LINK_CMD_DISABLE (R545). -/
  | linkCmdDisable (p : Fin 8)
  /-- LINK_TRAIN_DONE (R540). -/
  | linkTrainDone (p : Fin 8) (locked : BitVec 5) (ts : Option TsFlit)
  /-- LINK_AUTO_RETRAIN (R539). -/
  | linkAutoRetrain (p : Fin 8)
  /-- LINK_FRAME_SEND (R533). -/
  | linkFrameSend (p : Fin 8)
  /-- LINK_FRAME_RECEIVE (R536). -/
  | linkFrameReceive (p : Fin 8) (flit : BitVec 128) (data : List (DataFlit × BitVec 128))
  /-- LANE_FAIL (R542). -/
  | laneFail (p : Fin 8) (l : Fin 5)
  /-- LINK_DOWN (R545). -/
  | linkDown (p : Fin 8) (silent : Bool)
  /-- LINK_NOTICE (R546). -/
  | linkNotice (p : Fin 8) (n : LinkNotice)
  /-- LINK_OP_TIMEOUT (R547). -/
  | linkOpTimeout
  /-- LINK_SKEW_MEASURE (R555). -/
  | linkSkewMeasure (p : Fin 8) (ns : Int)
  /-- PORT_RESUME (R646). -/
  | portResume (p : Fin 8) (notice : Bool)
  /-- PEAL_STEP_START (R579). -/
  | pealStepStart (r : Fin 16)
  /-- LBIST_SLICE (R589). -/
  | lbistSlice (p : Fin 272) (ok : Bool)
  /-- MBIST_ELEMENT (R591). -/
  | mbistElement (p : Fin 272) (cells : List (Nat × Nat × Nat))
  /-- VF_CALIBRATE (R632). -/
  | vfCalibrate (p : Fin 272) (top : Nat)
  /-- BIST_CMD_TEST_TILE (R600). -/
  | bistCmdTestTile
  /-- BIST_CMD_RETIRE (R600). -/
  | bistCmdRetire
  /-- BIST_CMD_UNRETIRE (R600). -/
  | bistCmdUnretire
  /-- BIST_CMD_STEP (R600). -/
  | bistCmdStep
  /-- TOCSIN_EVENT (R617). -/
  | tocsinEvent (sources : BitVec 7) (mon : Word)
  /-- KEYS_ERASE (R618). -/
  | keysErase (last : Fin 4)
  /-- FUSE_RECHECK (R616). -/
  | fuseRecheck (ok : Bool)
  /-- KEY_CMD_SET_IMAGE_ROOT (R628). -/
  | keyCmdSetImageRoot
  /-- KEY_CMD_SET_SITE_KEY (R628). -/
  | keyCmdSetSiteKey
  /-- KEY_CMD_NEW_ENROLL_KEY (R608). -/
  | keyCmdNewEnrollKey
  /-- KEY_CMD_PROG_UNLOCK_KEY (R628). -/
  | keyCmdProgUnlockKey
  /-- LC_UNLOCK_PROVISION (R622). -/
  | lcUnlockProvision
  /-- LC_UNLOCK_FIELD (R623). -/
  | lcUnlockField
  /-- LC_UNLOCK_SERVICE (R623). -/
  | lcUnlockService
  /-- LC_UNLOCK_RETURN (R623). -/
  | lcUnlockReturn
  /-- LC_UNLOCK_SCRAP (R623). -/
  | lcUnlockScrap
  /-- LC_UNLOCK_RESPONSE (R623). -/
  | lcUnlockResponse (w : Word)
  /-- LC_UNLOCK_TIMEOUT (R623). -/
  | lcUnlockTimeout
  /-- PWR_MODE_LISTEN (R643). -/
  | pwrModeListen (limit : Bool)
  /-- PWR_MODE_ARMED (R641). -/
  | pwrModeArmed (limit : Bool)
  /-- PWR_MODE_FULL (R641). -/
  | pwrModeFull (limit : Bool)
  /-- LISTEN_ENTRY_DONE (R643). -/
  | listenEntryDone
  /-- WAKE_START (R647). -/
  | wakeStart
  /-- WAKE_DONE (R647). -/
  | wakeDone
  /-- ACTIVITY_UPDATE (R633): whether an average that is no whole percentage is taken up or down. -/
  | activityUpdate (up : Bool)
  /-- LIMITER_UPDATE (R649). -/
  | limiterUpdate (power : Nat) (temp : BitVec 16)
  /-- DROOP_EVENT (R637). -/
  | droopEvent (p : Fin 272)
  /-- VLEVEL_STEP (R630). -/
  | vlevelStep
  /-- SYNC_DRIVE (R653). -/
  | syncDrive
  /-- SYNC_EDGE (R653). -/
  | syncEdge (frac : Nat)
  /-- SYNC_MISSED (R654). -/
  | syncMissed
  /-- TIME_CMD_ARM (R654). -/
  | timeCmdArm
  /-- MAILBOX_PING (R661). -/
  | mailboxPing (load : Fin 101)
  /-- MAILBOX_CLAP_REQ (R559). -/
  | mailboxClapReq (load : Fin 101)
  /-- MAILBOX_LOG_FLUSH (R667). -/
  | mailboxLogFlush (load : Fin 101)
  /-- MAILBOX_COMPACT (R474). -/
  | mailboxCompact (load : Fin 101)
  /-- LOAD_BEGIN (R663). -/
  | loadBegin (load : Fin 101)
  /-- LOAD_CHUNK (R664). -/
  | loadChunk (load : Fin 101) (remote : Option FarRead)
  /-- LOAD_END (R664). -/
  | loadEnd (load : Fin 101)
  /-- LOAD_ABORT (R665). -/
  | loadAbort (load : Fin 101)
  /-- SEAL (R613). -/
  | seal (load : Fin 101) (remote : Option FarRead)
  /-- UNSEAL (R302). -/
  | unseal (load : Fin 101) (remote : Option FarRead)
  /-- DELETE_RESIDENT (R661). -/
  | deleteResident (load : Fin 101)
  /-- EXPORT (R614). -/
  | exportRecord (load : Fin 101) (remote : Option FarRead)
  /-- RESTORE (R614). -/
  | restore (load : Fin 101) (remote : Option FarRead)
  /-- VF_DELETE (R637). -/
  | vfDelete (load : Fin 101)
  /-- BOOT_CHECK (R670). -/
  | bootCheck (load : Fin 101)
  /-- WATCHDOG_EXPIRE (R668). -/
  | watchdogExpire
  /-- MGMT_CORE_START (R671). -/
  | mgmtCoreStart
  /-- DEFER_CLEAR (R666). -/
  | deferClear (load : Fin 101)
  /-- PORESET_ASSERT (R679). -/
  | poresetAssert
  /-- POWER_UP (R595). -/
  | powerUp (v : PowerUpIn)
  /-- SELF_TEST_DONE (R599). -/
  | selfTestDone
  /-- TAP_RESET (R685). -/
  | tapReset
  /-- EXTEST (R687). -/
  | extest (levels shifted : List Bool)
  /-- IDCODE (R685). -/
  | idcode
  /-- SAMPLE_PRELOAD (R686). -/
  | samplePreload (levels shifted : List Bool)
  /-- CLAMP (R687). -/
  | clamp (shifted : List Bool)
  /-- HIGHZ (R687). -/
  | highz (shifted : List Bool)
  /-- BYPASS (R685). -/
  | bypass (shifted : List Bool)
  /-- PRIVATE_SCAN (R601). -/
  | privateScan (opcode : BitVec 8) (shifted : List Bool)
  /-- ENTROPY_SAMPLE (R615). -/
  | entropySample (ok : Bool)
  /-- CLAP_NET_HIGH (R562). -/
  | clapNetHigh (us : Nat)
deriving DecidableEq, Repr

end Sys2Proof
end

