-- ==== Sys2Proof/Config.lean ====
section
/-! DEFINITION. What the spec leaves to the implementation or leaves open: constants without a value. Each is named in the
assumption log. -/

namespace Sys2Proof.Config

/-- A fresh value that the spec leaves open: the n-th draw. -/
opaque freeValue : Nat → Nat

/-- FLOOR_EST (R651): the device's estimate of chip power in 10 mW units, from the floors in MHz of the tiles of rows 0 to 14. -/
opaque floorPower : List Nat → Nat

/-- The baseline erase time of a flash sector in µs, measured at production test (R455). -/
opaque eraseBaseline : Nat → Nat

/-- The signature of an LBIST slice of sound logic under a seed (R600): a fixed function that is not published. -/
opaque lbistSignature : Nat → Nat → Nat

/-- FW_BUILD of the ROM firmware and the ROM revision (Table 14.7). -/
opaque romBuild : BitVec 16
opaque romRev : BitVec 8

/-- The patch root in ROM (R670). -/
opaque patchRoot : BitVec 256

/-- The production repairs in fuses (R594): the SRAM rows of a physical tile, 128 × macro + row, that a spare row holds. -/
opaque productionRows : Nat → List Nat

/-- The production value of CAL[p][v] in fuses, in MHz (R631). -/
opaque productionCal : Nat → Nat → BitVec 16

end Sys2Proof.Config
end

