-- ==== Sys2Proof/Machine/Bits.lean ====
section
/-! DEFINITION. Bit fields, byte order, and sparse maps: the helpers every register and every memory access is written with. -/

namespace Sys2Proof.Machine

/-! ### Sparse maps -/

/-- The value at key k; an unlisted key reads as d k. -/
def spGet {α : Type} (d : Nat → α) : Sparse α → Nat → α
  | [], k => d k
  | (j, v) :: r, k => if k = j then v else if k < j then d k else spGet d r k

/-- The map with key k set to v, in canonical form: v equal to d k removes the entry. -/
def spSet {α : Type} [DecidableEq α] (d : Nat → α) : Sparse α → Nat → α → Sparse α
  | [], k, v => if v = d k then [] else [(k, v)]
  | (j, w) :: r, k, v =>
    if k = j then (if v = d k then r.dropWhile (fun e => e.1 ≤ k) else (k, v) :: r)
    else if k < j then (if v = d k then (j, w) :: r else (k, v) :: (j, w) :: r)
    else (j, w) :: spSet d r k v

/-- The canonical form: keys rise strictly and no entry equals the default. -/
def spWf {α : Type} [DecidableEq α] (d : Nat → α) : Sparse α → Bool
  | [] => true
  | [(j, v)] => decide (v ≠ d j)
  | (j, v) :: (j', v') :: r => decide (v ≠ d j) && decide (j < j') && spWf d ((j', v') :: r)

/-- Set each key of a list in turn. -/
def spSetAll {α : Type} [DecidableEq α] (d : Nat → α) (m : Sparse α) (kvs : List (Nat × α)) : Sparse α :=
  kvs.foldl (fun a kv => spSet d a kv.1 kv.2) m

/-! ### Bit fields of a register word -/

/-- Bits [hi:lo] of a word, as a number. -/
def wfld (w : Word) (hi lo : Nat) : Nat := (w.toNat >>> lo) % 2 ^ (hi + 1 - lo)

/-- Bit n of a word. -/
def wbit (w : Word) (n : Nat) : Bool := w.getLsbD n

/-- The word with bits [hi:lo] replaced by v (its low bits). -/
def wSetFld (w : Word) (hi lo v : Nat) : Word :=
  let m : Nat := (2 ^ (hi + 1 - lo) - 1) <<< lo
  (w &&& ~~~ (BitVec.ofNat 32 m)) ||| BitVec.ofNat 32 ((v % 2 ^ (hi + 1 - lo)) <<< lo)

/-- The word with bit n replaced. -/
def wSetBit (w : Word) (n : Nat) (b : Bool) : Word := wSetFld w n n b.toNat

/-- A number as a register word. -/
abbrev wd (n : Nat) : Word := BitVec.ofNat 32 n

/-- A counter that saturates at 0xFFFF_FFFF: one more. -/
def satInc (w : Word) : Word := if w = wd 0xFFFFFFFF then w else w + 1

/-- A counter that saturates at 0xFFFF_FFFF: n more. -/
def satAdd (w : Word) (n : Nat) : Word := wd (min 0xFFFFFFFF (w.toNat + n))

/-! ### Bytes, little-endian (R5) -/

/-- The n low bytes of a number, byte 0 first. -/
def toBytes : Nat → Nat → List Byte
  | 0, _ => []
  | n + 1, v => BitVec.ofNat 8 v :: toBytes n (v / 256)

/-- The number a byte string spells, byte 0 least significant. -/
def ofBytes : List Byte → Nat
  | [] => 0
  | b :: r => b.toNat + 256 * ofBytes r

/-- Exactly n bytes of a byte string: cut, or filled with zeros. -/
def takeBytes : Nat → List Byte → List Byte
  | 0, _ => []
  | n + 1, [] => 0 :: takeBytes n []
  | n + 1, b :: r => b :: takeBytes n r

/-- The 32-bit word at byte offset o of a byte string; bytes past its end read 0. -/
def wordAt (bs : List Byte) (o : Nat) : Word := wd (ofBytes (takeBytes 4 (bs.drop o)))

/-- A number of n bytes at byte offset o of a byte string. -/
def natAt (bs : List Byte) (o n : Nat) : Nat := ofBytes (takeBytes n (bs.drop o))

/-- Sign-extend the low n bits of a number. -/
def sext (n : Nat) (v : Nat) : Int := if v % 2 ^ n < 2 ^ (n - 1) then ((v % 2 ^ n : Nat) : Int) else ((v % 2 ^ n : Nat) : Int) - ((2 ^ n : Nat) : Int)

/-- An integer held in a 32-bit word, two's complement. -/
abbrev wi (i : Int) : Word := BitVec.ofInt 32 i

/-- Round an integer quotient v / 2^k to nearest, ties to even. -/
def rneShift (v : Int) (k : Nat) : Int :=
  let q := v / (2 ^ k : Nat)
  let r := v % (2 ^ k : Nat)
  let h : Int := ((2 ^ k : Nat) : Int)
  if 2 * r < h then q else if 2 * r > h then q + 1 else if q % 2 = 0 then q else q + 1

/-- Limit an integer to a range. -/
def clampI (lo hi v : Int) : Int := if v < lo then lo else if v > hi then hi else v

/-- The lowest index below n at which p holds. -/
def lowestBelow (n : Nat) (p : Nat → Bool) : Option Nat := (List.range n).find? p

/-- A fold over the indices below n, in rising order. -/
def overBelow {α : Type} (n : Nat) (f : Nat → α → α) (a : α) : α := (List.range n).foldl (fun x i => f i x) a

end Sys2Proof.Machine
end

