-- ==== Sys2Proof/Machine/FeState.lean ====
section
/-! DEFINITION. What the microphone front end and the decimation chains hold beside their registers (chapters 9 and 10). -/

namespace Sys2Proof.Machine

/-- One chain, coarse or fine, with its fast path (R366): the state of the main path (0 STOPPED, 1 ARMED, 2 RUNNING), the channel a fine
chain draws on, CIC integrators and combs, the histories of the stages behind the CIC (newest first), start time and WARMUP taken at
the start, SETTLED, whether the samples before SETTLED fill a gap (R343), OUT_COUNT, STEP_AT, RANGE_STEP, MAXABS, CFG_ERR, the shifts in
effect (R390); then the fast path: running, its CIC, and samples since its start, up to 2. -/
structure DcPath where
  st      : Nat
  src     : Nat
  integ   : List (BitVec 40)
  comb    : List (BitVec 40)
  hist    : List (List Int)
  startAt : Nat
  warm    : Nat
  settled : Bool
  gap     : Bool
  count   : Word
  stepAt  : Word
  step    : Bool
  maxabs  : Nat
  cfgErr  : Bool
  shifts  : Word
  fastOn  : Bool
  fInteg  : List (BitVec 40)
  fComb   : List (BitVec 40)
  fCount  : Nat
deriving DecidableEq, Repr

/-- A chain at reset: STOPPED, no fast path (Table 10.5). -/
def DcPath.reset : DcPath :=
  { st := 0, src := 0, integ := [], comb := [], hist := [], startAt := 0, warm := 0, settled := false, gap := false, count := 0, stepAt := 0,
    step := false, maxabs := 0, cfgErr := false, shifts := 0, fastOn := false, fInteg := [], fComb := [], fCount := 0 }

/-- A threshold unit beside its registers (R394, R396): envelope, hold count, and the POST it issued last, with its number among those of all units. -/
structure ThUnit where
  e    : Nat
  held : Nat
  post : Option (ReqFlit × Nat)
deriving DecidableEq, Repr

/-- A threshold unit at reset. -/
def ThUnit.reset : ThUnit := { e := 0, held := 0, post := none }

/-- An array group: the end of its settle (R343); whether its delivery has begun (R385), the samples of each channel not yet pushed, with OUT_COUNT,
start and time of the last one before the begin, sample times pushed or dropped since, and the dropped ranges; the fast samples not yet pushed to FEED
and the position of the next one; whether kind 6 counts from a wake mark (R350), listening samples since it, and where it is in delivered sample
times; and the pre-roll encoder (R358): predictor, step index, sample within the block, codes of the open line, the block's entry (predictor, index,
time) and GAP, and whether a mark is due (R359). -/
structure FeGroup where
  settle  : Option Nat
  begun   : Bool
  queues  : Sparse (List Int)
  counts  : Sparse (Option (Word × Nat × Nat))
  sent    : Nat
  drops   : List (Nat × Nat)
  feedQ   : List Int
  feedPos : Int
  marked  : Bool
  since   : Nat
  base    : Int
  encP    : Int
  encI    : Nat
  pos     : Nat
  codes   : List Nat
  blkP    : Int
  blkI    : Nat
  blkT    : Word
  blkGap  : Bool
  mark    : Bool
deriving DecidableEq, Repr

/-- A group at reset. -/
def FeGroup.reset : FeGroup :=
  { settle := none, begun := false, queues := [], counts := [], sent := 0, drops := [], feedQ := [], feedPos := 0, marked := false, since := 0, base := 0, encP := 0,
    encI := 0, pos := 0, codes := [], blkP := 0, blkI := 0, blkT := 0, blkGap := false, mark := false }

/-- The front end: chains (0 to 63 coarse, 64 to 71 fine), each channel's alignment history (newest first), groups, threshold units (2c + u) and how
many POSTs they have issued, ALIGN words still in use until a LOAD_CAL takes effect and its time (R352), the tick of the last wake (R360), and whether
it works as in LISTEN (Table 9.4). -/
structure FrontEnd where
  paths  : Sparse DcPath
  align  : Sparse (List Int)
  groups : Sparse FeGroup
  th     : Sparse ThUnit
  posts  : Nat
  calOld : List (Nat × Word)
  calAt  : Nat
  wakeAt : Option Nat
  listen : Bool
deriving DecidableEq, Repr

/-- The front end at reset. -/
def FrontEnd.reset : FrontEnd :=
  { paths := [], align := [], groups := [], th := [], posts := 0, calOld := [], calAt := 0, wakeAt := none, listen := false }

end Sys2Proof.Machine
end

