-- ==== Sys2Proof/Machine/HostState.lean ====
section
/-! DEFINITION. What the host bus holds beside its registers (chapter 14). -/

namespace Sys2Proof.Machine

/-- An entry of the posted write buffer, with all it captured at its bus cycle (R497): a window write, or an OP_CMD. -/
inductive HostEntry where
  | window (addr : Addr) (size prio : Nat) (data : Word)
  | op (addr : Addr) (arg arg2 cmd : Word)
deriving DecidableEq, Repr

/-- What an operation of the host port is for. -/
inductive HostUse where
  | winWrite | winRead | op
deriving DecidableEq, Repr

/-- An operation of the host port that is not complete (R62, R67). -/
structure HostOut where
  seq    : Nat
  use    : HostUse
  acked  : Bool
  prio   : BitVec 2
  tag    : BitVec 10
  target : Nat
  since  : Nat
deriving DecidableEq, Repr

/-- A window read (R501, R502): its address and size, whether a bus cycle waits for it, since when, the tag of its GET once issued, and a
response held for the next read. -/
structure WinRead where
  addr   : Addr
  size   : Nat
  active : Bool
  since  : Nat
  tag    : Option (BitVec 10)
  resp   : Option RespFlit
deriving DecidableEq, Repr

/-- The host port: the posted write buffer, a bus cycle held open by a full buffer with its start (R499), operations under way, the number of the
next, the window read, the FENCE that waits with its number and mask, failures of posted operations and window writes since the last FENCE (R63,
R515), tags of operations failed under R547 with the time until which they are not used again (R548). -/
structure HostPort where
  buf     : List HostEntry
  stalled : Option (HostEntry × Nat)
  out     : List HostOut
  seq     : Nat
  read    : Option WinRead
  fence   : Option (Nat × BitVec 3)
  failed  : Nat
  late    : List (Nat × Nat)
deriving DecidableEq, Repr

/-- The host port at reset. -/
def HostPort.reset : HostPort := { buf := [], stalled := none, out := [], seq := 0, read := none, fence := none, failed := 0, late := [] }

end Sys2Proof.Machine
end

