-- ==== Sys2Proof/Machine/LinkState.lean ====
section
/-! DEFINITION. What the Elvind ports hold beside their registers (chapter 15). -/

namespace Sys2Proof.Machine

/-- A port: the rest of the packet under way in each VC; transmit credits, CREDITS counters sent and last received, frames in a row each
VC was ready and not chosen, and whether the last choice was the exception of R533 (R532, R533); the FSEQ of the last new frame, unacknowledged
frames, those still to be resent, and how often each has been resent, by FSEQ (R535, R538, R545); the expected FSEQ and whether frames are being
discarded (R537); received flits of each VC; when a control flit was last taken; since when the port is DOWN; whether it is parked (R646); the
receive lane asked to move and since when, and whether SUB_LANE is next that of SUB_ACK (R543); the frame last put on the wire; whether the last
skew was above 1 µs (R555). -/
structure LinkPort where
  part       : Sparse (List DataFlit)
  credit     : Sparse Nat
  freed      : Sparse Nat
  seen       : Sparse Nat
  starved    : Sparse Nat
  excepted   : Bool
  fseq       : BitVec 12
  retry      : List LinkFrame
  resend     : List LinkFrame
  resends    : Sparse Nat
  expect     : BitVec 12
  discarding : Bool
  rx         : Sparse (List DataFlit)
  heard      : Nat
  downAt     : Option Nat
  parked     : Bool
  subReq     : Option Nat
  subSince   : Nat
  subTurn    : Bool
  wire       : Option LinkFrame
  skewHigh   : Bool
deriving DecidableEq, Repr

/-- A port as phase 5 of training leaves it: every credit count 192, FSEQ and ACK 0 (Table 15.3). -/
def LinkPort.reset : LinkPort :=
  { part := [], credit := [], freed := [], seen := [], starved := [], excepted := false, fseq := 0, retry := [], resend := [], resends := [],
    expect := 1, discarding := false, rx := [], heard := 0, downAt := none, parked := false, subReq := none, subSince := 0, subTurn := false,
    wire := none, skewHigh := false }

/-- The links: ports, the chips each other chip reported usable routes to (R549), notices taken and sent with their ports (R546), the
number of the next, operations caught by a link failure (deadline, issuer, number, R547), wake notices sent (R648), and the transmitter preset in
effect at each port (R558). -/
structure Links where
  ports    : Sparse LinkPort
  reported : Sparse (BitVec 16)
  known    : List LinkNotice
  sent     : List (Nat × LinkNotice)
  number   : Nat
  caught   : List (Nat × Nat × Nat)
  wakeSent : List Nat
  preset   : Sparse Nat
deriving DecidableEq, Repr

/-- The links at reset. -/
def Links.reset : Links := { ports := [], reported := [], known := [], sent := [], number := 0, caught := [], wakeSent := [], preset := [] }

end Sys2Proof.Machine
end

