-- ==== Sys2Proof/Machine/PortState.lean ====
section
/-! DEFINITION. What the TDM and address-event ports hold beside their registers (chapter 11). -/

namespace Sys2Proof.Machine

/-- A TDM port: sample times not yet pushed, each the values of its slots; sample times pushed or dropped since the lock and the dropped
ranges; frames in a row that failed (R400); the block on DOUT and the one fetched ahead (R405). -/
structure TdmPort where
  queue  : List (List Int)
  sent   : Nat
  drops  : List (Nat × Nat)
  fails  : Nat
  txNow  : List Byte
  txNext : Option (List Byte)
deriving DecidableEq, Repr

/-- A TDM port at reset. -/
def TdmPort.reset : TdmPort := { queue := [], sent := 0, drops := [], fails := 0, txNow := [], txNext := none }

/-- An address-event port: its urgent and normal queues of POSTs with their maps (R410), the event whose ACK is withheld with the time
it was presented, and the 10 µs window with the events accepted in it (R411). -/
structure AePort where
  urgent : List (ReqFlit × Nat)
  normal : List (ReqFlit × Nat)
  held   : Option (Nat × Nat)
  window : Nat
  taken  : Nat
deriving DecidableEq, Repr

/-- An address-event port at reset. -/
def AePort.reset : AePort := { urgent := [], normal := [], held := none, window := 0, taken := 0 }

/-- The ports: two TDM, two address-event, and the events of the last 20 ms: map, time, whether discarded (R414). -/
structure Ports where
  tdm : Sparse TdmPort
  ae  : Sparse AePort
  log : List (Nat × Nat × Bool)
deriving DecidableEq, Repr

/-- The ports at reset. -/
def Ports.reset : Ports := { tdm := [], ae := [], log := [] }

end Sys2Proof.Machine
end

