-- ==== Sys2Proof/Machine/Regs.lean ====
section
/-! DEFINITION. The register map: the place of every register the spec lays out, and one descriptor row per register (or per array of
registers) with its access type, its writable bits, its write-one-to-clear bits, its read-clears bits and its reset value
(R8, R11 and the layout table that each row names). Chip-block registers and host-bus registers share one bank, whose keys are
the host-bus offset and 0x100000 x (block + 1) + offset; tile registers are keyed by their tile-control offset. -/

namespace Sys2Proof.Machine

/-! ### Places -/

/-- 14_host_bus_and_register_map Table 14.5, 14.6: STEP, FAMILY, PART. -/
abbrev Reg.HB_ID : Nat := 0x0
/-- 14_host_bus_and_register_map Table 14.5, 14.7: FW_BUILD 16, PATCHED, SLOT, ROM_REV 8. -/
abbrev Reg.HB_BUILD : Nat := 0x4
/-- 14_host_bus_and_register_map Table 14.5, 14.8: READY, BIST 3, MGMT_RESTARTS 8 held; ALARM, KEYS_LOCKED, STALE, NV_WEAR, BROKEN_ANY, SYNC_BUS,
CHIP_ID are read from the state they mirror. -/
abbrev Reg.HB_STATUS : Nat := 0x8
/-- 14_host_bus_and_register_map Table 14.5, 14.9: INT_EN, RES_THRESH 8, MGMT_RESTART (WO). -/
abbrev Reg.HB_CONTROL : Nat := 0xc
/-- 14_host_bus_and_register_map Table 14.5, 14.10: 20 interrupt flags; RESULT and MGMT_REPLY are levels computed at a read. -/
abbrev Reg.INT_STATUS : Nat := 0x10
/-- 14_host_bus_and_register_map Table 14.5, 14.10. -/
abbrev Reg.INT_ENABLE : Nat := 0x14
/-- 14_host_bus_and_register_map Table 14.5, 14.10. -/
abbrev Reg.INT_CLEAR : Nat := 0x18
/-- 14_host_bus_and_register_map Table 14.5, 14.11. -/
abbrev Reg.WIN_ADDR_LO : Nat := 0x1c
/-- 14_host_bus_and_register_map Table 14.5, 14.11. -/
abbrev Reg.WIN_ADDR_HI : Nat := 0x20
/-- 14_host_bus_and_register_map Table 14.5, R501, R512: a port: the window. -/
abbrev Reg.WIN_DATA : Nat := 0x24
/-- 14_host_bus_and_register_map Table 14.5, 14.12: SIZE 3, AUTOINC, PRIO 2. -/
abbrev Reg.WIN_CTRL : Nat := 0x28
/-- 14_host_bus_and_register_map Table 14.5, 14.13: RD_CODE 8, RD_FLAGS 5, FREE 5, RETRY, BUSY, DROPPED, WR_ERR, WR_CODE 7. -/
abbrev Reg.WIN_STATUS : Nat := 0x2c
/-- 14_host_bus_and_register_map Table 14.5, 14.11. -/
abbrev Reg.OP_ADDR_LO : Nat := 0x30
/-- 14_host_bus_and_register_map Table 14.5, 14.11. -/
abbrev Reg.OP_ADDR_HI : Nat := 0x34
/-- 14_host_bus_and_register_map Table 14.5, R515. -/
abbrev Reg.OP_ARG : Nat := 0x38
/-- 14_host_bus_and_register_map Table 14.5, R515. -/
abbrev Reg.OP_ARG2 : Nat := 0x3c
/-- 14_host_bus_and_register_map Table 14.5, 14.14. -/
abbrev Reg.OP_CMD : Nat := 0x40
/-- 14_host_bus_and_register_map Table 14.5, R515. -/
abbrev Reg.OP_RESULT : Nat := 0x44
/-- 14_host_bus_and_register_map Table 14.5, 14.15: BUSY, CODE 8, FLAGS 8, EPOCH 8. -/
abbrev Reg.OP_STATUS : Nat := 0x48
/-- 14_host_bus_and_register_map Table 14.5, R516: view of the device time. -/
abbrev Reg.TIME_LO : Nat := 0x4c
/-- 14_host_bus_and_register_map Table 14.5, R516: the latch a TIME_LO read fills. -/
abbrev Reg.TIME_HI : Nat := 0x50
/-- 14_host_bus_and_register_map Table 14.5, 14.16: CLAP, RELEASE (WO), HOLD, HELD, PIN_DRIVE, MISSED 8, PENDING 7, CAUSE_EN 7. -/
abbrev Reg.CLAP_CTRL : Nat := 0x54
/-- 14_host_bus_and_register_map Table 14.5, 14.17: 7 cause bits. -/
abbrev Reg.CLAP_CAUSE : Nat := 0x58
/-- 14_host_bus_and_register_map Table 14.5, 14.17. -/
abbrev Reg.CLAP_COUNT : Nat := 0x5c
/-- 14_host_bus_and_register_map Table 14.5, 14.17. -/
abbrev Reg.CLAP_STAMP_LO : Nat := 0x60
/-- 14_host_bus_and_register_map Table 14.5, 14.17. -/
abbrev Reg.CLAP_STAMP_HI : Nat := 0x64
/-- 14_host_bus_and_register_map Table 14.5, 8.17. -/
abbrev Reg.RES_HEAD : Nat := 0x68
/-- 14_host_bus_and_register_map Table 14.5, 8.17: written by the guarded RES_TAIL_WRITE. -/
abbrev Reg.RES_TAIL : Nat := 0x6c
/-- 14_host_bus_and_register_map Table 14.5, 8.5. -/
abbrev Reg.CONTRACT_CMD : Nat := 0x70
/-- 14_host_bus_and_register_map Table 14.5, 8.6. -/
abbrev Reg.CONTRACT_ARG : Nat := 0x74
/-- 14_host_bus_and_register_map Table 14.5, 8.7: BUSY, BROKEN_ANY, REASON 8, DETAIL 16. -/
abbrev Reg.CONTRACT_STATUS : Nat := 0x78
/-- 14_host_bus_and_register_map Table 14.5, 13.5. -/
abbrev Reg.NV_CMD : Nat := 0x7c
/-- 14_host_bus_and_register_map Table 14.5, 13.3. -/
abbrev Reg.NV_ADDR : Nat := 0x80
/-- 14_host_bus_and_register_map Table 14.5, 13.4, R462: a port to the transfer buffer. -/
abbrev Reg.NV_DATA : Nat := 0x84
/-- 14_host_bus_and_register_map Table 14.5, 13.6: BUSY, PENDING, ERR 4, FOUND, WEAR, TX_OPEN, COMPACTING, LEN 9, SPARES 9, READ_ONLY. -/
abbrev Reg.NV_STATUS : Nat := 0x88
/-- 14_host_bus_and_register_map Table 14.5, 13.7: BP 2; written by the guarded NV_PROTECT_WRITE. -/
abbrev Reg.NV_PROTECT : Nat := 0x8c
/-- 14_host_bus_and_register_map Table 14.5, 14.18: STATE 3 (a view of the fuses), UNLOCK_FAILS 4, UNLOCK_BUSY. -/
abbrev Reg.LC_STATE : Nat := 0x90
/-- 14_host_bus_and_register_map Table 14.5, 14.18. -/
abbrev Reg.LC_UNLOCK : Nat := 0x94
/-- 14_host_bus_and_register_map Table 14.5, 14.19: 7 source bits, LOCKED, ERASED. -/
abbrev Reg.ALARM_STATUS : Nat := 0x98
/-- 14_host_bus_and_register_map Table 14.5, 14.19: POLICY 14, NEXT 14; written by the guarded ALARM_POLICY_WRITE. -/
abbrev Reg.ALARM_POLICY : Nat := 0x9c
/-- 14_host_bus_and_register_map Table 14.5, 14.20: MODE 2, LIMIT_EN; MODE is written by the PWR_MODE_* commands. -/
abbrev Reg.PWR_CTRL : Nat := 0xa0
/-- 14_host_bus_and_register_map Table 14.5, 14.20: MODE 2, CHANGING, REFUSED 3, LIMITING, CAP_BROKE, POWER 16. -/
abbrev Reg.PWR_STATUS : Nat := 0xa4
/-- 14_host_bus_and_register_map Table 14.5, 14.20: CAP 12. -/
abbrev Reg.POWER_CAP : Nat := 0xa8
/-- 14_host_bus_and_register_map Table 14.5, 14.21. -/
abbrev Reg.MGMT_MAILBOX : Nat := 0xac
/-- 14_host_bus_and_register_map Table 14.5, 14.21: a view of the oldest reply. -/
abbrev Reg.MGMT_REPLY : Nat := 0xb0
/-- 14_host_bus_and_register_map Table 14.5, 14.21: LOAD 8, QUEUE 4, REPLIES 4, DEFERRING, DROPPED. -/
abbrev Reg.MGMT_LOAD : Nat := 0xb4
/-- 14_host_bus_and_register_map Table 14.5, 8.18: LATCH 8, ASSERTED 8 (W1C, the pins), PULSE 4, ENABLE, LISTEN_PIN 3, LISTEN_EN. -/
abbrev Reg.WAKE_CTRL : Nat := 0xb8
/-- 14_host_bus_and_register_map Table 14.5, 14.22: SEQ of the last committed AUDIT record. -/
abbrev Reg.AUDIT_HEAD : Nat := 0xbc
/-- 03_tile_anatomy Table 3.11, 3.13: a view of the tile map. -/
abbrev Reg.TILE_ID : Nat := 0x0
/-- 03_tile_anatomy Table 3.11, 3.14: a view of threads, engines, clock. -/
abbrev Reg.TILE_STATUS : Nat := 0x4
/-- 03_tile_anatomy Table 3.11, 3.15: NOTICE_RING 3, NOTICE_EN, UCODE_SPLIT, IDLE_HOLD 8. -/
abbrev Reg.TILE_CONFIG : Nat := 0x8
/-- 03_tile_anatomy Table 3.11. -/
abbrev Reg.TIMER_CMP : Nat := 0xc
/-- 03_tile_anatomy Table 3.11, R157. -/
abbrev Reg.TIMER_PERIOD : Nat := 0x10
/-- 03_tile_anatomy Table 3.11, 3.16: ENABLE, SYNC 5, PERIODIC. -/
abbrev Reg.TIMER_CTRL : Nat := 0x14
/-- 03_tile_anatomy Table 3.11, 3.17: FREQ_MHZ 10, RUN, OSC_SEL, OSC_FAIL. -/
abbrev Reg.CLK_STATUS : Nat := 0x100
/-- 03_tile_anatomy Table 3.11, 3.18: LINE 12. -/
abbrev Reg.RING_BASE (i : Nat) : Nat := 0x200 + 0x20 * i
/-- 03_tile_anatomy Table 3.11, 3.19: SLOT_SHIFT 3, SLOTS_SHIFT 4, ENABLE, URGENT_RESERVE 8, CONSUMER 2, ACTION 3, ENTRY 11. -/
abbrev Reg.RING_CFG (i : Nat) : Nat := 0x204 + 0x20 * i
/-- 03_tile_anatomy Table 3.11, 3.20: a view of the ring header. -/
abbrev Reg.RING_OCC (i : Nat) : Nat := 0x208 + 0x20 * i
/-- 03_tile_anatomy Table 3.11: a view of the held pushes. -/
abbrev Reg.RING_HELD (i : Nat) : Nat := 0x20c + 0x20 * i
/-- 03_tile_anatomy Table 3.11: pushes applied, wraps. -/
abbrev Reg.RING_PUSHES (i : Nat) : Nat := 0x210 + 0x20 * i
/-- 03_tile_anatomy Table 3.11: SYNC[n].COUNT, signed. -/
abbrev Reg.SYNC_COUNT (i : Nat) : Nat := 0x400 + 0x20 * i
/-- 03_tile_anatomy Table 3.11. -/
abbrev Reg.SYNC_THRESHOLD (i : Nat) : Nat := 0x404 + 0x20 * i
/-- 03_tile_anatomy Table 3.11, 3.21: ENABLE, REARM, ACTION 3, THREAD 2, FIRED, ENTRY 11, CHAIN_URGENT, C0, PENDING. -/
abbrev Reg.SYNC_CFG (i : Nat) : Nat := 0x408 + 0x20 * i
/-- 03_tile_anatomy Table 3.11: SYNC[n].FIRES, wraps. -/
abbrev Reg.SYNC_FIRES_N (i : Nat) : Nat := 0x40c + 0x20 * i
/-- 03_tile_anatomy Table 3.11. -/
abbrev Reg.CHAIN_ADDR_LO (i : Nat) : Nat := 0x410 + 0x20 * i
/-- 03_tile_anatomy Table 3.11. -/
abbrev Reg.CHAIN_ADDR_HI (i : Nat) : Nat := 0x414 + 0x20 * i
/-- 03_tile_anatomy Table 3.11. -/
abbrev Reg.CHAIN_ARG (i : Nat) : Nat := 0x418 + 0x20 * i
/-- 03_tile_anatomy Table 3.11: device time [31:0]. -/
abbrev Reg.LAST_FIRE (i : Nat) : Nat := 0x41c + 0x20 * i
/-- 05_event_neurons_and_beats Table 5.1 R205: ENABLE, RING_SHIFT 3, W_SHIFT 3, NOTICE. -/
abbrev Reg.EV_CFG : Nat := 0x800
/-- 03_tile_anatomy Table 3.11. -/
abbrev Reg.EV_NEURON_BASE : Nat := 0x804
/-- 03_tile_anatomy Table 3.11. -/
abbrev Reg.EV_NEURON_COUNT : Nat := 0x808
/-- 03_tile_anatomy Table 3.11. -/
abbrev Reg.EV_SYN_BASE : Nat := 0x80c
/-- 03_tile_anatomy Table 3.11. -/
abbrev Reg.EV_BEAT : Nat := 0x810
/-- 03_tile_anatomy Table 3.11: a view of the spike queue. -/
abbrev Reg.EV_QUEUE : Nat := 0x814
/-- 03_tile_anatomy Table 3.11, 3.22: ACC_PIN 8. -/
abbrev Reg.MM_CFG : Nat := 0x900
/-- 03_tile_anatomy Table 3.11, 3.22: a view of the matrix queue. -/
abbrev Reg.MM_STATUS : Nat := 0x904
/-- 03_tile_anatomy Table 3.11: a view of the gate queue. -/
abbrev Reg.GP_STATUS : Nat := 0xa04
/-- 03_tile_anatomy Table 3.11: a view of the scan queue. -/
abbrev Reg.SC_STATUS : Nat := 0xb04
/-- 03_tile_anatomy Table 3.11, 3.23: TAP 3, FIRST 12, LAST 12. -/
abbrev Reg.MA_CFG (i : Nat) : Nat := 0xc00 + 0x10 * i
/-- 03_tile_anatomy Table 3.11. -/
abbrev Reg.MA_MAX (i : Nat) : Nat := 0xc04 + 0x10 * i
/-- 03_tile_anatomy Table 3.11. -/
abbrev Reg.MA_SAT (i : Nat) : Nat := 0xc08 + 0x10 * i
/-- 03_tile_anatomy Table 3.11. -/
abbrev Reg.MA_STAMP (i : Nat) : Nat := 0xc0c + 0x10 * i
/-- 03_tile_anatomy Table 3.25: tile counter, saturating. -/
abbrev Reg.STALE_EVENTS : Nat := 0x1000
/-- 03_tile_anatomy Table 3.25: tile counter, saturating. -/
abbrev Reg.POSTED_ERRORS : Nat := 0x1004
/-- 03_tile_anatomy Table 3.25: tile counter, saturating. -/
abbrev Reg.NOTICE_LOST : Nat := 0x1008
/-- 03_tile_anatomy Table 3.25: tile counter, saturating. -/
abbrev Reg.URGENT_DEMOTED : Nat := 0x100c
/-- 03_tile_anatomy Table 3.25: tile counter, saturating. -/
abbrev Reg.UNWRITTEN_READS : Nat := 0x1010
/-- 03_tile_anatomy Table 3.25: tile counter, saturating. -/
abbrev Reg.CORRECTED : Nat := 0x1014
/-- 03_tile_anatomy Table 3.25: tile counter, saturating. -/
abbrev Reg.UCODE_CORRECTED : Nat := 0x1018
/-- 03_tile_anatomy Table 3.25: tile counter, saturating. -/
abbrev Reg.POISON_READS : Nat := 0x101c
/-- 03_tile_anatomy Table 3.25: tile counter, saturating. -/
abbrev Reg.SAT_COUNT : Nat := 0x1020
/-- 03_tile_anatomy Table 3.25: tile counter, saturating. -/
abbrev Reg.CLK_STOPS : Nat := 0x1024
/-- 03_tile_anatomy Table 3.25: tile counter, saturating. -/
abbrev Reg.DROOP_STRETCH : Nat := 0x1028
/-- 03_tile_anatomy Table 3.25: tile counter, saturating. -/
abbrev Reg.STALL_CYCLES : Nat := 0x102c
/-- 03_tile_anatomy Table 3.25: tile counter, saturating. -/
abbrev Reg.POSTS_IN : Nat := 0x1030
/-- 03_tile_anatomy Table 3.25: tile counter, saturating. -/
abbrev Reg.POSTS_OUT : Nat := 0x1034
/-- 03_tile_anatomy Table 3.25: tile counter, saturating. -/
abbrev Reg.SYNC_FIRES : Nat := 0x1038
/-- 03_tile_anatomy Table 3.25: tile counter, saturating. -/
abbrev Reg.CYCLES_C0 : Nat := 0x103c
/-- 03_tile_anatomy Table 3.25: tile counter, saturating. -/
abbrev Reg.CYCLES_ALL : Nat := 0x1040
/-- 03_tile_anatomy Table 3.25: tile counter, saturating. -/
abbrev Reg.DISPATCH_OVF : Nat := 0x1044
/-- 03_tile_anatomy Table 3.11: counter snapshots. -/
abbrev Reg.SNAPSHOT (i : Nat) : Nat := 0x1100 + 0x4 * i
/-- 03_tile_anatomy Table 3.11. -/
abbrev Reg.SNAP_STAMP_LO : Nat := 0x11f0
/-- 03_tile_anatomy Table 3.11. -/
abbrev Reg.SNAP_STAMP_HI : Nat := 0x11f4
/-- 03_tile_anatomy Table 3.12, 3.24. -/
abbrev Reg.T_CMD (i : Nat) : Nat := 0x2000 + 0x800 * i
/-- 03_tile_anatomy Table 3.12, 3.24: ENTRY 11, IMAGE, CLASS 2, FTZ. -/
abbrev Reg.T_CONFIG (i : Nat) : Nat := 0x2004 + 0x800 * i
/-- 03_tile_anatomy Table 3.12, 3.24: STATE 3, PC 11, FAULT 6. -/
abbrev Reg.T_STATUS (i : Nat) : Nat := 0x2008 + 0x800 * i
/-- 03_tile_anatomy Table 3.12, 3.24: OF, UF, IX, IV, DZ. -/
abbrev Reg.T_FLAGS (i : Nat) : Nat := 0x200c + 0x800 * i
/-- 03_tile_anatomy Table 3.12: 16 pending-dispatch bits. -/
abbrev Reg.DISPATCH_PENDING (i : Nat) : Nat := 0x2010 + 0x800 * i
/-- 03_tile_anatomy Table 3.12. -/
abbrev Reg.T_STALL (i : Nat) : Nat := 0x2014 + 0x800 * i
/-- 03_tile_anatomy Table 3.12. -/
abbrev Reg.T_ISSUED (i : Nat) : Nat := 0x2018 + 0x800 * i
/-- 03_tile_anatomy Table 3.12: scalar registers s0 to s15. -/
abbrev Reg.S_REG (i j : Nat) : Nat := 0x2100 + 0x800 * i + 0x4 * j
/-- 03_tile_anatomy Table 3.12: vector registers v0 to v15, 16 lanes. -/
abbrev Reg.V_REG (i j k : Nat) : Nat := 0x2400 + 0x800 * i + 0x40 * j + 0x4 * k
/-- 03_tile_anatomy Table 3.11 R103: microcode store, 2048 words of 64 bits. -/
abbrev Reg.UCODE (i : Nat) : Nat := 0x4000 + 0x4 * i
/-- 03_tile_anatomy Table 3.11 R127: accumulator banks. -/
abbrev Reg.ACC (i j : Nat) : Nat := 0x8000 + 0x800 * i + 0x4 * j
/-- 03_tile_anatomy R129: gate programs. -/
abbrev Reg.GATE_PROG (i j : Nat) : Nat := 0xc000 + 0x40 * i + 0x4 * j
/-- 09_microphone_array_and_listening Table 9.12 R364, 9.7: MATCHED. -/
abbrev Reg.FE_CTRL : Nat := 0x100000
/-- 09_microphone_array_and_listening Table 9.12 R364, 9.13: L_RUN 4, A_RUN 4, CAL_LOADED, CAL_BUSY, CAL_ERR 2, SETTLING 4, MATCHED. -/
abbrev Reg.FE_STATUS : Nat := 0x100004
/-- 09_microphone_array_and_listening Table 9.12 R364, 9.14. -/
abbrev Reg.FE_CMD : Nat := 0x100008
/-- 09_microphone_array_and_listening Table 9.12 R364. -/
abbrev Reg.WAKE_REQ : Nat := 0x10000c
/-- 09_microphone_array_and_listening Table 9.12 R364, 9.3: L_RATE 3, L_EN, A_RATE 3, A_EN, L_FOLLOW, LEDGE, SETTLE 5. -/
abbrev Reg.FE_CLK (i : Nat) : Nat := 0x100010 + 0x4 * i
/-- 09_microphone_array_and_listening Table 9.12 R364. -/
abbrev Reg.FE_DELIV_LO (i : Nat) : Nat := 0x100040 + 0x10 * i
/-- 09_microphone_array_and_listening Table 9.12 R364, 9.5: ADDR_HI 8, EN, FORMAT, SHIFT 4, URGENT (RO). -/
abbrev Reg.FE_DELIV_HI (i : Nat) : Nat := 0x100044 + 0x10 * i
/-- 09_microphone_array_and_listening Table 9.12 R364. -/
abbrev Reg.FE_FEED_LO (i : Nat) : Nat := 0x100048 + 0x10 * i
/-- 09_microphone_array_and_listening Table 9.12 R364, 9.5: ADDR_HI 8, EN. -/
abbrev Reg.FE_FEED_HI (i : Nat) : Nat := 0x10004c + 0x10 * i
/-- 09_microphone_array_and_listening Table 9.12 R364, 9.6: GAIN 16, DELAY 10. -/
abbrev Reg.ALIGN (i : Nat) : Nat := 0x100100 + 0x4 * i
/-- 09_microphone_array_and_listening Table 9.12 R364: bit c of channel c. -/
abbrev Reg.STUCK (i : Nat) : Nat := 0x100200 + 0x4 * i
/-- 09_microphone_array_and_listening Table 9.12 R364: saturating counter. -/
abbrev Reg.FE_DELIV_LOST (i : Nat) : Nat := 0x100210 + 0x4 * i
/-- 09_microphone_array_and_listening Table 9.12 R364: saturating counter. -/
abbrev Reg.FEED_LOST (i : Nat) : Nat := 0x100220 + 0x4 * i
/-- 09_microphone_array_and_listening Table 9.12 R364: saturating counter. -/
abbrev Reg.FE_GAP_SAMPLES (i : Nat) : Nat := 0x100230 + 0x4 * i
/-- 09_microphone_array_and_listening Table 9.12 R364: saturating counter. -/
abbrev Reg.ALIGN_SAT (i : Nat) : Nat := 0x100240 + 0x4 * i
/-- 09_microphone_array_and_listening Table 9.12 R364. -/
abbrev Reg.WAKES : Nat := 0x100250
/-- 09_microphone_array_and_listening Table 9.12 R364. -/
abbrev Reg.WAKES_IGNORED : Nat := 0x100254
/-- 09_microphone_array_and_listening Table 9.12 R364, 9.9: EN, LEN 3, SHIFT 4, DIRECT 2, TILE 8. -/
abbrev Reg.PREROLL_CFG (i : Nat) : Nat := 0x100300 + 0x20 * i
/-- 09_microphone_array_and_listening Table 9.12 R364. -/
abbrev Reg.PREROLL_BASE (i : Nat) : Nat := 0x100304 + 0x20 * i
/-- 09_microphone_array_and_listening Table 9.12 R364. -/
abbrev Reg.PREROLL_HEAD (i : Nat) : Nat := 0x100308 + 0x20 * i
/-- 09_microphone_array_and_listening Table 9.12 R364. -/
abbrev Reg.PREROLL_MARK (i : Nat) : Nat := 0x10030c + 0x20 * i
/-- 09_microphone_array_and_listening Table 9.12 R364. -/
abbrev Reg.PREROLL_MARK_TIME (i : Nat) : Nat := 0x100310 + 0x20 * i
/-- 10_decimation_chains Table 10.6 R397. -/
abbrev Reg.DC_START_LO : Nat := 0x200000
/-- 10_decimation_chains Table 10.6 R397. -/
abbrev Reg.DC_START_HI : Nat := 0x200004
/-- 10_decimation_chains Table 10.6 R397. -/
abbrev Reg.DC_START_FINE : Nat := 0x200008
/-- 10_decimation_chains Table 10.6 R397. -/
abbrev Reg.DC_STOP_LO : Nat := 0x200010
/-- 10_decimation_chains Table 10.6 R397. -/
abbrev Reg.DC_STOP_HI : Nat := 0x200014
/-- 10_decimation_chains Table 10.6 R397. -/
abbrev Reg.DC_STOP_FINE : Nat := 0x200018
/-- 10_decimation_chains Table 10.6 R397. -/
abbrev Reg.RANGE_STEPS : Nat := 0x200020
/-- 10_decimation_chains Table 10.6 R397. -/
abbrev Reg.TH_DROPPED : Nat := 0x200024
/-- 10_decimation_chains Table 10.6 R397. -/
abbrev Reg.TH_EVENTS : Nat := 0x200028
/-- 10_decimation_chains Table 10.6 R397, 10.7: PRESET 3, RATE 3, ORDER 3, RATIO 8, COMP_BANK 3, COMP_TAPS_M1 5. -/
abbrev Reg.CH_CFG0 (i : Nat) : Nat := 0x201000 + 0x10 * i
/-- 10_decimation_chains Table 10.6 R397, 10.8: SH_CIC 5, SH_COMP 5, SH_FAST 5, FAST_EN, WARMUP 12. -/
abbrev Reg.CH_CFG1 (i : Nat) : Nat := 0x201004 + 0x10 * i
/-- 10_decimation_chains Table 10.6 R397, 10.9: SRC 6, EN, PRESET 3, RATE 3, HB 2, FIR_DEC_M1 3, FIR_TAPS_M1 6, FIR_BANK. -/
abbrev Reg.FINE_CFG0 (i : Nat) : Nat := 0x201400 + 0x10 * i
/-- 10_decimation_chains Table 10.6 R397, 10.10: SH_CIC 5, SH_HB1 5, SH_HB2 5, SH_HB3 5, SH_FIR 5, SH_FAST 5, FAST_EN. -/
abbrev Reg.FINE_CFG1 (i : Nat) : Nat := 0x201404 + 0x10 * i
/-- 10_decimation_chains Table 10.6 R397, 10.11: HB1_BANK 2, HB2_BANK 2, HB3_BANK 2, WARMUP 12. -/
abbrev Reg.FINE_CFG2 (i : Nat) : Nat := 0x201408 + 0x10 * i
/-- 10_decimation_chains Table 10.6 R397, 10.12: STATE 2, VALID, SETTLED, FAST_VALID, FINE, RANGE_STEP, CFG_ERR. -/
abbrev Reg.CH_STATUS (i : Nat) : Nat := 0x201800 + 0x10 * i
/-- 10_decimation_chains Table 10.6 R397, 10.12. -/
abbrev Reg.CH_OUT_COUNT (i : Nat) : Nat := 0x201804 + 0x10 * i
/-- 10_decimation_chains Table 10.6 R397, 10.12. -/
abbrev Reg.CH_STEP_AT (i : Nat) : Nat := 0x201808 + 0x10 * i
/-- 10_decimation_chains Table 10.6 R397, 10.12. -/
abbrev Reg.CH_MAXABS (i : Nat) : Nat := 0x20180c + 0x10 * i
/-- 10_decimation_chains Table 10.6 R397, 10.12: STATE 2, VALID, SETTLED, FAST_VALID, FINE, RANGE_STEP, CFG_ERR. -/
abbrev Reg.FINE_STATUS (i : Nat) : Nat := 0x201c00 + 0x10 * i
/-- 10_decimation_chains Table 10.6 R397, 10.12. -/
abbrev Reg.FINE_OUT_COUNT (i : Nat) : Nat := 0x201c04 + 0x10 * i
/-- 10_decimation_chains Table 10.6 R397, 10.12. -/
abbrev Reg.FINE_STEP_AT (i : Nat) : Nat := 0x201c08 + 0x10 * i
/-- 10_decimation_chains Table 10.6 R397, 10.12. -/
abbrev Reg.FINE_MAXABS (i : Nat) : Nat := 0x201c0c + 0x10 * i
/-- 10_decimation_chains Table 10.6 R397, 10.13: EN, MODE, SRC, RISE_POST, FALL_POST, ATTACK 4, RELEASE 4, ABOVE, HOLD 14. -/
abbrev Reg.TH_CTRL (i j : Nat) : Nat := 0x202000 + 0x40 * i + 0x20 * j
/-- 10_decimation_chains Table 10.6 R397, 10.13: 24 bits. -/
abbrev Reg.TH_ON (i j : Nat) : Nat := 0x202004 + 0x40 * i + 0x20 * j
/-- 10_decimation_chains Table 10.6 R397, 10.13: 24 bits. -/
abbrev Reg.TH_OFF (i j : Nat) : Nat := 0x202008 + 0x40 * i + 0x20 * j
/-- 10_decimation_chains Table 10.6 R397, 10.13: NEURON 16, TILE 8, CHIP 4. -/
abbrev Reg.TH_TARGET (i j : Nat) : Nat := 0x20200c + 0x40 * i + 0x20 * j
/-- 10_decimation_chains Table 10.6 R397, 10.13: W_RISE 16, W_FALL 16. -/
abbrev Reg.TH_WEIGHTS (i j : Nat) : Nat := 0x202010 + 0x40 * i + 0x20 * j
/-- 10_decimation_chains Table 10.6 R397, 10.13: DELAY 6. -/
abbrev Reg.TH_DELAY (i j : Nat) : Nat := 0x202014 + 0x40 * i + 0x20 * j
/-- 10_decimation_chains Table 10.6 R397, 10.13: M 24. -/
abbrev Reg.TH_MEASURE (i j : Nat) : Nat := 0x202018 + 0x40 * i + 0x20 * j
/-- 10_decimation_chains Table 10.6 R397, 10.13: EVENTS, saturating. -/
abbrev Reg.TH_EVENTS_N (i j : Nat) : Nat := 0x20201c + 0x40 * i + 0x20 * j
/-- 10_decimation_chains Table 10.6 R397, R375. -/
abbrev Reg.COMP_COEF (i j : Nat) : Nat := 0x204000 + 0x80 * i + 0x4 * j
/-- 10_decimation_chains Table 10.6 R397, R375. -/
abbrev Reg.HB_COEF (i j : Nat) : Nat := 0x204200 + 0x20 * i + 0x4 * j
/-- 10_decimation_chains Table 10.6 R397, R375. -/
abbrev Reg.FIR_COEF (i j : Nat) : Nat := 0x204400 + 0x100 * i + 0x4 * j
/-- 10_decimation_chains Table 10.6 R397. -/
abbrev Reg.SAT (i : Nat) : Nat := 0x205000 + 0x4 * i
/-- 10_decimation_chains Table 10.6 R397. -/
abbrev Reg.FINE_SAT (i : Nat) : Nat := 0x205100 + 0x4 * i
/-- 11_tdm_and_event_sensor_ports Table 11.7 R420, 11.3: EN, FRAMING 2, SLOTS_M1 4, WLEN 2, RATE 3, BCLK_POL, FORMAT, SHIFT 5, TX_EN. -/
abbrev Reg.TDM_CFG (i : Nat) : Nat := 0x300000 + 0x100 * i
/-- 11_tdm_and_event_sensor_ports Table 11.7 R420: STATE 2, RATE_ERR. -/
abbrev Reg.TDM_STATUS (i : Nat) : Nat := 0x300004 + 0x100 * i
/-- 11_tdm_and_event_sensor_ports Table 11.7 R420. -/
abbrev Reg.TDM_DELIV_LO (i : Nat) : Nat := 0x300010 + 0x100 * i
/-- 11_tdm_and_event_sensor_ports Table 11.7 R420, 9.5: ADDR_HI 8, EN, FORMAT, SHIFT 4, URGENT (RO). -/
abbrev Reg.TDM_DELIV_HI (i : Nat) : Nat := 0x300014 + 0x100 * i
/-- 11_tdm_and_event_sensor_ports Table 11.7 R420. -/
abbrev Reg.TX_LO (i : Nat) : Nat := 0x300018 + 0x100 * i
/-- 11_tdm_and_event_sensor_ports Table 11.7 R420. -/
abbrev Reg.TX_HI (i : Nat) : Nat := 0x30001c + 0x100 * i
/-- 11_tdm_and_event_sensor_ports Table 11.7 R420. -/
abbrev Reg.FS_ERR (i : Nat) : Nat := 0x300020 + 0x100 * i
/-- 11_tdm_and_event_sensor_ports Table 11.7 R420. -/
abbrev Reg.TDM_GAP_SAMPLES (i : Nat) : Nat := 0x300024 + 0x100 * i
/-- 11_tdm_and_event_sensor_ports Table 11.7 R420. -/
abbrev Reg.TDM_DELIV_LOST (i : Nat) : Nat := 0x300028 + 0x100 * i
/-- 11_tdm_and_event_sensor_ports Table 11.7 R420. -/
abbrev Reg.TX_UNDERRUN (i : Nat) : Nat := 0x30002c + 0x100 * i
/-- 11_tdm_and_event_sensor_ports Table 11.7 R420. -/
abbrev Reg.HOST_FRAME (i : Nat) : Nat := 0x300400 + 0x4 * i
/-- 11_tdm_and_event_sensor_ports Table 11.7 R420. -/
abbrev Reg.HOST_EARLY : Nat := 0x300440
/-- 11_tdm_and_event_sensor_ports Table 11.7 R420: EN, RATE 8, HOLD_LIMIT 16. -/
abbrev Reg.AE_CFG (i : Nat) : Nat := 0x400000 + 0x40 * i
/-- 11_tdm_and_event_sensor_ports Table 11.7 R420: ACK_HELD, urgent depth 5, normal depth 5: a view of the queues. -/
abbrev Reg.AE_STATUS (i : Nat) : Nat := 0x400004 + 0x40 * i
/-- 11_tdm_and_event_sensor_ports Table 11.7 R420. -/
abbrev Reg.AE_EVENTS (i : Nat) : Nat := 0x400010 + 0x40 * i
/-- 11_tdm_and_event_sensor_ports Table 11.7 R420. -/
abbrev Reg.AE_DROPPED (i : Nat) : Nat := 0x400014 + 0x40 * i
/-- 11_tdm_and_event_sensor_ports Table 11.7 R420. -/
abbrev Reg.AE_UNMAPPED (i : Nat) : Nat := 0x400018 + 0x40 * i
/-- 11_tdm_and_event_sensor_ports Table 11.7 R420, 11.6: NEURON_BASE 16, TILE 8, CHIP 4, EN, POL. -/
abbrev Reg.MAP_ENTRY_LO (i j : Nat) : Nat := 0x401000 + 0x800 * i + 0x8 * j
/-- 11_tdm_and_event_sensor_ports Table 11.7 R420, 11.6: DELAY 6, MAP 8, WEIGHT 16. -/
abbrev Reg.MAP_ENTRY_HI (i j : Nat) : Nat := 0x401004 + 0x800 * i + 0x8 * j
/-- 08_streams_contracts_and_deadlines Table 8.9 R311: LIMIT0 8, LIMIT12 8, BREAK_AFTER 8. -/
abbrev Reg.CU_CONFIG : Nat := 0x500000
/-- 08_streams_contracts_and_deadlines Table 8.9 R311: a view of the stream table and the swap queue. -/
abbrev Reg.CU_ACTIVE : Nat := 0x500004
/-- 08_streams_contracts_and_deadlines Table 8.9 R311. -/
abbrev Reg.RECORDS : Nat := 0x500010
/-- 08_streams_contracts_and_deadlines Table 8.9 R311. -/
abbrev Reg.MISSES : Nat := 0x500014
/-- 08_streams_contracts_and_deadlines Table 8.9 R311. -/
abbrev Reg.LATE_DISCARDS : Nat := 0x500018
/-- 08_streams_contracts_and_deadlines Table 8.9 R311. -/
abbrev Reg.RECORDS_LOST : Nat := 0x50001c
/-- 08_streams_contracts_and_deadlines Table 8.9 R311. -/
abbrev Reg.REFUSALS : Nat := 0x500020
/-- 08_streams_contracts_and_deadlines Table 8.9 R311. -/
abbrev Reg.BREAKS : Nat := 0x500024
/-- 08_streams_contracts_and_deadlines Table 8.9 R311. -/
abbrev Reg.TILE_BASE (i : Nat) : Nat := 0x500400 + 0x4 * i
/-- 08_streams_contracts_and_deadlines Table 8.9 R311: a view of the admitted demand. -/
abbrev Reg.LOAD0 (i : Nat) : Nat := 0x500800 + 0x4 * i
/-- 08_streams_contracts_and_deadlines Table 8.9 R311: a view of the admitted demand. -/
abbrev Reg.LOAD12 (i : Nat) : Nat := 0x500c00 + 0x4 * i
/-- 08_streams_contracts_and_deadlines Table 8.9 R311, 8.11: PROFILE[p]. -/
abbrev Reg.PROF_HOME_CYCLES (i : Nat) : Nat := 0x501000 + 0x20 * i
/-- 08_streams_contracts_and_deadlines Table 8.9 R311, 8.11: PROFILE[p]. -/
abbrev Reg.PROF_CP (i : Nat) : Nat := 0x501004 + 0x20 * i
/-- 08_streams_contracts_and_deadlines Table 8.9 R311, 8.11: PROFILE[p]. -/
abbrev Reg.PROF_EXPERT_CYCLES (i : Nat) : Nat := 0x501008 + 0x20 * i
/-- 08_streams_contracts_and_deadlines Table 8.9 R311, 8.11: PROFILE[p]. -/
abbrev Reg.PROF_EXPERT_CP (i : Nat) : Nat := 0x50100c + 0x20 * i
/-- 08_streams_contracts_and_deadlines Table 8.9 R311, 8.11: PROFILE[p]. -/
abbrev Reg.PROF_JOBS_BEATS (i : Nat) : Nat := 0x501010 + 0x20 * i
/-- 08_streams_contracts_and_deadlines Table 8.9 R311, 8.11: PROFILE[p]. -/
abbrev Reg.PROF_CLAY_BYTES (i : Nat) : Nat := 0x501014 + 0x20 * i
/-- 08_streams_contracts_and_deadlines Table 8.9 R311, 8.11: PROFILE[p]. -/
abbrev Reg.PROF_TABLE_BYTES (i : Nat) : Nat := 0x501018 + 0x20 * i
/-- 08_streams_contracts_and_deadlines Table 8.9 R311, 8.11: PROFILE[p]. -/
abbrev Reg.PROF_LINK_BYTES (i : Nat) : Nat := 0x50101c + 0x20 * i
/-- 08_streams_contracts_and_deadlines Table 8.9 R311: a view of STAT[e].BROKEN. -/
abbrev Reg.BROKEN_MAP (i : Nat) : Nat := 0x502000 + 0x4 * i
/-- 08_streams_contracts_and_deadlines Table 8.9 R311, R321: record window. -/
abbrev Reg.RECORD_WIN (i : Nat) : Nat := 0x510000 + 0x20 * i
/-- 08_streams_contracts_and_deadlines Table 8.9 R311. -/
abbrev Reg.HINT_WIN (i : Nat) : Nat := 0x520000 + 0x8 * i
/-- 08_streams_contracts_and_deadlines Table 8.9 R311, R326: device result ring, 1024 slots of 32 B. -/
abbrev Reg.DEV_RING (i j : Nat) : Nat := 0x580000 + 0x20 * i + 0x4 * j
/-- 08_streams_contracts_and_deadlines Table 8.1 R304: 64-byte stream descriptors, 16 words. -/
abbrev Reg.DESC (i j : Nat) : Nat := 0x600000 + 0x40 * i + 0x4 * j
/-- 08_streams_contracts_and_deadlines Table 8.2: stream status, 4 words: STATE 3, BROKEN, BROKEN_REASON 8, BROKEN_CAUSES 16; NEXT_SEQ; MISS_RUN 16,
LOST 16; LAST_LAT 16, MAX_LAT 16. -/
abbrev Reg.STAT (i j : Nat) : Nat := 0x620000 + 0x10 * i + 0x4 * j
/-- 07_experts_frames_and_tables Table 7.2, 7.3: GEN 16, EXPERTS 7, VALID; COVERED is a view. -/
abbrev Reg.GEN_SLOT (i : Nat) : Nat := 0x700000 + 0x4 * i
/-- 07_experts_frames_and_tables Table 7.2: wraps. -/
abbrev Reg.DIR_VERSION : Nat := 0x700008
/-- 07_experts_frames_and_tables Table 7.2, 7.6: a view of RESOLVE. -/
abbrev Reg.DIR_STATUS : Nat := 0x70000c
/-- 07_experts_frames_and_tables Table 7.2. -/
abbrev Reg.RESOLVE_NONE : Nat := 0x700010
/-- 07_experts_frames_and_tables Table 7.2, 7.4: CHIP 4, TILE 8, RING_LINE 12, GROUP_M1 4, VALID. -/
abbrev Reg.INSTANCE_LO (i : Nat) : Nat := 0x701000 + 0x8 * i
/-- 07_experts_frames_and_tables Table 7.2, 7.4: reserved, reads 0. -/
abbrev Reg.INSTANCE_HI (i : Nat) : Nat := 0x701004 + 0x8 * i
/-- 07_experts_frames_and_tables Table 7.2, 7.5. -/
abbrev Reg.RESOLVE_LO (i : Nat) : Nat := 0x702000 + 0x8 * i
/-- 07_experts_frames_and_tables Table 7.2, 7.5: HOPS 2. -/
abbrev Reg.RESOLVE_HI (i : Nat) : Nat := 0x702004 + 0x8 * i
/-- 02_fabric_addresses_and_remote_operations Table 2.4, 2.5 R34: PHYS 9, EPOCH 8, STATE 3. -/
abbrev Reg.TILE_MAP (i : Nat) : Nat := 0x800000 + 0x4 * i
/-- 02_fabric_addresses_and_remote_operations Table 2.4: 4096 bytes, entry of chip c, tile t. -/
abbrev Reg.EPOCH_TABLE (i : Nat) : Nat := 0x801000 + 0x4 * i
/-- 02_fabric_addresses_and_remote_operations Table 2.4, 2.6. -/
abbrev Reg.MAP_CMD : Nat := 0x802000
/-- 02_fabric_addresses_and_remote_operations Table 2.4, 2.7: LOGICAL 8, PHYS 9. -/
abbrev Reg.MAP_ARG : Nat := 0x802004
/-- 02_fabric_addresses_and_remote_operations Table 2.4, 2.8: BUSY, ERR 3, LAST_EPOCH 8. -/
abbrev Reg.MAP_STATUS : Nat := 0x802008
/-- 02_fabric_addresses_and_remote_operations Table 2.4. -/
abbrev Reg.XLATE_ERRORS : Nat := 0x80200c
/-- 02_fabric_addresses_and_remote_operations Table 2.4. -/
abbrev Reg.BLOCK_ERRORS : Nat := 0x802010
/-- 16_clap_snapshots_and_counters Table 16.3, 16.4: LEVEL, DRIVING, STUCK. -/
abbrev Reg.NET_STATUS : Nat := 0x900014
/-- 16_clap_snapshots_and_counters Table 16.3. -/
abbrev Reg.CAUSE_COUNT (i : Nat) : Nat := 0x900020 + 0x4 * i
/-- 16_clap_snapshots_and_counters Table 16.3. -/
abbrev Reg.NET_IGNORED : Nat := 0x900040
/-- 16_clap_snapshots_and_counters Table 16.3, 16.5: snapshot area 0x1_0000 to 0x2_7FFF. -/
abbrev Reg.SNAP_AREA (i : Nat) : Nat := 0x910000 + 0x4 * i
/-- 18_keys_tocsin_and_life_cycle Table 18.12, 18.13: ENTROPY_OK, ERASING held; slot presence, DERIVE_EN, LOCKED, UNLOCK_SET are views. -/
abbrev Reg.SEC_STATUS : Nat := 0xb00000
/-- 18_keys_tocsin_and_life_cycle Table 18.12: a view of key slot 1. -/
abbrev Reg.SITE_GROUP : Nat := 0xb00004
/-- 18_keys_tocsin_and_life_cycle Table 18.12. -/
abbrev Reg.KEY_CMD : Nat := 0xb00008
/-- 18_keys_tocsin_and_life_cycle Table 18.12. -/
abbrev Reg.KEY_ARG : Nat := 0xb0000c
/-- 18_keys_tocsin_and_life_cycle Table 18.12: BUSY, ERR 3. -/
abbrev Reg.KEY_STATUS : Nat := 0xb00010
/-- 18_keys_tocsin_and_life_cycle Table 18.12: held unreadable in the key input register. -/
abbrev Reg.KEY_IN (i : Nat) : Nat := 0xb00020 + 0x4 * i
/-- 18_keys_tocsin_and_life_cycle Table 18.12. -/
abbrev Reg.LC_CHALLENGE (i : Nat) : Nat := 0xb00040 + 0x4 * i
/-- 18_keys_tocsin_and_life_cycle Table 18.12: 3 bits. -/
abbrev Reg.LC_RESULT : Nat := 0xb00060
/-- 18_keys_tocsin_and_life_cycle Table 18.12: a view of the fuses. -/
abbrev Reg.LC_FUSES : Nat := 0xb00064
/-- 18_keys_tocsin_and_life_cycle Table 18.12. -/
abbrev Reg.IMG_MEASURE (i : Nat) : Nat := 0xb00080 + 0x4 * i
/-- 18_keys_tocsin_and_life_cycle Table 18.12, 18.14: SUPPLY_OK 4, REFCLK_OK, TEMP_OK, SHIELD_OK, FUSE_OK, TEMP_MAX 16. -/
abbrev Reg.MON_STATUS : Nat := 0xb000a0
/-- 18_keys_tocsin_and_life_cycle Table 18.12. -/
abbrev Reg.TOCSIN_EVENTS (i : Nat) : Nat := 0xb00100 + 0x4 * i
/-- 18_keys_tocsin_and_life_cycle Table 18.12. -/
abbrev Reg.UNLOCK_ATTEMPTS : Nat := 0xb0011c
/-- 18_keys_tocsin_and_life_cycle Table 18.12. -/
abbrev Reg.ENTROPY_FAILS : Nat := 0xb00120
/-- 18_keys_tocsin_and_life_cycle Table 18.12. -/
abbrev Reg.AUDIT_LOST : Nat := 0xb00124
/-- 18_keys_tocsin_and_life_cycle Table 18.12. -/
abbrev Reg.KEY_OPS : Nat := 0xb00128
/-- 20_management_core Table 20.8, 20.9: CORE 2, LOADING, LOAD_ENC, LOAD_GEN 16, CMD_RUNNING. -/
abbrev Reg.MB_STATUS : Nat := 0xc00000
/-- 20_management_core Table 20.8: 2 bits. -/
abbrev Reg.RESTART_CAUSE : Nat := 0xc00004
/-- 20_management_core Table 20.8. -/
abbrev Reg.RESTART_TIME : Nat := 0xc00008
/-- 20_management_core Table 20.8: a view of the log queue. -/
abbrev Reg.LOG_STATUS : Nat := 0xc0000c
/-- 20_management_core Table 20.8. -/
abbrev Reg.COMMANDS : Nat := 0xc00100
/-- 20_management_core Table 20.8. -/
abbrev Reg.PREEMPTIONS : Nat := 0xc00104
/-- 20_management_core Table 20.8. -/
abbrev Reg.DEFER_MS : Nat := 0xc00108
/-- 20_management_core Table 20.8. -/
abbrev Reg.LOG_COALESCED : Nat := 0xc0010c
/-- 20_management_core Table 20.8. -/
abbrev Reg.LOG_LOST : Nat := 0xc00110
/-- 20_management_core Table 20.8. -/
abbrev Reg.WDOG_RESTARTS : Nat := 0xc00114
/-- 20_management_core Table 20.8. -/
abbrev Reg.LOADS_FAILED : Nat := 0xc00118
/-- 20_management_core Table 20.8, R510. -/
abbrev Reg.TILE_EVENT (i : Nat) : Nat := 0xc08000 + 0x4 * i
/-- 20_management_core Table 20.8: parameter pages. -/
abbrev Reg.PARAM (i j : Nat) : Nat := 0xc10000 + 0x800 * i + 0x4 * j
/-- 20_management_core Table 20.8: result pages. -/
abbrev Reg.RESULT (i j : Nat) : Nat := 0xc14000 + 0x800 * i + 0x4 * j
/-- 19_clock_islands_power_and_bring_up Table 19.8, 19.9: VID_EN, WAKE_MODE 2, WAKE_PEERS, ENGINE_GATE. -/
abbrev Reg.PWR_CFG : Nat := 0xd00000
/-- 19_clock_islands_power_and_bring_up Table 19.8, 19.10: ACTIVITY 7, GUARD 4, VLEVEL 2, VLEVEL_HOLD. -/
abbrev Reg.PWR_ACT : Nat := 0xd00004
/-- 19_clock_islands_power_and_bring_up Table 19.8: BASE32K 6, EN. -/
abbrev Reg.SHADOW : Nat := 0xd00008
/-- 19_clock_islands_power_and_bring_up Table 19.8: LIMIT 8. -/
abbrev Reg.DROOP_CFG : Nat := 0xd0000c
/-- 19_clock_islands_power_and_bring_up Table 19.8: 16 bits. -/
abbrev Reg.FLOOR_EST : Nat := 0xd00010
/-- 19_clock_islands_power_and_bring_up Table 19.8. -/
abbrev Reg.MODE_CHANGES : Nat := 0xd00100
/-- 19_clock_islands_power_and_bring_up Table 19.8. -/
abbrev Reg.LISTEN_ENTRIES : Nat := 0xd00104
/-- 19_clock_islands_power_and_bring_up Table 19.8. -/
abbrev Reg.WAKES_DONE : Nat := 0xd00108
/-- 19_clock_islands_power_and_bring_up Table 19.8. -/
abbrev Reg.LISTEN_HALTS : Nat := 0xd0010c
/-- 19_clock_islands_power_and_bring_up Table 19.8. -/
abbrev Reg.GATED_DROPS : Nat := 0xd00110
/-- 19_clock_islands_power_and_bring_up Table 19.8. -/
abbrev Reg.LIMIT_STEPS : Nat := 0xd00114
/-- 19_clock_islands_power_and_bring_up Table 19.8. -/
abbrev Reg.DROOP_LOWERS : Nat := 0xd00118
/-- 19_clock_islands_power_and_bring_up Table 19.8, 19.11: ADMIT_MHZ 10, CAP_MHZ 10, RUN_MHZ 10. -/
abbrev Reg.TILE_F (i : Nat) : Nat := 0xd01000 + 0x4 * i
/-- 19_clock_islands_power_and_bring_up Table 19.8: CAL[p][v], four uint16. -/
abbrev Reg.CAL (i j : Nat) : Nat := 0xd02000 + 0x8 * i + 0x4 * j
/-- 19_clock_islands_power_and_bring_up Table 19.8, 19.12: LOCKED, SYNC_OK, ARMED, SYNC_ERR, OFFSET 16; MASTER is a view of CHIP_ID. -/
abbrev Reg.TIME_STATUS : Nat := 0x1000000
/-- 19_clock_islands_power_and_bring_up Table 19.8. -/
abbrev Reg.TIME_TRIM : Nat := 0x1000004
/-- 19_clock_islands_power_and_bring_up Table 19.8. -/
abbrev Reg.TIME_SET_LO : Nat := 0x1000008
/-- 19_clock_islands_power_and_bring_up Table 19.8. -/
abbrev Reg.TIME_SET_HI : Nat := 0x100000c
/-- 19_clock_islands_power_and_bring_up Table 19.8. -/
abbrev Reg.TIME_CMD : Nat := 0x1000010
/-- 19_clock_islands_power_and_bring_up Table 19.8. -/
abbrev Reg.SYNC_MISSED : Nat := 0x1000100
/-- 19_clock_islands_power_and_bring_up Table 19.8. -/
abbrev Reg.SYNC_ERRS : Nat := 0x1000104
/-- 15_elvind_links_and_multichip_boards Table 15.6: REV_MAX 4, REV_MIN 4. -/
abbrev Reg.LINK_ID : Nat := 0xe00000
/-- 15_elvind_links_and_multichip_boards Table 15.6: LINK_TIMEOUT 16. -/
abbrev Reg.ROUTE_CFG : Nat := 0xe00004
/-- 15_elvind_links_and_multichip_boards Table 15.6: FENCING: a view of the fence. -/
abbrev Reg.ROUTE_STATUS : Nat := 0xe00008
/-- 15_elvind_links_and_multichip_boards Table 15.6. -/
abbrev Reg.LINK_MAP (i : Nat) : Nat := 0xe00010 + 0x4 * i
/-- 15_elvind_links_and_multichip_boards Table 15.6. -/
abbrev Reg.LATE_RESPONSES : Nat := 0xe00020
/-- 15_elvind_links_and_multichip_boards Table 15.6. -/
abbrev Reg.LINK_FAILED_OPS : Nat := 0xe00024
/-- 15_elvind_links_and_multichip_boards Table 15.6. -/
abbrev Reg.ROUTE_FENCES : Nat := 0xe00028
/-- 15_elvind_links_and_multichip_boards Table 15.6, 15.7: P0 3, V0, H0 2, P1 3, V1, H1 2, P2 3, V2, H2 2; SEL 3, FOUND, HOPS 2. -/
abbrev Reg.ROUTE (i : Nat) : Nat := 0xe00100 + 0x4 * i
/-- 15_elvind_links_and_multichip_boards Table 15.6, 15.8: EN, AUTO, TX_EQ 2, SPARE_EN. -/
abbrev Reg.LINK_CFG (i : Nat) : Nat := 0xe01000 + 0x100 * i
/-- 15_elvind_links_and_multichip_boards Table 15.6. -/
abbrev Reg.LINK_CMD (i : Nat) : Nat := 0xe01004 + 0x100 * i
/-- 15_elvind_links_and_multichip_boards Table 15.6, 15.9: STATE 3, PEER_CHIP 4, PEER_PORT 3, REV 4, PEER_REV 4, CAUSE 3, TX_SUB 3, TX_SUB_ON, RX_SUB
3, RX_SUB_ON. -/
abbrev Reg.LINK_STATUS (i : Nat) : Nat := 0xe01008 + 0x100 * i
/-- 15_elvind_links_and_multichip_boards Table 15.6, 15.10: RX_LOCK 5, RX_FAILED 5, ACTIVE 5. -/
abbrev Reg.LANE_STATUS (i : Nat) : Nat := 0xe0100c + 0x100 * i
/-- 15_elvind_links_and_multichip_boards Table 15.6. -/
abbrev Reg.LINK_SKEW (i : Nat) : Nat := 0xe01010 + 0x100 * i
/-- 15_elvind_links_and_multichip_boards Table 15.6. -/
abbrev Reg.RETRIES (i : Nat) : Nat := 0xe01020 + 0x100 * i
/-- 15_elvind_links_and_multichip_boards Table 15.6. -/
abbrev Reg.CRC_ERRORS (i : Nat) : Nat := 0xe01024 + 0x100 * i
/-- 15_elvind_links_and_multichip_boards Table 15.6. -/
abbrev Reg.SUBSTITUTIONS (i : Nat) : Nat := 0xe01028 + 0x100 * i
/-- 15_elvind_links_and_multichip_boards Table 15.6. -/
abbrev Reg.DOWN_EVENTS (i : Nat) : Nat := 0xe0102c + 0x100 * i
/-- 15_elvind_links_and_multichip_boards Table 15.6. -/
abbrev Reg.TX_FLITS (i : Nat) : Nat := 0xe01030 + 0x100 * i
/-- 15_elvind_links_and_multichip_boards Table 15.6. -/
abbrev Reg.RX_FLITS (i : Nat) : Nat := 0xe01034 + 0x100 * i
/-- 15_elvind_links_and_multichip_boards Table 15.6. -/
abbrev Reg.LINK_REFUSALS (i : Nat) : Nat := 0xe01038 + 0x100 * i
/-- 15_elvind_links_and_multichip_boards Table 15.6. -/
abbrev Reg.CREDIT_WAITS (i j : Nat) : Nat := 0xe01040 + 0x100 * i + 0x4 * j
/-- 17_reserve_capacity_and_self_test Table 17.9, 17.10: EN, PERIOD_H 8, SLICE_US 11. -/
abbrev Reg.PEAL_CFG : Nat := 0xf00000
/-- 17_reserve_capacity_and_self_test Table 17.9: ROW_EN 16. -/
abbrev Reg.PEAL_ROWS : Nat := 0xf00004
/-- 17_reserve_capacity_and_self_test Table 17.9: TESTING 16, SUSPENDED. -/
abbrev Reg.PEAL_STATUS : Nat := 0xf00008
/-- 17_reserve_capacity_and_self_test Table 17.9. -/
abbrev Reg.BIST_CMD : Nat := 0xf0000c
/-- 17_reserve_capacity_and_self_test Table 17.9, 17.11: PHYS 9, ROW 4, USE_SEED. -/
abbrev Reg.BIST_ARG : Nat := 0xf00010
/-- 17_reserve_capacity_and_self_test Table 17.9, 17.12: BUSY, ERR 3, PASS. -/
abbrev Reg.BIST_STATUS : Nat := 0xf00014
/-- 17_reserve_capacity_and_self_test Table 17.9. -/
abbrev Reg.BIST_SEED : Nat := 0xf00018
/-- 17_reserve_capacity_and_self_test Table 17.9, R600. -/
abbrev Reg.BIST_SIGNATURE : Nat := 0xf0001c
/-- 17_reserve_capacity_and_self_test Table 17.9: chip blocks 16, ports 8. -/
abbrev Reg.BIST_BLOCKS : Nat := 0xf00020
/-- 17_reserve_capacity_and_self_test Table 17.9: wraps. -/
abbrev Reg.REPAIR_HEAD : Nat := 0xf00024
/-- 17_reserve_capacity_and_self_test Table 17.9, R593. -/
abbrev Reg.REPAIR_TAIL : Nat := 0xf00028
/-- 17_reserve_capacity_and_self_test Table 17.9. -/
abbrev Reg.PEAL_STEPS : Nat := 0xf00040
/-- 17_reserve_capacity_and_self_test Table 17.9. -/
abbrev Reg.PEAL_ABORTS : Nat := 0xf00044
/-- 17_reserve_capacity_and_self_test Table 17.9. -/
abbrev Reg.LBIST_FAILS : Nat := 0xf00048
/-- 17_reserve_capacity_and_self_test Table 17.9. -/
abbrev Reg.REPAIRS : Nat := 0xf0004c
/-- 17_reserve_capacity_and_self_test Table 17.9. -/
abbrev Reg.TILES_RETIRED : Nat := 0xf00050
/-- 17_reserve_capacity_and_self_test Table 17.9. -/
abbrev Reg.TAKEOVERS : Nat := 0xf00054
/-- 17_reserve_capacity_and_self_test Table 17.9. -/
abbrev Reg.REPAIR_LOST : Nat := 0xf00058
/-- 17_reserve_capacity_and_self_test Table 17.9, 17.13: FREE_COL 5, HAS_FREE, NEXT_COL 5, RETIRED_N 5. -/
abbrev Reg.ROW_STATUS (i : Nat) : Nat := 0xf00100 + 0x4 * i
/-- 17_reserve_capacity_and_self_test Table 17.9, 17.14: STATE 2, UNTESTED, OSC_SPARE, CAUSE 4, REPAIRS 5, CLAY_SPARED. -/
abbrev Reg.PHYS_STATUS (i : Nat) : Nat := 0xf00200 + 0x4 * i
/-- 17_reserve_capacity_and_self_test Table 17.9, 17.3: repair ring, 64 entries of 32 B. -/
abbrev Reg.REPAIR (i j : Nat) : Nat := 0xf01000 + 0x20 * i + 0x4 * j
/-- 12_clay_tiers_and_memory_integrity Table 12.5, 12.6: CTX_UNITS 6, CTX_UNWR_ERR, TBL_UNWR_ERR. -/
abbrev Reg.POOL_CFG : Nat := 0xf80000
/-- 12_clay_tiers_and_memory_integrity Table 12.5, 12.7: EN, PERIOD_H 8, CORR_LIMIT 8. -/
abbrev Reg.SCRUB_CFG : Nat := 0xf80004
/-- 12_clay_tiers_and_memory_integrity Table 12.5, 12.8: TILE 8, SPACE, LINE 15. -/
abbrev Reg.SCRUB_STATUS : Nat := 0xf80008
/-- 12_clay_tiers_and_memory_integrity Table 12.5, 12.9: IDLE_US 16, HOLD. -/
abbrev Reg.RET_CFG : Nat := 0xf8000c
/-- 12_clay_tiers_and_memory_integrity Table 12.5: wraps. -/
abbrev Reg.STALE_HEAD : Nat := 0xf80010
/-- 12_clay_tiers_and_memory_integrity Table 12.5, R444: written by the guarded STALE_TAIL_WRITE. -/
abbrev Reg.STALE_TAIL : Nat := 0xf80014
/-- 12_clay_tiers_and_memory_integrity Table 12.5. -/
abbrev Reg.SCRUB_PASSES : Nat := 0xf80020
/-- 12_clay_tiers_and_memory_integrity Table 12.5. -/
abbrev Reg.SCRUB_CORRECTED : Nat := 0xf80024
/-- 12_clay_tiers_and_memory_integrity Table 12.5. -/
abbrev Reg.POISONED_LINES : Nat := 0xf80028
/-- 12_clay_tiers_and_memory_integrity Table 12.5. -/
abbrev Reg.CONTEXT_RESETS : Nat := 0xf8002c
/-- 12_clay_tiers_and_memory_integrity Table 12.5. -/
abbrev Reg.STALE_LOST : Nat := 0xf80030
/-- 12_clay_tiers_and_memory_integrity Table 12.5. -/
abbrev Reg.BANK_SPARES : Nat := 0xf80034
/-- 12_clay_tiers_and_memory_integrity Table 12.5. -/
abbrev Reg.COLUMN_FAULTS : Nat := 0xf80038
/-- 12_clay_tiers_and_memory_integrity Table 12.5. -/
abbrev Reg.META_ERRORS : Nat := 0xf8003c
/-- 12_clay_tiers_and_memory_integrity Table 12.5, 12.4: stale ring, 64 entries of 16 B. -/
abbrev Reg.STALE (i j : Nat) : Nat := 0xf81000 + 0x10 * i + 0x4 * j
/-- 12_clay_tiers_and_memory_integrity Table 12.5, 12.10: VALID, SPACE, CLASS 2, UNWR_ERR. -/
abbrev Reg.REGION_LO (i j : Nat) : Nat := 0xf84000 + 0x40 * i + 0x8 * j
/-- 12_clay_tiers_and_memory_integrity Table 12.5, 12.10: FIRST 15, LAST 15. -/
abbrev Reg.REGION_HI (i j : Nat) : Nat := 0xf84004 + 0x40 * i + 0x8 * j
/-- 12_clay_tiers_and_memory_integrity Table 12.5, 12.11: FAULT, FAULT_CAUSE 2, SPARED, SPARED_BANK 4, FAILED_BANK 4. -/
abbrev Reg.COL_STATUS (i : Nat) : Nat := 0xf88000 + 0x10 * i
/-- 12_clay_tiers_and_memory_integrity Table 12.5. -/
abbrev Reg.COL_CORRECTED (i : Nat) : Nat := 0xf88004 + 0x10 * i
/-- 12_clay_tiers_and_memory_integrity Table 12.5. -/
abbrev Reg.COL_POISONED (i : Nat) : Nat := 0xf88008 + 0x10 * i

/-! ### Descriptors -/

/-- One register or array of registers: where it starts, its index ranges (count, stride), whether it is read-only as a whole, its
bits that a write sets, that a 1 clears, and that a read clears, and its reset value. -/
structure RegRow where
  base  : Nat
  dims  : List (Nat × Nat)
  ro    : Bool
  rw    : Nat
  w1c   : Nat
  rc    : Nat
  reset : Nat

/-- Whether a distance from a row's base is one of its registers. -/
def RegRow.hits : List (Nat × Nat) → Nat → Bool
  | [], d => d == 0
  | (n, st) :: r, d => d / st < n && RegRow.hits r (d % st)

/-- Descriptor rows of the host bus. -/
def regRowsHosta : List RegRow := [
  ⟨0x0, [], true, 0x0, 0x0, 0x0, 0x5d647ea1⟩,
  ⟨0x4, [], true, 0x0, 0x0, 0x0, 0x0⟩,
  ⟨0x8, [], true, 0x0, 0x0, 0x0, 0x0⟩,
  ⟨0xc, [], false, 0xff01, 0x0, 0x0, 0x100⟩,
  ⟨0x10, [], true, 0x0, 0x0, 0x0, 0x0⟩,
  ⟨0x14, [], false, 0xfffff, 0x0, 0x0, 0x0⟩,
  ⟨0x18, [], false, 0x0, 0x0, 0x0, 0x0⟩,
  ⟨0x1c, [], false, 0xffffffff, 0x0, 0x0, 0x0⟩,
  ⟨0x20, [], false, 0xff, 0x0, 0x0, 0x0⟩,
  ⟨0x24, [], false, 0x0, 0x0, 0x0, 0x0⟩,
  ⟨0x28, [], false, 0x3f, 0x0, 0x0, 0x2⟩,
  ⟨0x2c, [], false, 0x0, 0x1800000, 0x0, 0x100000⟩,
  ⟨0x30, [], false, 0xffffffff, 0x0, 0x0, 0x0⟩,
  ⟨0x34, [], false, 0xff, 0x0, 0x0, 0x0⟩,
  ⟨0x38, [], false, 0xffffffff, 0x0, 0x0, 0x0⟩,
  ⟨0x3c, [], false, 0xffffffff, 0x0, 0x0, 0x0⟩,
  ⟨0x40, [], false, 0x0, 0x0, 0x0, 0x0⟩,
  ⟨0x44, [], true, 0x0, 0x0, 0x0, 0x0⟩,
  ⟨0x48, [], true, 0x0, 0x0, 0x0, 0x0⟩,
  ⟨0x4c, [], true, 0x0, 0x0, 0x0, 0x0⟩,
  ⟨0x50, [], true, 0x0, 0x0, 0x0, 0x0⟩,
  ⟨0x54, [], false, 0x7f000014, 0x0, 0x0, 0x7f000010⟩,
  ⟨0x58, [], true, 0x0, 0x0, 0x0, 0x0⟩,
  ⟨0x5c, [], true, 0x0, 0x0, 0x0, 0x0⟩]
/-- Descriptor rows of the host bus. -/
def regRowsHostb : List RegRow := [
  ⟨0x60, [], true, 0x0, 0x0, 0x0, 0x0⟩,
  ⟨0x64, [], true, 0x0, 0x0, 0x0, 0x0⟩,
  ⟨0x68, [], true, 0x0, 0x0, 0x0, 0x0⟩,
  ⟨0x6c, [], false, 0x0, 0x0, 0x0, 0x0⟩,
  ⟨0x70, [], false, 0x0, 0x0, 0x0, 0x0⟩,
  ⟨0x74, [], false, 0xffffffff, 0x0, 0x0, 0x0⟩,
  ⟨0x78, [], true, 0x0, 0x0, 0x0, 0x0⟩,
  ⟨0x7c, [], false, 0x0, 0x0, 0x0, 0x0⟩,
  ⟨0x80, [], false, 0xffffffff, 0x0, 0x0, 0x0⟩,
  ⟨0x84, [], false, 0x0, 0x0, 0x0, 0x0⟩,
  ⟨0x88, [], true, 0x0, 0x0, 0x0, 0x8000000⟩,
  ⟨0x8c, [], false, 0x0, 0x0, 0x0, 0x1⟩,
  ⟨0x90, [], true, 0x0, 0x0, 0x0, 0x0⟩,
  ⟨0x94, [], false, 0x0, 0x0, 0x0, 0x0⟩,
  ⟨0x98, [], false, 0x0, 0x7f, 0x0, 0x0⟩,
  ⟨0x9c, [], false, 0x0, 0x0, 0x0, 0x0⟩,
  ⟨0xa0, [], false, 0x10, 0x0, 0x0, 0x12⟩,
  ⟨0xa4, [], false, 0x0, 0x80, 0x0, 0x2⟩,
  ⟨0xa8, [], false, 0xfff, 0x0, 0x0, 0x9c4⟩,
  ⟨0xac, [], false, 0x0, 0x0, 0x0, 0x0⟩,
  ⟨0xb0, [], false, 0x0, 0x0, 0x0, 0x0⟩,
  ⟨0xb4, [], false, 0x0, 0x20000, 0x0, 0x0⟩,
  ⟨0xb8, [], false, 0x1ff00ff, 0x0, 0x0, 0x0⟩,
  ⟨0xbc, [], true, 0x0, 0x0, 0x0, 0x0⟩]
/-- Descriptor rows of tile control space. -/
def regRowsTilea : List RegRow := [
  ⟨0x0, [], true, 0x0, 0x0, 0x0, 0x0⟩,
  ⟨0x4, [], true, 0x0, 0x0, 0x0, 0x0⟩,
  ⟨0x8, [], false, 0xff010f, 0x0, 0x0, 0x100000⟩,
  ⟨0xc, [], false, 0xffffffff, 0x0, 0x0, 0x0⟩,
  ⟨0x10, [], false, 0xffff, 0x0, 0x0, 0x0⟩,
  ⟨0x14, [], false, 0x7f, 0x0, 0x0, 0x0⟩,
  ⟨0x100, [], true, 0x0, 0x0, 0x0, 0x0⟩,
  ⟨0x200, [(8, 0x20)], false, 0x3ffc0, 0x0, 0x0, 0x0⟩,
  ⟨0x204, [(8, 0x20)], false, 0xffffffff, 0x0, 0x0, 0x0⟩,
  ⟨0x208, [(8, 0x20)], true, 0x0, 0x0, 0x0, 0x0⟩,
  ⟨0x20c, [(8, 0x20)], true, 0x0, 0x0, 0x0, 0x0⟩,
  ⟨0x210, [(8, 0x20)], true, 0x0, 0x0, 0x0, 0x0⟩,
  ⟨0x400, [(32, 0x20)], false, 0xffffffff, 0x0, 0x0, 0x0⟩,
  ⟨0x404, [(32, 0x20)], false, 0xffffffff, 0x0, 0x0, 0x0⟩,
  ⟨0x408, [(32, 0x20)], false, 0xfff7f, 0x0, 0x0, 0x0⟩,
  ⟨0x40c, [(32, 0x20)], true, 0x0, 0x0, 0x0, 0x0⟩,
  ⟨0x410, [(32, 0x20)], false, 0xffffffff, 0x0, 0x0, 0x0⟩,
  ⟨0x414, [(32, 0x20)], false, 0xff, 0x0, 0x0, 0x0⟩,
  ⟨0x418, [(32, 0x20)], false, 0xffffffff, 0x0, 0x0, 0x0⟩,
  ⟨0x41c, [(32, 0x20)], true, 0x0, 0x0, 0x0, 0x0⟩,
  ⟨0x800, [], false, 0xff, 0x0, 0x0, 0x8⟩,
  ⟨0x804, [], false, 0x3ffc0, 0x0, 0x0, 0x0⟩,
  ⟨0x808, [], false, 0x1ffff, 0x0, 0x0, 0x0⟩,
  ⟨0x80c, [], false, 0x3ffc0, 0x0, 0x0, 0x0⟩]
/-- Descriptor rows of tile control space. -/
def regRowsTileb : List RegRow := [
  ⟨0x810, [], false, 0xffffffff, 0x0, 0x0, 0x0⟩,
  ⟨0x814, [], true, 0x0, 0x0, 0x0, 0x0⟩,
  ⟨0x900, [], false, 0xff, 0x0, 0x0, 0x0⟩,
  ⟨0x904, [], true, 0x0, 0x0, 0x0, 0x0⟩,
  ⟨0xa04, [], true, 0x0, 0x0, 0x0, 0x0⟩,
  ⟨0xb04, [], true, 0x0, 0x0, 0x0, 0x0⟩,
  ⟨0xc00, [(16, 0x10)], false, 0xffffff7, 0x0, 0x0, 0x0⟩,
  ⟨0xc04, [(16, 0x10)], false, 0x0, 0x0, 0xffffffff, 0x0⟩,
  ⟨0xc08, [(16, 0x10)], true, 0x0, 0x0, 0x0, 0x0⟩,
  ⟨0xc0c, [(16, 0x10)], true, 0x0, 0x0, 0x0, 0x0⟩,
  ⟨0x1000, [], false, 0x0, 0x0, 0xffffffff, 0x0⟩,
  ⟨0x1004, [], false, 0x0, 0x0, 0xffffffff, 0x0⟩,
  ⟨0x1008, [], false, 0x0, 0x0, 0xffffffff, 0x0⟩,
  ⟨0x100c, [], false, 0x0, 0x0, 0xffffffff, 0x0⟩,
  ⟨0x1010, [], false, 0x0, 0x0, 0xffffffff, 0x0⟩,
  ⟨0x1014, [], false, 0x0, 0x0, 0xffffffff, 0x0⟩,
  ⟨0x1018, [], false, 0x0, 0x0, 0xffffffff, 0x0⟩,
  ⟨0x101c, [], false, 0x0, 0x0, 0xffffffff, 0x0⟩,
  ⟨0x1020, [], false, 0x0, 0x0, 0xffffffff, 0x0⟩,
  ⟨0x1024, [], false, 0x0, 0x0, 0xffffffff, 0x0⟩,
  ⟨0x1028, [], false, 0x0, 0x0, 0xffffffff, 0x0⟩,
  ⟨0x102c, [], false, 0x0, 0x0, 0xffffffff, 0x0⟩,
  ⟨0x1030, [], false, 0x0, 0x0, 0xffffffff, 0x0⟩,
  ⟨0x1034, [], false, 0x0, 0x0, 0xffffffff, 0x0⟩]
/-- Descriptor rows of tile control space. -/
def regRowsTilec : List RegRow := [
  ⟨0x1038, [], false, 0x0, 0x0, 0xffffffff, 0x0⟩,
  ⟨0x103c, [], false, 0x0, 0x0, 0xffffffff, 0x0⟩,
  ⟨0x1040, [], false, 0x0, 0x0, 0xffffffff, 0x0⟩,
  ⟨0x1044, [], false, 0x0, 0x0, 0xffffffff, 0x0⟩,
  ⟨0x1100, [(18, 0x4)], true, 0x0, 0x0, 0x0, 0x0⟩,
  ⟨0x11f0, [], true, 0x0, 0x0, 0x0, 0x0⟩,
  ⟨0x11f4, [], true, 0x0, 0x0, 0x0, 0x0⟩,
  ⟨0x2000, [(4, 0x800)], false, 0x0, 0x0, 0x0, 0x0⟩,
  ⟨0x2004, [(4, 0x800)], false, 0x4fff, 0x0, 0x0, 0x3000⟩,
  ⟨0x2008, [(4, 0x800)], true, 0x0, 0x0, 0x0, 0x0⟩,
  ⟨0x200c, [(4, 0x800)], false, 0x0, 0x1f, 0x0, 0x0⟩,
  ⟨0x2010, [(4, 0x800)], true, 0x0, 0x0, 0x0, 0x0⟩,
  ⟨0x2014, [(4, 0x800)], false, 0x0, 0x0, 0xffffffff, 0x0⟩,
  ⟨0x2018, [(4, 0x800)], false, 0x0, 0x0, 0xffffffff, 0x0⟩,
  ⟨0x2100, [(4, 0x800), (16, 0x4)], false, 0xffffffff, 0x0, 0x0, 0x0⟩,
  ⟨0x2400, [(4, 0x800), (16, 0x40), (16, 0x4)], false, 0xffffffff, 0x0, 0x0, 0x0⟩,
  ⟨0x4000, [(4096, 0x4)], false, 0xffffffff, 0x0, 0x0, 0x0⟩,
  ⟨0x8000, [(8, 0x800), (512, 0x4)], false, 0xffffffff, 0x0, 0x0, 0x0⟩,
  ⟨0xc000, [(16, 0x40), (16, 0x4)], false, 0x1ffff, 0x0, 0x0, 0x0⟩]
/-- Descriptor rows of block 0x00. -/
def regRowsB0 : List RegRow := [
  ⟨0x100000, [], false, 0x1, 0x0, 0x0, 0x1⟩,
  ⟨0x100004, [], true, 0x0, 0x0, 0x0, 0x10000⟩,
  ⟨0x100008, [], false, 0x0, 0x0, 0x0, 0x0⟩,
  ⟨0x10000c, [], false, 0x0, 0x0, 0x0, 0x0⟩,
  ⟨0x100010, [(4, 0x4)], false, 0x7fff, 0x0, 0x0, 0x2850⟩,
  ⟨0x100040, [(4, 0x10)], false, 0xffffffff, 0x0, 0x0, 0x0⟩,
  ⟨0x100044, [(4, 0x10)], false, 0x3fff, 0x0, 0x0, 0x2000⟩,
  ⟨0x100048, [(4, 0x10)], false, 0xffffffff, 0x0, 0x0, 0x0⟩,
  ⟨0x10004c, [(4, 0x10)], false, 0x1ff, 0x0, 0x0, 0x0⟩,
  ⟨0x100100, [(64, 0x4)], false, 0x3ffffff, 0x0, 0x0, 0x4000⟩,
  ⟨0x100200, [(2, 0x4)], false, 0x0, 0xffffffff, 0x0, 0x0⟩,
  ⟨0x100210, [(4, 0x4)], false, 0x0, 0x0, 0xffffffff, 0x0⟩,
  ⟨0x100220, [(4, 0x4)], false, 0x0, 0x0, 0xffffffff, 0x0⟩,
  ⟨0x100230, [(4, 0x4)], false, 0x0, 0x0, 0xffffffff, 0x0⟩,
  ⟨0x100240, [(4, 0x4)], false, 0x0, 0x0, 0xffffffff, 0x0⟩,
  ⟨0x100250, [], false, 0x0, 0x0, 0xffffffff, 0x0⟩,
  ⟨0x100254, [], false, 0x0, 0x0, 0xffffffff, 0x0⟩,
  ⟨0x100300, [(4, 0x20)], false, 0xff03ff, 0x0, 0x0, 0xf00082⟩,
  ⟨0x100304, [(4, 0x20)], false, 0x3ffc0, 0x0, 0x0, 0x0⟩,
  ⟨0x100308, [(4, 0x20)], true, 0x0, 0x0, 0x0, 0x0⟩,
  ⟨0x10030c, [(4, 0x20)], true, 0x0, 0x0, 0x0, 0x0⟩,
  ⟨0x100310, [(4, 0x20)], true, 0x0, 0x0, 0x0, 0x0⟩]
/-- Descriptor rows of block 0x01. -/
def regRowsB1a : List RegRow := [
  ⟨0x200000, [], false, 0x0, 0x0, 0x0, 0x0⟩,
  ⟨0x200004, [], false, 0x0, 0x0, 0x0, 0x0⟩,
  ⟨0x200008, [], false, 0x0, 0x0, 0x0, 0x0⟩,
  ⟨0x200010, [], false, 0x0, 0x0, 0x0, 0x0⟩,
  ⟨0x200014, [], false, 0x0, 0x0, 0x0, 0x0⟩,
  ⟨0x200018, [], false, 0x0, 0x0, 0x0, 0x0⟩,
  ⟨0x200020, [], false, 0x0, 0x0, 0xffffffff, 0x0⟩,
  ⟨0x200024, [], false, 0x0, 0x0, 0xffffffff, 0x0⟩,
  ⟨0x200028, [], false, 0x0, 0x0, 0xffffffff, 0x0⟩,
  ⟨0x201000, [(64, 0x10)], false, 0x1f7ff73f, 0x0, 0x0, 0x7⟩,
  ⟨0x201004, [(64, 0x10)], false, 0xfffffff, 0x0, 0x0, 0x0⟩,
  ⟨0x201400, [(8, 0x10)], false, 0x3ffff7f, 0x0, 0x0, 0x700⟩,
  ⟨0x201404, [(8, 0x10)], false, 0x7fffffff, 0x0, 0x0, 0x0⟩,
  ⟨0x201408, [(8, 0x10)], false, 0xfff003f, 0x0, 0x0, 0x0⟩,
  ⟨0x201800, [(64, 0x10)], false, 0x0, 0x40, 0x0, 0x0⟩,
  ⟨0x201804, [(64, 0x10)], true, 0x0, 0x0, 0x0, 0x0⟩,
  ⟨0x201808, [(64, 0x10)], true, 0x0, 0x0, 0x0, 0x0⟩,
  ⟨0x20180c, [(64, 0x10)], false, 0x0, 0x0, 0xffffff, 0x0⟩,
  ⟨0x201c00, [(8, 0x10)], false, 0x0, 0x40, 0x0, 0x0⟩,
  ⟨0x201c04, [(8, 0x10)], true, 0x0, 0x0, 0x0, 0x0⟩,
  ⟨0x201c08, [(8, 0x10)], true, 0x0, 0x0, 0x0, 0x0⟩,
  ⟨0x201c0c, [(8, 0x10)], false, 0x0, 0x0, 0xffffff, 0x0⟩,
  ⟨0x202000, [(64, 0x40), (2, 0x20)], false, 0x3fff1fff, 0x0, 0x0, 0x0⟩,
  ⟨0x202004, [(64, 0x40), (2, 0x20)], false, 0xffffff, 0x0, 0x0, 0x0⟩]
/-- Descriptor rows of block 0x01. -/
def regRowsB1b : List RegRow := [
  ⟨0x202008, [(64, 0x40), (2, 0x20)], false, 0xffffff, 0x0, 0x0, 0x0⟩,
  ⟨0x20200c, [(64, 0x40), (2, 0x20)], false, 0xfffffff, 0x0, 0x0, 0x0⟩,
  ⟨0x202010, [(64, 0x40), (2, 0x20)], false, 0xffffffff, 0x0, 0x0, 0x0⟩,
  ⟨0x202014, [(64, 0x40), (2, 0x20)], false, 0x3f, 0x0, 0x0, 0x0⟩,
  ⟨0x202018, [(64, 0x40), (2, 0x20)], true, 0x0, 0x0, 0x0, 0x0⟩,
  ⟨0x20201c, [(64, 0x40), (2, 0x20)], false, 0x0, 0x0, 0xffffffff, 0x0⟩,
  ⟨0x204000, [(4, 0x80), (32, 0x4)], false, 0xfffff, 0x0, 0x0, 0x0⟩,
  ⟨0x204200, [(4, 0x20), (8, 0x4)], false, 0xfffff, 0x0, 0x0, 0x0⟩,
  ⟨0x204400, [(2, 0x100), (64, 0x4)], false, 0xfffff, 0x0, 0x0, 0x0⟩,
  ⟨0x205000, [(64, 0x4)], false, 0x0, 0x0, 0xffffffff, 0x0⟩,
  ⟨0x205100, [(8, 0x4)], false, 0x0, 0x0, 0xffffffff, 0x0⟩]
/-- Descriptor rows of block 0x02. -/
def regRowsB2 : List RegRow := [
  ⟨0x300000, [(2, 0x100)], false, 0xfffff, 0x0, 0x0, 0x20000⟩,
  ⟨0x300004, [(2, 0x100)], true, 0x0, 0x0, 0x0, 0x0⟩,
  ⟨0x300010, [(2, 0x100)], false, 0xffffffff, 0x0, 0x0, 0x0⟩,
  ⟨0x300014, [(2, 0x100)], false, 0x3fff, 0x0, 0x0, 0x2000⟩,
  ⟨0x300018, [(2, 0x100)], false, 0xffffffff, 0x0, 0x0, 0x0⟩,
  ⟨0x30001c, [(2, 0x100)], false, 0x1ff, 0x0, 0x0, 0x0⟩,
  ⟨0x300020, [(2, 0x100)], false, 0x0, 0x0, 0xffffffff, 0x0⟩,
  ⟨0x300024, [(2, 0x100)], false, 0x0, 0x0, 0xffffffff, 0x0⟩,
  ⟨0x300028, [(2, 0x100)], false, 0x0, 0x0, 0xffffffff, 0x0⟩,
  ⟨0x30002c, [(2, 0x100)], false, 0x0, 0x0, 0xffffffff, 0x0⟩,
  ⟨0x300400, [(16, 0x4)], false, 0x0, 0x0, 0x0, 0x0⟩,
  ⟨0x300440, [], false, 0x0, 0x0, 0xffffffff, 0x0⟩]
/-- Descriptor rows of block 0x03. -/
def regRowsB3 : List RegRow := [
  ⟨0x400000, [(2, 0x40)], false, 0x1ffffff, 0x0, 0x0, 0x0⟩,
  ⟨0x400004, [(2, 0x40)], true, 0x0, 0x0, 0x0, 0x0⟩,
  ⟨0x400010, [(2, 0x40)], false, 0x0, 0x0, 0xffffffff, 0x0⟩,
  ⟨0x400014, [(2, 0x40)], false, 0x0, 0x0, 0xffffffff, 0x0⟩,
  ⟨0x400018, [(2, 0x40)], false, 0x0, 0x0, 0xffffffff, 0x0⟩,
  ⟨0x401000, [(2, 0x800), (256, 0x8)], false, 0x3fffffff, 0x0, 0x0, 0x0⟩,
  ⟨0x401004, [(2, 0x800), (256, 0x8)], false, 0xffffff3f, 0x0, 0x0, 0x0⟩]
/-- Descriptor rows of block 0x04. -/
def regRowsB4 : List RegRow := [
  ⟨0x500000, [], false, 0xffffff, 0x0, 0x0, 0x85050⟩,
  ⟨0x500004, [], true, 0x0, 0x0, 0x0, 0x0⟩,
  ⟨0x500010, [], false, 0x0, 0x0, 0xffffffff, 0x0⟩,
  ⟨0x500014, [], false, 0x0, 0x0, 0xffffffff, 0x0⟩,
  ⟨0x500018, [], false, 0x0, 0x0, 0xffffffff, 0x0⟩,
  ⟨0x50001c, [], false, 0x0, 0x0, 0xffffffff, 0x0⟩,
  ⟨0x500020, [], false, 0x0, 0x0, 0xffffffff, 0x0⟩,
  ⟨0x500024, [], false, 0x0, 0x0, 0xffffffff, 0x0⟩,
  ⟨0x500400, [(256, 0x4)], false, 0xffffffff, 0x0, 0x0, 0x0⟩,
  ⟨0x500800, [(256, 0x4)], true, 0x0, 0x0, 0x0, 0x0⟩,
  ⟨0x500c00, [(256, 0x4)], true, 0x0, 0x0, 0x0, 0x0⟩,
  ⟨0x501000, [(64, 0x20)], false, 0xffffffff, 0x0, 0x0, 0x0⟩,
  ⟨0x501004, [(64, 0x20)], false, 0xffffffff, 0x0, 0x0, 0x0⟩,
  ⟨0x501008, [(64, 0x20)], false, 0xffffffff, 0x0, 0x0, 0x0⟩,
  ⟨0x50100c, [(64, 0x20)], false, 0xffffffff, 0x0, 0x0, 0x0⟩,
  ⟨0x501010, [(64, 0x20)], false, 0xffff0fff, 0x0, 0x0, 0x0⟩,
  ⟨0x501014, [(64, 0x20)], false, 0xffffffff, 0x0, 0x0, 0x0⟩,
  ⟨0x501018, [(64, 0x20)], false, 0xffffffff, 0x0, 0x0, 0x0⟩,
  ⟨0x50101c, [(64, 0x20)], false, 0xffffffff, 0x0, 0x0, 0x0⟩,
  ⟨0x502000, [(64, 0x4)], true, 0x0, 0x0, 0x0, 0x0⟩,
  ⟨0x510000, [(2048, 0x20)], false, 0x0, 0x0, 0x0, 0x0⟩,
  ⟨0x520000, [(2048, 0x8)], false, 0x0, 0x0, 0x0, 0x0⟩,
  ⟨0x580000, [(1024, 0x20), (8, 0x4)], true, 0x0, 0x0, 0x0, 0x0⟩]
/-- Descriptor rows of block 0x05. -/
def regRowsB5 : List RegRow := [
  ⟨0x600000, [(2048, 0x40), (16, 0x4)], false, 0xffffffff, 0x0, 0x0, 0x0⟩,
  ⟨0x620000, [(2048, 0x10), (4, 0x4)], true, 0x0, 0x0, 0x0, 0x0⟩]
/-- Descriptor rows of block 0x06. -/
def regRowsB6 : List RegRow := [
  ⟨0x700000, [(2, 0x4)], false, 0x17fffff, 0x0, 0x0, 0x0⟩,
  ⟨0x700008, [], true, 0x0, 0x0, 0x0, 0x0⟩,
  ⟨0x70000c, [], true, 0x0, 0x0, 0x0, 0x0⟩,
  ⟨0x700010, [], false, 0x0, 0x0, 0xffffffff, 0x0⟩,
  ⟨0x701000, [(512, 0x8)], false, 0x1fffffff, 0x0, 0x0, 0x0⟩,
  ⟨0x701004, [(512, 0x8)], false, 0x0, 0x0, 0x0, 0x0⟩,
  ⟨0x702000, [(128, 0x8)], true, 0x0, 0x0, 0x0, 0x0⟩,
  ⟨0x702004, [(128, 0x8)], true, 0x0, 0x0, 0x0, 0x0⟩]
/-- Descriptor rows of block 0x07. -/
def regRowsB7 : List RegRow := [
  ⟨0x800000, [(256, 0x4)], true, 0x0, 0x0, 0x0, 0x0⟩,
  ⟨0x801000, [(1024, 0x4)], false, 0xffffffff, 0x0, 0x0, 0x0⟩,
  ⟨0x802000, [], false, 0x0, 0x0, 0x0, 0x0⟩,
  ⟨0x802004, [], false, 0x1ff00ff, 0x0, 0x0, 0x0⟩,
  ⟨0x802008, [], true, 0x0, 0x0, 0x0, 0x0⟩,
  ⟨0x80200c, [], false, 0x0, 0x0, 0xffffffff, 0x0⟩,
  ⟨0x802010, [], false, 0x0, 0x0, 0xffffffff, 0x0⟩]
/-- Descriptor rows of block 0x08. -/
def regRowsB8 : List RegRow := [
  ⟨0x900014, [], true, 0x0, 0x0, 0x0, 0x1⟩,
  ⟨0x900020, [(7, 0x4)], false, 0x0, 0x0, 0xffffffff, 0x0⟩,
  ⟨0x900040, [], false, 0x0, 0x0, 0xffffffff, 0x0⟩,
  ⟨0x910000, [(24576, 0x4)], true, 0x0, 0x0, 0x0, 0x0⟩]
/-- Descriptor rows of block 0x0A. -/
def regRowsBA : List RegRow := [
  ⟨0xb00000, [], true, 0x0, 0x0, 0x0, 0x0⟩,
  ⟨0xb00004, [], true, 0x0, 0x0, 0x0, 0x0⟩,
  ⟨0xb00008, [], false, 0x0, 0x0, 0x0, 0x0⟩,
  ⟨0xb0000c, [], false, 0xffff, 0x0, 0x0, 0x0⟩,
  ⟨0xb00010, [], true, 0x0, 0x0, 0x0, 0x0⟩,
  ⟨0xb00020, [(8, 0x4)], false, 0x0, 0x0, 0x0, 0x0⟩,
  ⟨0xb00040, [(8, 0x4)], true, 0x0, 0x0, 0x0, 0x0⟩,
  ⟨0xb00060, [], true, 0x0, 0x0, 0x0, 0x0⟩,
  ⟨0xb00064, [], true, 0x0, 0x0, 0x0, 0x0⟩,
  ⟨0xb00080, [(8, 0x4)], true, 0x0, 0x0, 0x0, 0x0⟩,
  ⟨0xb000a0, [], true, 0x0, 0x0, 0x0, 0x0⟩,
  ⟨0xb00100, [(7, 0x4)], false, 0x0, 0x0, 0xffffffff, 0x0⟩,
  ⟨0xb0011c, [], false, 0x0, 0x0, 0xffffffff, 0x0⟩,
  ⟨0xb00120, [], false, 0x0, 0x0, 0xffffffff, 0x0⟩,
  ⟨0xb00124, [], false, 0x0, 0x0, 0xffffffff, 0x0⟩,
  ⟨0xb00128, [], false, 0x0, 0x0, 0xffffffff, 0x0⟩]
/-- Descriptor rows of block 0x0B. -/
def regRowsBB : List RegRow := [
  ⟨0xc00000, [], true, 0x0, 0x0, 0x0, 0x0⟩,
  ⟨0xc00004, [], true, 0x0, 0x0, 0x0, 0x0⟩,
  ⟨0xc00008, [], true, 0x0, 0x0, 0x0, 0x0⟩,
  ⟨0xc0000c, [], true, 0x0, 0x0, 0x0, 0x0⟩,
  ⟨0xc00100, [], false, 0x0, 0x0, 0xffffffff, 0x0⟩,
  ⟨0xc00104, [], false, 0x0, 0x0, 0xffffffff, 0x0⟩,
  ⟨0xc00108, [], false, 0x0, 0x0, 0xffffffff, 0x0⟩,
  ⟨0xc0010c, [], false, 0x0, 0x0, 0xffffffff, 0x0⟩,
  ⟨0xc00110, [], false, 0x0, 0x0, 0xffffffff, 0x0⟩,
  ⟨0xc00114, [], false, 0x0, 0x0, 0xffffffff, 0x0⟩,
  ⟨0xc00118, [], false, 0x0, 0x0, 0xffffffff, 0x0⟩,
  ⟨0xc08000, [(8, 0x4)], false, 0x0, 0xffffffff, 0x0, 0x0⟩,
  ⟨0xc10000, [(8, 0x800), (512, 0x4)], false, 0xffffffff, 0x0, 0x0, 0x0⟩,
  ⟨0xc14000, [(8, 0x800), (512, 0x4)], true, 0x0, 0x0, 0x0, 0x0⟩]
/-- Descriptor rows of block 0x0C. -/
def regRowsBC : List RegRow := [
  ⟨0xd00000, [], false, 0x1f, 0x0, 0x0, 0x1c⟩,
  ⟨0xd00004, [], true, 0x0, 0x0, 0x0, 0x3000⟩,
  ⟨0xd00008, [], false, 0x7f, 0x0, 0x0, 0x36⟩,
  ⟨0xd0000c, [], false, 0xff, 0x0, 0x0, 0x40⟩,
  ⟨0xd00010, [], true, 0x0, 0x0, 0x0, 0x0⟩,
  ⟨0xd00100, [], false, 0x0, 0x0, 0xffffffff, 0x0⟩,
  ⟨0xd00104, [], false, 0x0, 0x0, 0xffffffff, 0x0⟩,
  ⟨0xd00108, [], false, 0x0, 0x0, 0xffffffff, 0x0⟩,
  ⟨0xd0010c, [], false, 0x0, 0x0, 0xffffffff, 0x0⟩,
  ⟨0xd00110, [], false, 0x0, 0x0, 0xffffffff, 0x0⟩,
  ⟨0xd00114, [], false, 0x0, 0x0, 0xffffffff, 0x0⟩,
  ⟨0xd00118, [], false, 0x0, 0x0, 0xffffffff, 0x0⟩,
  ⟨0xd01000, [(256, 0x4)], true, 0x0, 0x0, 0x0, 0xfa000⟩,
  ⟨0xd02000, [(272, 0x8), (2, 0x4)], true, 0x0, 0x0, 0x0, 0x0⟩]
/-- Descriptor rows of block 0x0F. -/
def regRowsBF : List RegRow := [
  ⟨0x1000000, [], true, 0x0, 0x0, 0x0, 0x0⟩,
  ⟨0x1000004, [], true, 0x0, 0x0, 0x0, 0x0⟩,
  ⟨0x1000008, [], false, 0xffffffff, 0x0, 0x0, 0x0⟩,
  ⟨0x100000c, [], false, 0xffffffff, 0x0, 0x0, 0x0⟩,
  ⟨0x1000010, [], false, 0x0, 0x0, 0x0, 0x0⟩,
  ⟨0x1000100, [], false, 0x0, 0x0, 0xffffffff, 0x0⟩,
  ⟨0x1000104, [], false, 0x0, 0x0, 0xffffffff, 0x0⟩]
/-- Descriptor rows of block 0x0D. -/
def regRowsBD : List RegRow := [
  ⟨0xe00000, [], true, 0x0, 0x0, 0x0, 0x23⟩,
  ⟨0xe00004, [], false, 0xffff, 0x0, 0x0, 0x64⟩,
  ⟨0xe00008, [], true, 0x0, 0x0, 0x0, 0x0⟩,
  ⟨0xe00010, [(4, 0x4)], true, 0x0, 0x0, 0x0, 0x0⟩,
  ⟨0xe00020, [], false, 0x0, 0x0, 0xffffffff, 0x0⟩,
  ⟨0xe00024, [], false, 0x0, 0x0, 0xffffffff, 0x0⟩,
  ⟨0xe00028, [], false, 0x0, 0x0, 0xffffffff, 0x0⟩,
  ⟨0xe00100, [(16, 0x4)], false, 0x3ffff, 0x0, 0x0, 0x0⟩,
  ⟨0xe01000, [(8, 0x100)], false, 0x1f, 0x0, 0x0, 0x16⟩,
  ⟨0xe01004, [(8, 0x100)], false, 0x0, 0x0, 0x0, 0x0⟩,
  ⟨0xe01008, [(8, 0x100)], true, 0x0, 0x0, 0x0, 0x0⟩,
  ⟨0xe0100c, [(8, 0x100)], true, 0x0, 0x0, 0x0, 0x0⟩,
  ⟨0xe01010, [(8, 0x100)], true, 0x0, 0x0, 0x0, 0x0⟩,
  ⟨0xe01020, [(8, 0x100)], false, 0x0, 0x0, 0xffffffff, 0x0⟩,
  ⟨0xe01024, [(8, 0x100)], false, 0x0, 0x0, 0xffffffff, 0x0⟩,
  ⟨0xe01028, [(8, 0x100)], false, 0x0, 0x0, 0xffffffff, 0x0⟩,
  ⟨0xe0102c, [(8, 0x100)], false, 0x0, 0x0, 0xffffffff, 0x0⟩,
  ⟨0xe01030, [(8, 0x100)], false, 0x0, 0x0, 0xffffffff, 0x0⟩,
  ⟨0xe01034, [(8, 0x100)], false, 0x0, 0x0, 0xffffffff, 0x0⟩,
  ⟨0xe01038, [(8, 0x100)], false, 0x0, 0x0, 0xffffffff, 0x0⟩,
  ⟨0xe01040, [(8, 0x100), (6, 0x4)], false, 0x0, 0x0, 0xffffffff, 0x0⟩]
/-- Descriptor rows of block 0x0E. -/
def regRowsBEa : List RegRow := [
  ⟨0xf00000, [], false, 0xfffff, 0x0, 0x0, 0x7d031⟩,
  ⟨0xf00004, [], false, 0xffff, 0x0, 0x0, 0xffff⟩,
  ⟨0xf00008, [], true, 0x0, 0x0, 0x0, 0x0⟩,
  ⟨0xf0000c, [], false, 0x0, 0x0, 0x0, 0x0⟩,
  ⟨0xf00010, [], false, 0x1f01ff, 0x0, 0x0, 0x0⟩,
  ⟨0xf00014, [], true, 0x0, 0x0, 0x0, 0x0⟩,
  ⟨0xf00018, [], false, 0xffffffff, 0x0, 0x0, 0x0⟩,
  ⟨0xf0001c, [], true, 0x0, 0x0, 0x0, 0x0⟩,
  ⟨0xf00020, [], true, 0x0, 0x0, 0x0, 0x0⟩,
  ⟨0xf00024, [], true, 0x0, 0x0, 0x0, 0x0⟩,
  ⟨0xf00028, [], false, 0xffffffff, 0x0, 0x0, 0x0⟩,
  ⟨0xf00040, [], false, 0x0, 0x0, 0xffffffff, 0x0⟩,
  ⟨0xf00044, [], false, 0x0, 0x0, 0xffffffff, 0x0⟩,
  ⟨0xf00048, [], false, 0x0, 0x0, 0xffffffff, 0x0⟩,
  ⟨0xf0004c, [], false, 0x0, 0x0, 0xffffffff, 0x0⟩,
  ⟨0xf00050, [], false, 0x0, 0x0, 0xffffffff, 0x0⟩,
  ⟨0xf00054, [], false, 0x0, 0x0, 0xffffffff, 0x0⟩,
  ⟨0xf00058, [], false, 0x0, 0x0, 0xffffffff, 0x0⟩,
  ⟨0xf00100, [(16, 0x4)], true, 0x0, 0x0, 0x0, 0x30⟩,
  ⟨0xf00200, [(272, 0x4)], true, 0x0, 0x0, 0x0, 0x0⟩,
  ⟨0xf01000, [(64, 0x20), (8, 0x4)], true, 0x0, 0x0, 0x0, 0x0⟩,
  ⟨0xf80000, [], false, 0x33f, 0x0, 0x0, 0x10⟩,
  ⟨0xf80004, [], false, 0xff01ff, 0x0, 0x0, 0x80031⟩,
  ⟨0xf80008, [], true, 0x0, 0x0, 0x0, 0x0⟩]
/-- Descriptor rows of block 0x0E. -/
def regRowsBEb : List RegRow := [
  ⟨0xf8000c, [], false, 0xffff, 0x0, 0x0, 0x14⟩,
  ⟨0xf80010, [], true, 0x0, 0x0, 0x0, 0x0⟩,
  ⟨0xf80014, [], false, 0x0, 0x0, 0x0, 0x0⟩,
  ⟨0xf80020, [], false, 0x0, 0x0, 0xffffffff, 0x0⟩,
  ⟨0xf80024, [], false, 0x0, 0x0, 0xffffffff, 0x0⟩,
  ⟨0xf80028, [], false, 0x0, 0x0, 0xffffffff, 0x0⟩,
  ⟨0xf8002c, [], false, 0x0, 0x0, 0xffffffff, 0x0⟩,
  ⟨0xf80030, [], false, 0x0, 0x0, 0xffffffff, 0x0⟩,
  ⟨0xf80034, [], false, 0x0, 0x0, 0xffffffff, 0x0⟩,
  ⟨0xf80038, [], false, 0x0, 0x0, 0xffffffff, 0x0⟩,
  ⟨0xf8003c, [], false, 0x0, 0x0, 0xffffffff, 0x0⟩,
  ⟨0xf81000, [(64, 0x10), (4, 0x4)], true, 0x0, 0x0, 0x0, 0x0⟩,
  ⟨0xf84000, [(256, 0x40), (8, 0x8)], false, 0x1f, 0x0, 0x0, 0x0⟩,
  ⟨0xf84004, [(256, 0x40), (8, 0x8)], false, 0x7fff7fff, 0x0, 0x0, 0x0⟩,
  ⟨0xf88000, [(256, 0x10)], true, 0x0, 0x0, 0x0, 0x0⟩,
  ⟨0xf88004, [(256, 0x10)], false, 0x0, 0x0, 0xffffffff, 0x0⟩,
  ⟨0xf88008, [(256, 0x10)], false, 0x0, 0x0, 0xffffffff, 0x0⟩]

/-- The descriptor rows of tile control space. -/
def tileRows : List RegRow := regRowsTilea ++ regRowsTileb ++ regRowsTilec
/-- The descriptor rows of one chip block (block number) or, for 16, of the host bus. -/
def chipRows : Nat → List RegRow
  | 0 => regRowsB0
  | 1 => regRowsB1a ++ regRowsB1b
  | 2 => regRowsB2
  | 3 => regRowsB3
  | 4 => regRowsB4
  | 5 => regRowsB5
  | 6 => regRowsB6
  | 7 => regRowsB7
  | 8 => regRowsB8
  | 10 => regRowsBA
  | 11 => regRowsBB
  | 12 => regRowsBC
  | 13 => regRowsBD
  | 14 => regRowsBEa ++ regRowsBEb
  | 15 => regRowsBF
  | 16 => regRowsHosta ++ regRowsHostb
  | _ => []

/-- The row that describes a place, if the map assigns it. -/
def findRow (rows : List RegRow) (k : Nat) : Option RegRow :=
  rows.find? (fun r => r.base ≤ k && RegRow.hits r.dims (k - r.base))

/-- The row of a chip-bank key. -/
def chipRow (k : Nat) : Option RegRow :=
  findRow (chipRows (if k < 0x100000 then 16 else k / 0x100000 - 1)) k

/-- The row of a tile-control offset. -/
def tileRow (o : Nat) : Option RegRow := findRow tileRows o

/-- The reset value of a tile-control word. -/
def tileReset (o : Nat) : Word := match tileRow o with
  | some r => wd r.reset
  | none => 0

/-- The physical tile that holds a logical tile after PORESET# (R34). -/
def physReset (l : Nat) : Nat := 17 * (l / 16) + l % 16

/-- The reset value of a chip-bank word: its row's, but for TILE_MAP (R34) and for the free tile of each row in PHYS_STATUS (R577). -/
def chipReset (k : Nat) : Word :=
  if Reg.TILE_MAP 0 ≤ k ∧ k < Reg.TILE_MAP 256 then wd (physReset ((k - Reg.TILE_MAP 0) / 4))
  else if Reg.PHYS_STATUS 0 ≤ k ∧ k < Reg.PHYS_STATUS 272 then (if (k - Reg.PHYS_STATUS 0) / 4 % 17 = 16 then 1 else 0)
  else match chipRow k with
  | some r => wd r.reset
  | none => 0

end Sys2Proof.Machine
end

