-- ==== Sys2Proof/Machine/TileState.lean ====
section
/-! DEFINITION. What a tile, its memories and the fabric between tiles hold beside their registers. Registers live as words in
register banks; these structures hold the state the spec gives a tile that no register shows. -/

namespace Sys2Proof.Machine

/-- Where the result of an acknowledged operation goes (R117): a scalar register, an SRAM area, or nowhere. -/
inductive ResultTo where
  | reg (k : Nat)
  | sram (off : Nat)
  | nowhere
deriving DecidableEq, Repr

/-- An operation a unit has issued and that is not yet complete (R62, R66, R67, R81). `seq` numbers the unit's operations in
issue order; a posted operation has `acked = false`; `owner` is the thread whose FENCE waits for it; `target` is its targetKey. -/
structure Outst where
  seq   : Nat
  unit  : Nat
  owner : Nat
  acked : Bool
  prio  : BitVec 2
  tag   : BitVec 10
  target : Nat
  size  : Nat
  dst   : ResultTo
  since : Nat
deriving DecidableEq, Repr

/-- A FENCE that has been issued and awaits the operations before it (R62): those with a smaller seq at the masked priorities. -/
structure FenceWait where
  seq  : Nat
  mask : BitVec 3
  dst  : Nat
deriving DecidableEq, Repr

/-- The wait a thread is blocked in (R120): the objects it names, ANY or ALL, the destination, and the timeout of a WAITT. -/
structure WaitState where
  syncs    : Word
  rings    : Nat
  all      : Bool
  dst      : Nat
  deadline : Option Nat
deriving DecidableEq, Repr

/-- What a hardware thread holds beside its registers (R107, R110, R111, R119, R176, R701). -/
structure Thread where
  stack    : List Nat
  isat     : Bool
  dispq    : List (Nat × Word)
  wait     : Option WaitState
  stalled  : Option DWord
  fences   : List FenceWait
  failed   : Nat
  lastGate : List Word
deriving DecidableEq, Repr

/-- A thread at reset: an empty call stack, no flags, nothing pending. -/
def Thread.reset : Thread :=
  { stack := [], isat := false, dispq := [], wait := none, stalled := none, fences := [], failed := 0, lastGate := [] }

/-- A spike in the event engine's queue (R212, R217): neuron, sign, stamp, the thread that handed it over and its class part, and whether
its row has local entries, for which a FENCE waits whatever its mask (R222). -/
structure Spike where
  neuron : Nat
  neg    : Bool
  stamp  : Nat
  thread : Nat
  class0 : Bool
  prio   : BitVec 2
  seq    : Nat
  locals : Bool
deriving DecidableEq, Repr

/-- A spike the event engine is part way through, held at a POST the interface refused (R133, R236); its `locals` says whether local entries
are left. -/
structure EvCursor where
  spike : Spike
  seg   : Nat
  entry : Nat
deriving DecidableEq, Repr

/-- A queued or running engine job (R123, R189, R245): its engine, thread, descriptor line, the gate descriptor line of a forwarded
pair, class, FTZ at its start instruction. -/
structure Job where
  engine  : Engine
  thread  : Nat
  desc    : List Byte
  gdesc   : List Byte
  cls     : Nat
  ftz     : Bool
  seq     : Nat
  running : Bool
deriving DecidableEq, Repr

/-- What a physical tile holds: its control space (every tile register, the microcode store, the accumulators and the gate
programs, word by word) and the state no register shows. `held` are the pushes held in the ingress, `fwdHeld` those of them that a
relocating tile forwarded; `posts` the queued POSTs of the three priorities (R226); `router` the requests that the interface has accepted and
that have not left the local input of the router, `moved` how many flits of the oldest of a VC have left it; `chainWait` the CHAIN ADDs that
wait for an injection credit (R235). -/
structure Tile where
  ctl        : Sparse Word
  thr        : Sparse Thread
  lastIssued : Nat
  yielded    : Option Nat
  ready      : List (Nat × Nat)
  held       : List ReqFlit
  fwdHeld    : List ReqFlit
  ringPend   : List Nat
  evClear    : Bool
  posts      : List ReqFlit
  spikes     : List Spike
  cursors    : List EvCursor
  jobs       : List Job
  seq        : Nat
  out        : List Outst
  late       : List (Nat × Nat)
  router     : List ReqFlit
  moved      : Sparse Nat
  chainWait  : List ReqFlit
  spareBad   : Bool
  ucodeErr   : Sparse Nat
  accErr     : Sparse Nat
deriving DecidableEq, Repr

/-- A physical tile at reset: no control word differs from its reset value, nothing queued. -/
def Tile.reset : Tile :=
  { ctl := [], thr := [], lastIssued := 3, yielded := none, ready := [], held := [], fwdHeld := [],
    ringPend := [], evClear := false, posts := [], spikes := [], cursors := [], jobs := [], seq := 0, out := [], late := [], router := [],
    moved := [], chainWait := [], spareBad := false, ucodeErr := [], accErr := [] }

/-- The memories of the device: tile SRAM and clay, byte by byte, keyed by physical tile and offset; each 64-byte line's written
and poison bits, and the error a 64-bit word holds undetected (1 correctable, 2 not). -/
structure Memory where
  sram    : Sparse Byte
  clay    : Sparse Byte
  sramWr  : Sparse Bool
  clayWr  : Sparse Bool
  sramPo  : Sparse Bool
  clayPo  : Sparse Bool
  sramErr : Sparse Nat
  clayErr : Sparse Nat
deriving DecidableEq, Repr

/-- Memory after the reset-time clear (R434): no line written, no line poisoned. -/
def Memory.reset : Memory :=
  { sram := [], clay := [], sramWr := [], clayWr := [], sramPo := [], clayPo := [], sramErr := [], clayErr := [] }

/-- Posted operations of one issuer that a target has applied or failed and not yet reported (R81). -/
structure Owed where
  issuer  : IssuerId
  target  : Nat
  applied : Nat
  failed  : Nat
  since   : Nat
deriving DecidableEq, Repr

/-- A notice record held open for 10 µs (R84, Table 2.19). -/
structure Notice where
  dstChip : BitVec 4
  dstTile : BitVec 8
  addr    : Addr
  op      : BitVec 5
  status  : BitVec 8
  epoch   : BitVec 8
  count   : Nat
  time    : Nat
deriving DecidableEq, Repr

/-- A relocation or a failure takeover in progress (R88, R582, R584): logical tile, old and new physical tile, copy passes done, whether a
new pass waits for the limiter (R583), whether it is a takeover, whether the final hold is on, whether a peal step or MAP_CMD asked
for it, and the requests that reached the old tile before the switch. -/
structure Reloc where
  logical : Nat
  src     : Nat
  dst     : Nat
  pass    : Nat
  paused  : Bool
  takeover : Bool
  holding : Bool
  peal    : Bool
  host    : Bool
  fwd     : List ReqFlit
deriving DecidableEq, Repr

/-- An operation that a chip block other than the host port has sent and that is not complete: one to another chip (R547, R551), or an acknowledged
one; with its request. -/
structure BlockOut where
  unit   : Nat
  seq    : Nat
  acked  : Bool
  prio   : BitVec 2
  tag    : BitVec 10
  target : Nat
  req    : ReqFlit
deriving DecidableEq, Repr

/-- A push of a chip block that is not complete, and the streams whose frames end with it (R350, R404, R414). -/
structure PushMark where
  req  : ReqFlit
  ends : List Nat
deriving DecidableEq, Repr

/-- What a route fence waits for (R551): an issuer (16 × tile + unit; tile 0xFF for blocks), a priority, an operation of it that was under
way to another chip when the fence was applied. -/
structure FenceMark where
  key  : Nat
  prio : BitVec 2
  seq  : Nat
deriving DecidableEq, Repr

/-- The fabric between the interfaces of this device and the world: requests, responses and credits under way, completion counts
not yet reported, notice records held and those on their way to other chips, the epoch bump and the relocations in progress; then the cross-chip
operations of chip blocks, requests of theirs that a route fence holds, and the fence (R551); and for each tile, and for 256 + each block, the
arrival port it served last (R72); the pushes of chip blocks that are not complete; and TAGs of chip blocks' operations failed under R547 with
the time until which they are not used again (R548). -/
structure Fabric where
  inflight : List ReqFlit
  resps    : List RespFlit
  credits  : List CreditFlit
  owed     : List Owed
  notices  : List Notice
  sentNotices : List (BitVec 4 × NoticeIn)
  bump     : Option (Fin 256)
  lastBump : Sparse (Option Nat)
  relocs   : List Reloc
  blockOut : List BlockOut
  blockSeq : Nat
  waiting  : List ReqFlit
  fence    : List FenceMark
  lastPort : Sparse Nat
  marks    : List PushMark
  late     : List (Nat × Nat)
deriving DecidableEq, Repr

/-- The fabric at reset: nothing under way. -/
def Fabric.reset : Fabric :=
  { inflight := [], resps := [], credits := [], owed := [], notices := [], sentNotices := [], bump := none, lastBump := [], relocs := [],
    blockOut := [], blockSeq := 0, waiting := [], fence := [], lastPort := [], marks := [], late := [] }

end Sys2Proof.Machine
end

