-- ==== Sys2Proof/Machine/SecState.lean ====
section
/-! DEFINITION. State of the key engine, the fuses, the tocsin and the management core (chapters 18 and 20) beside their registers. -/

namespace Sys2Proof.Machine

/-! ### Keys, fuses and tocsin (chapter 18) -/

/-- A stored key as it stands unwrapped in key SRAM, with the SITE_GROUP and SEQ of its record (Table 18.3). -/
structure KeySlot where
  key   : List Byte
  group : Nat
  seq   : Nat
deriving DecidableEq, Repr

/-- An unlock exchange under way (R623): its command, the challenge, the words received, and when the challenge was written. -/
structure Exchange where
  cmd       : Nat
  challenge : List Byte
  words     : List Word
  start     : Nat
deriving DecidableEq, Repr

/-- The last tocsin event (R619): its tick, its sources, the policy applied (0 LOG, 1 LOCK, 2 ERASE), ALARM_STATUS before it and the payload
of its audit record. -/
structure TocsinEvent where
  at_     : Nat
  sources : Nat
  policy  : Nat
  before  : Word
  payload : List Byte
deriving DecidableEq, Repr

/-- The fuses and the key engine: the life cycle fuses as LC_FUSES lays them out, the two fuse keys, whether both copies of the life cycle
row failed at fuse load (R621), key SRAM (WK, then slots 0 to 2), KEY_IN, the exchange, whether a transition holds every unit but the host
bus in reset (R622), the next step of a KEYS erasure (R618), samples passed (R615), and the last tocsin event. -/
structure Keys where
  fuses    : Word
  duk      : Option (List Byte)
  unlock   : Option (List Byte)
  lcFail   : Bool
  wk       : Option (List Byte)
  image    : Option KeySlot
  site     : Option KeySlot
  enroll   : Option KeySlot
  keyIn    : List Byte
  exchange : Option Exchange
  halted   : Bool
  erase    : Option Nat
  passes   : Nat
  event    : Option TocsinEvent
deriving DecidableEq, Repr

/-- Keys at reset: blank fuses. -/
def Keys.reset : Keys :=
  { fuses := 0, duk := none, unlock := none, lcFail := false, wk := none, image := none, site := none, enroll := none,
    keyIn := List.replicate 32 0, exchange := none, halted := false, erase := none, passes := 0, event := none }

/-! ### Management core (chapter 20) -/

/-- A mailbox command that waits: its word and the copy of its parameter page (R660). -/
structure MailCmd where
  word : Word
  page : List Byte
deriving DecidableEq, Repr

/-- A section that is being placed (Table 20.4): its type, the address and the bytes still to come, and its padding. -/
structure Section where
  kind : Nat
  dest : Addr
  left : Nat
  pad  : Nat
deriving DecidableEq, Repr

/-- An image load that is open (R663, R664): its envelope, the content key of an encrypted one, the body bytes taken, the plaintext not
placed yet, the section under way, whether END was met, held writes, and the chunks taken. -/
structure Load where
  envelope : List Byte
  key      : Option (List Byte)
  body     : List Byte
  rest     : List Byte
  sect     : Option Section
  ended    : Bool
  held     : List (Addr × List Byte)
  chunks   : Nat
deriving DecidableEq, Repr

/-- A command that writes rows or held words and awaits the answer of each write before the next (R24, R77, R297, R664): the writes still to be
issued with their ANY_EPOCH and priority, whether one is under way, the first completion code that was not OK, and the STATUS and DATA of the
reply when every write has been answered OK. -/
structure CoreJob where
  cmd      : MailCmd
  todo     : List (Addr × List Byte)
  anyEpoch : Bool
  prio     : Nat
  waits    : Bool
  code     : Nat
  status   : Nat
  data     : Nat
deriving DecidableEq, Repr

/-- The mailbox unit and the core: commands and replies in their queues, replies that are held (R661), the command running with the bytes of its chunk
done, a command that writes and awaits answers, the open load, the ranges it has written (kept over a restart, R665), when DEFERRING last counted a
millisecond, and since when the core is calm (R666). -/
structure Mgmt where
  queue     : List MailCmd
  replies   : List Word
  heldReplies : List Word
  run       : Option (MailCmd × Nat)
  job       : Option CoreJob
  load      : Option Load
  ranges    : List (Addr × Nat)
  deferAt   : Option Nat
  calmAt    : Option Nat
deriving DecidableEq, Repr

/-- The management core at reset. -/
def Mgmt.reset : Mgmt :=
  { queue := [], replies := [], heldReplies := [], run := none, job := none, load := none, ranges := [], deferAt := none, calmAt := none }

/-! ### Reset and the test access port (chapters 17 and 21) -/

/-- The test access port (R685 to R687): the instruction in effect, the boundary register, and the bits last shifted out. -/
structure Tap where
  ir       : Nat
  boundary : List Bool
  out      : List Bool
deriving DecidableEq, Repr

/-- The port in Test-Logic-Reset: IDCODE. -/
def Tap.reset : Tap := { ir := 1, boundary := List.replicate 254 false, out := [] }

/-- PORESET# and what follows it: whether the pin is low, whether power-up has ended in the safe state, and with the host bus unit itself failed
(R598). -/
structure Boot where
  low      : Bool
  safe     : Bool
  hostBad  : Bool
  tap      : Tap
deriving DecidableEq, Repr

/-- PORESET# is low. -/
def Boot.reset : Boot := { low := true, safe := false, hostBad := false, tap := Tap.reset }

end Sys2Proof.Machine
end

