-- ==== Sys2Proof/Machine/UnitState.lean ====
section
/-! DEFINITION. What the chip blocks and the pins hold beside their registers: the state the spec gives a unit that no register
shows. -/

namespace Sys2Proof.Machine

/-! ### Contract unit (chapter 8, and the swaps of chapter 6) -/

/-- An accepted frame whose record is not written yet (R317, R325): its sequence number and FRAME_END, whether a source gap made it
(R318), the latest hint (R324), and the record once a commit or a cut has settled it. -/
structure FrameIn where
  seq  : Word
  ends : Nat
  gap  : Bool
  hint : Nat
  done : Option (List Byte)
deriving DecidableEq, Repr

/-- Bytes 0 to 23 of a record under submission by one issuer at one priority, and the low half of a hint (R321). -/
structure Stage where
  unit  : BitVec 4
  tile  : BitVec 8
  prio  : BitVec 2
  bytes : List Byte
  hint  : Word
deriving DecidableEq, Repr

/-- What admission charges (Table 8.12): a resource of a chip. -/
inductive Res where
  | reserve (chip tile : Nat)
  | pool (chip tile : Nat)
  | link0 (chip port : Nat)
  | link (chip port : Nat)
  | vc0 (chip tile : Nat)
  | clay (chip tile : Nat)
  | spread
  | slots (chip tile line : Nat)
deriving DecidableEq, Repr

/-- A charge: so much of a resource, in cycles/s, bytes/s or slots. -/
structure Charge where
  res : Res
  amt : Rat
deriving DecidableEq, Repr

/-- How far the swap of a stream's record is (R255, R259): none, a swap-in waiting, its copy made, a swap-out
waiting, made. -/
inductive Swap where
  | none | inWaiting | inCopied | outWaiting | outDone
deriving DecidableEq, Repr

/-- An event that waits for a stream's next frame end: not noted, noted, and the frame end has come. -/
inductive AtBoundary where
  | none | noted | ripe
deriving DecidableEq, Repr

/-- What the contract unit holds of a stream beside DESC and STAT: the times between which frame ends are accepted, and whether the first of them
still has to come, the expected frame end, the last one accepted (R418), frames without a record, pre-roll frames (R362), submissions, flags of the
next record, the swap, the coverage break and the residency fall-back due, the last sequence number written and accepted, the order of activation, the
charges, whether the thread is bound (R310), the pinned core: first accumulator bank, banks, and whether the banks hold it (R262, R265), and after a
column fault: whether the record's state counts as lost (R265), and whether the next swap-out writes the whole record (R266). -/
structure StreamRun where
  fromT    : Word
  waits    : Bool
  untilT   : Option Word
  expect   : Option Nat
  lastEnd  : Option Nat
  frames   : List FrameIn
  preroll  : List FrameIn
  stages   : List Stage
  isReset  : Bool
  isLost   : Bool
  swap     : Swap
  cover    : AtBoundary
  fallDue  : AtBoundary
  written  : Option Word
  order    : Nat
  charges  : List Charge
  bound    : Bool
  pinTile  : Nat
  pinBank  : Nat
  pinBanks : Nat
  pinOff   : Nat
  pinBytes : Nat
  coreIn   : Bool
  fallback : Bool
  stale    : Bool
  wholeDue : Bool
deriving DecidableEq, Repr

/-- A stream that never ran. -/
def StreamRun.reset : StreamRun :=
  { fromT := 0, waits := false, untilT := none, expect := none, lastEnd := none, frames := [], preroll := [], stages := [], isReset := false, isLost := false, swap := .none,
    cover := .none, fallDue := .none, written := none, order := 0, charges := [], bound := false, pinTile := 0, pinBank := 0, pinBanks := 0,
    pinOff := 0, pinBytes := 0, coreIn := false, fallback := false, stale := false, wholeDue := false }

/-- What other chips answer on a board of one chip. -/
def PeerView.alone : PeerView := { refuse := none, mhz := [], xcp := [], chips := 1 }

/-- What a stream of another chip holds of this chip's resources (R315): the chip, the stream's entry there, its class, the kind (0 the reserve of a
tile, 1 its pool, 2 class 0 on a port, 3 all classes on a port, 4 VC0 of a tile, 5 a column, 6 every column, 7 slots of an ingress ring), the
tile or port (tile × 4096 + ring line for slots), and the amount in cycles/s, bytes/s or slots. -/
structure PeerCharge where
  chip  : Nat
  entry : Nat
  cls   : Nat
  kind  : Nat
  idx   : Nat
  amt   : Nat
deriving DecidableEq, Repr

/-- The contract unit: its streams, how many activations it has accepted, the entry whose DEACTIVATE keeps BUSY set (R309), the C0 bits
it has set (logical tile × 32 + object, with the thread), whether LISTEN entry keeps it from admitting (R643), the entries with a swap queued,
the first come first (R259), what the other chips last answered an admission and what their streams hold here (R315), and for R426 what each of
them was last told, whether a class-0 stream is served here, and which of them serve one. -/
structure Contracts where
  runs    : Sparse StreamRun
  acts    : Nat
  busyFor : Option Nat
  c0      : List (Nat × Nat)
  asleep  : Bool
  swapq   : List Nat
  view    : PeerView
  held    : List PeerCharge
  told    : Sparse (Option Bool)
  peersUp : List Nat
deriving DecidableEq, Repr

/-- The contract unit at reset. -/
def Contracts.reset : Contracts :=
  { runs := [], acts := 0, busyFor := none, c0 := [], asleep := false, swapq := [], view := PeerView.alone, held := [], told := [],
    peersUp := [] }

/-! ### Pins -/

/-- The pins the device drives or samples, beside the registers that show them: when each WAKE pulse ends (R332). -/
structure Pins where
  wakeEnd  : Sparse (Option Nat)
deriving DecidableEq, Repr

/-- The pins at reset. -/
def Pins.reset : Pins := { wakeEnd := [] }

/-! ### Clap unit (chapter 16) -/

/-- The clap unit beside its registers (R560 to R563, R573): causes noted with their tick, the slot the device last pulled the net in,
since when the net is low, whether a further fall may be detected, the slot of the last clap and whether that clap took a snapshot, the tick of the
last snapshot, and a clap missed while HELD, with its tick, causes and stamp. -/
structure Clap where
  noted    : List (Nat × Nat)
  pulled   : Option Nat
  lowAt    : Option Nat
  armed    : Bool
  slot     : Option Nat
  latched  : Bool
  latchAt  : Option Nat
  missed   : Option (Nat × Nat × Nat)
deriving DecidableEq, Repr

/-- The clap unit at reset. -/
def Clap.reset : Clap :=
  { noted := [], pulled := none, lowAt := none, armed := true, slot := none, latched := false, latchAt := none, missed := none }

/-! ### Power (chapter 19) -/

/-- Power beside its registers: whether the tiles of rows 0 to 14 are gated, or closed to the fabric, and when they were closed (R643, R644); the mode
a change in progress leads to; a wake request held during LISTEN entry, with its groups (R360); when a wake started, whether its first phase has
begun, and whether its restore is done (R647); where in each column the shadow areas lie that LISTEN entry filled (R645); tiles whose clocks ran,
summed over the ticks since the last ACTIVITY_UPDATE, and those ticks (R633); updates above the cap in a row, since when the tiers stand at their
lowest, the tiers lowered, the last first, and when the die was last too hot (R649, R650, R689); the guards computed in the last 100 µs (R633); droop
events of a physical tile since its last lowering, when that was, and its caps (R637); when VDD_CORE last moved a level (R630). -/
structure Power where
  gated    : Bool
  closed   : Bool
  closedAt : Nat
  target   : Option Nat
  heldWake : Option Nat
  waking   : Option Nat
  begun    : Bool
  restored : Bool
  saved    : Option Nat
  ran      : Nat
  ranFor   : Nat
  above    : Nat
  floorAt  : Option Nat
  lowered  : List Nat
  hotAt    : Option Nat
  guards   : List (Nat × Nat)
  droops   : Sparse (List Nat)
  droopAt  : Sparse (Option Nat)
  droopCap : Sparse Nat
  stepAt   : Option Nat
deriving DecidableEq, Repr

/-- Power at reset. -/
def Power.reset : Power :=
  { gated := false, closed := false, closedAt := 0, target := none, heldWake := none, waking := none, begun := false, restored := false,
    saved := none, ran := 0, ranFor := 0, above := 0,
    floorAt := none, lowered := [], hotAt := none, guards := [], droops := [], droopAt := [], droopCap := [], stepAt := none }

/-- The time base beside its registers (R652 to R654): the previous SYNC edge, and the d in ns that it left as it was; edges in a row within 100 ns; when
the pulse that this device drives ends; what is still to be taken off device time after a near edge, and the REFCLK time that all ticks have taken, both in
units of 0.00000001 of a nominal tick. -/
structure Sync where
  edgeAt : Option Nat
  edgeD  : Int
  streak : Nat
  pulse  : Option Nat
  slew   : Int
  refclk : Int
deriving DecidableEq, Repr

/-- The time base at reset. -/
def Sync.reset : Sync := { edgeAt := none, edgeD := 0, streak := 0, pulse := none, slew := 0, refclk := 0 }

/-! ### Parameter store (chapter 13) -/

/-- A sector's information row (R455): the sector a spare replaces, the RETIRED mark, and the read-only mark of R488. -/
structure NvInfo where
  replaces : Option Nat
  retired  : Bool
  readOnly : Bool
deriving DecidableEq, Repr

/-- The information row of a sector in service. -/
def NvInfo.reset : NvInfo := { replaces := none, retired := false, readOnly := false }

/-- Where the layer writes next in a circular region (R466, R468, R472): die offset, record sequence, sector sequence. -/
structure Circ where
  pos  : Nat
  seq  : Word
  sseq : Nat
deriving DecidableEq, Repr

/-- An open transaction: its id, the records put so far and their payload bytes (R472). -/
structure TxRun where
  id    : Nat
  count : Nat
  bytes : Nat
deriving DecidableEq, Repr

/-- The circular regions, in the order of the REGION codes of Table 13.10. -/
inductive Region where
  | enroll | log | journal
deriving DecidableEq, Repr

/-- An operation on the die (Table 13.8). -/
inductive NvWork where
  | read (off len : Nat)
  | program (off : Nat) (bytes : List Byte)
  | erase (off : Nat)
  | append (r : Region) (type : Nat) (key : Word) (payload : List Byte)
  | getRecord (key : Word)
  | txBegin
  | txCommit
  | txAbort
  | tallyInc (n : Nat)
  | tallyRead (n : Nat)
deriving DecidableEq, Repr

/-- One act of the die: a logical sector is erased, a granule is programmed, or a bit of a tally sector is. -/
inductive NvStep where
  | erase (sec : Nat)
  | program (off : Nat) (bytes : List Byte)
  | bit (sec p : Nat)
deriving DecidableEq, Repr

/-- A queued operation: whether an NV_CMD asked for it. -/
structure NvOp where
  work : NvWork
  host : Bool
deriving DecidableEq, Repr

/-- A queued audit record (R523, R625): its payload, whether the device itself originated it, a device journal record that
commits with it (R519), and whether it still waits for the reply word that it records. -/
structure AuditEntry where
  payload : List Byte
  device  : Bool
  extra   : Option (Word × List Byte)
  due     : Bool
deriving DecidableEq, Repr

/-- A queued log entry (R667, Table 20.5). -/
structure LogEntry where
  code  : Nat
  sev   : Nat
  src   : Nat
  arg   : Word
  count : Nat
  first : Nat
  last  : Nat
deriving DecidableEq, Repr

/-- The flash die and its layer: whether the spare map is loaded (R489), the array and its weak granules (R479), the information rows,
the circular regions, the last transaction id taken, the host's transaction, waiting operations, the transfer buffer and its position
(R462), and the audit and log queues; then the operation that the die has started (R465), the SEQs of members of discarded transactions in each
region (R479), device writes lost where no register counts them (R488), and what the verifies of the layer's next write will find (R486). -/
structure Nv where
  loaded  : Bool
  die     : Sparse Byte
  weak    : List Nat
  info    : Sparse NvInfo
  enroll  : Circ
  log     : Circ
  journal : Circ
  lastTx  : Nat
  hostTx  : Option TxRun
  queue   : List NvOp
  buf     : List Byte
  bufPos  : Nat
  audit   : List AuditEntry
  logq    : List LogEntry
  started : Option NvOp
  dead    : List (Region × Word)
  lost    : Nat
  found   : NvVerify
deriving DecidableEq, Repr

/-- A blank die. -/
def Nv.reset : Nv :=
  { loaded := false, die := [], weak := [], info := [], enroll := { pos := 0x100000, seq := 1, sseq := 0 },
    log := { pos := 0x700000, seq := 1, sseq := 0 }, journal := { pos := 0x800000, seq := 1, sseq := 0 }, lastTx := 0, hostTx := none,
    queue := [], buf := List.replicate 256 0, bufPos := 0, audit := [], logq := [], started := none, dead := [], lost := 0, found := NvVerify.clean }

/-! ### Peal controller (chapter 17) -/

/-- A test under way on a physical tile (R589 to R591, R600): its origin, the slices and march elements done, the seed and the slice
signatures of a seeded test, whether a peal step or an UNRETIRE runs it, and whether it has spared a bank. -/
structure PealTest where
  phys     : Nat
  origin   : Nat
  slice    : Nat
  elem     : Nat
  seed     : Option Word
  sigs     : List Byte
  step     : Bool
  unretire : Bool
  spared   : Bool
  fixed    : List Nat
deriving DecidableEq, Repr

/-- The peal controller: tests, each row's scheduled step time and previous victim (R578, R580), the row of a BIST_CMD STEP in progress and
whether its step has started, repaired SRAM rows of each physical tile (128 × macro + row), tiles whose test LISTEN stopped
(Table 17.2), and logical tiles whose faulted column waits for a free tile (R453). -/
structure Peal where
  tests   : List PealTest
  due     : Sparse (Option Nat)
  prev    : Sparse (Option Nat)
  stepCmd : Option (Nat × Bool)
  rows    : Sparse (List Nat)
  retest  : List Nat
  cols    : List Nat
deriving DecidableEq, Repr

/-- The peal controller at reset: nothing is scheduled before READY. -/
def Peal.reset : Peal := { tests := [], due := [], prev := [], stepCmd := none, rows := [], retest := [], cols := [] }

end Sys2Proof.Machine
end

