-- ==== Sys2Proof/Machine/State.lean ====
section
/-! DEFINITION. The state of one DZ-64: plain data, everything the spec gives the device. -/

namespace Sys2Proof.Machine

/-- Why the machine stops. No rule of the spec stops the device, so no meaning raises it. -/
inductive Fault where
  /-- Raised by no meaning: the spec has the device stop nowhere. Safe. -/
  | unreachable
deriving DecidableEq, Repr

/-- Why a command has no meaning. -/
inductive Refusal where
  /-- A command whose meaning is not written yet; raised by exec's arm alone. Safe. -/
  | notModelled (mnemonic : String)
deriving DecidableEq, Repr

/-- A clay column of a physical tile: COL_STATUS, COL_CORRECTED and COL_POISONED of the logical tile above it (Table 12.11). -/
structure Col where
  status    : Word
  corrected : Word
  poisoned  : Word
deriving DecidableEq, Repr

/-- A reset of a stream's context that is due at the stream's next frame end (R440): the line found uncorrectable by memory (clay or
not), logical tile and line, none for a pinned bank (R442) or a takeover (R586); whether the frame end has come. -/
structure DueReset where
  entry : Nat
  line  : Option (Bool × Nat × Nat)
  ripe  : Bool
deriving DecidableEq, Repr

/-- Memory integrity beside its registers: the columns, each bank's counts in this pass (R450), banks in retention (R425), bank
copies under way (R451), tiles the scrubber skipped (R448), context resets due (R440), and the lines of which one of the three copies of the
written bit (1), of the poison bit (2) or of both (3) disagrees with the other two, keyed by twice the line, and one more for clay (R433). -/
structure Integ where
  cols     : Sparse Col
  bankCorr : Sparse Nat
  bankPois : Sparse Nat
  retained : Sparse Bool
  sparing  : List (Nat × Nat)
  skipped  : List Nat
  revisit  : Bool
  due      : List DueReset
  odd      : Sparse Nat
deriving DecidableEq, Repr

/-- The state of the device. -/
structure State where
  pending  : List Instr
  time     : DWord
  chipId   : BitVec 4
  regs     : Sparse Word
  tiles    : Sparse Tile
  mem      : Memory
  fab      : Fabric
  clap     : Clap
  integ    : Integ
  cu       : Contracts
  pwr      : Power
  shadow   : Sparse Tile
  sync     : Sync
  boot     : Boot
  pins     : Pins
  nv       : Nv
  peal     : Peal
  keys     : Keys
  mgmt     : Mgmt
  fe       : FrontEnd
  ports    : Ports
  host     : HostPort
  links    : Links
  readData : Word
  lastStatus : BitVec 8
  free     : Nat
deriving DecidableEq, Repr

/-- The machine right after reset. -/
def State.reset : State :=
  { pending := [], time := 0, chipId := 0, regs := [], tiles := [], mem := Memory.reset, fab := Fabric.reset,
    clap := Clap.reset,
    integ := { cols := [], bankCorr := [], bankPois := [], retained := [], sparing := [], skipped := [], revisit := false, due := [], odd := [] },
    cu := Contracts.reset, pwr := Power.reset, shadow := [], sync := Sync.reset, boot := Boot.reset,
    pins := Pins.reset, nv := Nv.reset, peal := Peal.reset, keys := Keys.reset, mgmt := Mgmt.reset,
    fe := FrontEnd.reset, ports := Ports.reset, host := HostPort.reset, links := Links.reset,
    readData := 0, lastStatus := 0, free := 0 }

end Sys2Proof.Machine
end

