-- ==== Sys2Proof/Machine/Ops.lean ====
section
/-! DEFINITION. The named operations over registers, time, interrupts, claps, tiles and memory that every meaning is written with. -/

namespace Sys2Proof.Machine

/-! ### Registers of the chip blocks and the host bus -/

/-- The word held at a chip-bank key. -/
def State.rd (s : State) (k : Nat) : Word := spGet chipReset s.regs k

/-- The state with a chip-bank word set. -/
def State.wr (s : State) (k : Nat) (v : Word) : State := { s with regs := spSet chipReset s.regs k v }

/-- The state with a chip-bank word changed. -/
def State.upd (s : State) (k : Nat) (f : Word → Word) : State := s.wr k (f (s.rd k))

/-- A field of a chip-bank word. -/
def State.fld (s : State) (k hi lo : Nat) : Nat := wfld (s.rd k) hi lo

/-- A bit of a chip-bank word. -/
def State.bit (s : State) (k n : Nat) : Bool := wbit (s.rd k) n

/-- Set a field of a chip-bank word. -/
def State.setFld (s : State) (k hi lo v : Nat) : State := s.wr k (wSetFld (s.rd k) hi lo v)

/-- Set a bit of a chip-bank word. -/
def State.setBit (s : State) (k n : Nat) (b : Bool) : State := s.wr k (wSetBit (s.rd k) n b)

/-- Add one to a counter that saturates at 0xFFFF_FFFF. -/
def State.count (s : State) (k : Nat) : State := s.wr k (satInc (s.rd k))

/-- Add n to a counter that saturates at 0xFFFF_FFFF. -/
def State.countBy (s : State) (k n : Nat) : State := s.wr k (satAdd (s.rd k) n)

/-! ### Time, interrupts, claps -/

/-- Device time in µs. -/
def State.now (s : State) : Nat := s.time.toNat

/-- Device time [31:0]. -/
def State.now32 (s : State) : Word := s.time.setWidth 32

/-- HB_STATUS.READY. -/
def State.ready (s : State) : Bool := s.bit Reg.HB_STATUS 0

/-- Set an edge bit of INT_STATUS (R507, Table 14.10). -/
def State.raiseInt (s : State) (n : Nat) : State := s.setBit Reg.INT_STATUS n true

/-- Note a clap cause in the present tick, if CAUSE_EN enables it (R559, R560); before READY no clap is taken (R565). -/
def State.noteClap (s : State) (c : Nat) : State :=
  if s.ready && s.bit Reg.CLAP_CTRL (24 + c) then
    { s with clap := { s.clap with noted := s.clap.noted ++ [(c, s.now)] } }
  else s

/-- Whether a 32-bit time t is reached: now − t, taken as signed, is not negative. -/
def reached (now t : Word) : Bool := !(now - t).msb

/-! ### Tiles -/

/-- The physical tile p. -/
def State.tile (s : State) (p : Nat) : Tile := spGet (fun _ => Tile.reset) s.tiles p

/-- The state with physical tile p replaced. -/
def State.setTile (s : State) (p : Nat) (t : Tile) : State := { s with tiles := spSet (fun _ => Tile.reset) s.tiles p t }

/-- The state with physical tile p changed. -/
def State.onTile (s : State) (p : Nat) (f : Tile → Tile) : State := s.setTile p (f (s.tile p))

/-- A word of a tile's control space. -/
def Tile.rd (t : Tile) (o : Nat) : Word := spGet tileReset t.ctl o

/-- The tile with a control word set. -/
def Tile.wr (t : Tile) (o : Nat) (v : Word) : Tile := { t with ctl := spSet tileReset t.ctl o v }

/-- A field of a control word. -/
def Tile.fld (t : Tile) (o hi lo : Nat) : Nat := wfld (t.rd o) hi lo

/-- A bit of a control word. -/
def Tile.bit (t : Tile) (o n : Nat) : Bool := wbit (t.rd o) n

/-- Set a field of a control word. -/
def Tile.setFld (t : Tile) (o hi lo v : Nat) : Tile := t.wr o (wSetFld (t.rd o) hi lo v)

/-- Set a bit of a control word. -/
def Tile.setBit (t : Tile) (o n : Nat) (b : Bool) : Tile := t.wr o (wSetBit (t.rd o) n b)

/-- Count n in a saturating tile counter. -/
def Tile.countBy (t : Tile) (o n : Nat) : Tile := t.wr o (satAdd (t.rd o) n)

/-- The hidden state of thread i. -/
def Tile.thread (t : Tile) (i : Nat) : Thread := spGet (fun _ => Thread.reset) t.thr i

/-- The tile with thread i's hidden state replaced. -/
def Tile.setThread (t : Tile) (i : Nat) (h : Thread) : Tile := { t with thr := spSet (fun _ => Thread.reset) t.thr i h }

/-- The tile with thread i's hidden state changed. -/
def Tile.onThread (t : Tile) (i : Nat) (f : Thread → Thread) : Tile := t.setThread i (f (t.thread i))

/-- T_STATUS.STATE of thread i (Table 3.2). -/
def Tile.tstate (t : Tile) (i : Nat) : Nat := t.fld (Reg.T_STATUS i) 2 0

/-- Set T_STATUS.STATE. -/
def Tile.setTstate (t : Tile) (i v : Nat) : Tile := t.setFld (Reg.T_STATUS i) 2 0 v

/-- T_STATUS.PC. -/
def Tile.pc (t : Tile) (i : Nat) : Nat := t.fld (Reg.T_STATUS i) 13 3

/-- Set T_STATUS.PC. -/
def Tile.setPc (t : Tile) (i v : Nat) : Tile := t.setFld (Reg.T_STATUS i) 13 3 v

/-- T_CONFIG.CLASS. -/
def Tile.tclass (t : Tile) (i : Nat) : Nat := t.fld (Reg.T_CONFIG i) 13 12

/-- Thread states of Table 3.2. -/
abbrev tIdle : Nat := 0
abbrev tRunning : Nat := 1
abbrev tWaiting : Nat := 2
abbrev tStalled : Nat := 3
abbrev tHalted : Nat := 4
abbrev tFault : Nat := 5

/-- Whether a thread is RUNNING, WAITING or STALLED. -/
def Tile.busy (t : Tile) (i : Nat) : Bool := t.tstate i == tRunning || t.tstate i == tWaiting || t.tstate i == tStalled

/-- The physical tile that holds logical tile l (TILE_MAP.PHYS). -/
def State.physOf (s : State) (l : Nat) : Nat := s.fld (Reg.TILE_MAP l) 8 0

/-- TILE_MAP.STATE: 0 ACTIVE, 1 MOVING, 2 FORWARDING, 3 RETIRED. -/
def State.mapState (s : State) (l : Nat) : Nat := s.fld (Reg.TILE_MAP l) 26 24

/-- TILE_MAP.EPOCH. -/
def State.epochOf (s : State) (l : Nat) : Nat := s.fld (Reg.TILE_MAP l) 23 16

/-- The tile that holds logical tile l. -/
def State.ltile (s : State) (l : Nat) : Tile := s.tile (s.physOf l)

/-- The state with the tile that holds logical tile l changed. -/
def State.onL (s : State) (l : Nat) (f : Tile → Tile) : State := s.onTile (s.physOf l) f

/-- The logical tile whose role a physical tile holds. -/
def State.logicalOf (s : State) (p : Nat) : Option Nat :=
  (List.range 256).find? (fun l => s.physOf l == p && s.mapState l != 3)

/-- Restart a stopped tile clock (R100). -/
def Tile.wake (t : Tile) : Tile := t.setBit Reg.CLK_STATUS 10 true

/-- Whether a logical tile is gated or closed to the fabric (R643, R644). -/
def State.tileShut (s : State) (l : Nat) : Bool := (s.pwr.gated || s.pwr.closed) && decide (s.physOf l < 255)

/-- Whether a logical tile has no power (R643). -/
def State.tileDark (s : State) (l : Nat) : Bool := s.pwr.gated && decide (s.physOf l < 255)

/-- Whether a logical tile has a tile whose clock may run: out of reset, its role not RETIRED, and powered (R592, R598, R643). -/
def State.tileRuns (s : State) (l : Nat) : Bool := s.ready && s.mapState l != 3 && !s.tileDark l

/-- Whether a logical tile has a tile that works: out of reset, its role not RETIRED, neither gated nor closed (R592, R598, R644). -/
def State.tileUp (s : State) (l : Nat) : Bool := s.ready && s.mapState l != 3 && !s.tileShut l

/-- An access of the fabric or of the state mover restarts the stopped clock of the tile that holds logical tile l (R100); a retired tile's clock
stays stopped (R592), and so does that of a tile without power (R643). -/
def State.wakeL (s : State) (l : Nat) : State := if s.mapState l = 3 ∨ s.tileDark l = true then s else s.onL l Tile.wake

/-! ### Frequencies (R629, R631, R634) -/

/-- CAL[p][v]. -/
def State.cal (s : State) (p v : Nat) : Nat := s.fld (Reg.CAL p (v / 2)) (16 * (v % 2) + 15) (16 * (v % 2))

/-- The level a physical tile runs at: row 15 always 2 (R629). -/
def State.vlevelOf (s : State) (p : Nat) : Nat := if p / 17 = 15 then 2 else s.fld Reg.PWR_ACT 13 12

/-- The guarded frequency of a tile at a level, before the limiter: 0.01 × CAL × (100 − GUARD), at most 1,000. -/
def State.guarded (s : State) (p v : Nat) : Nat := min 1000 (s.cal p v * (100 - s.fld Reg.PWR_ACT 11 8) / 100)

/-- F_run of logical tile t (R634). -/
def State.runMhz (s : State) (t : Nat) : Nat := min (s.guarded (s.physOf t) (s.vlevelOf (s.physOf t))) (s.fld (Reg.TILE_F t) 19 10)

/-- The frequency that the running oscillator of physical tile p is set to: F_run of its role, which of a tile without a role is what CAL and GUARD
allow, and never below 100 MHz (R634). -/
def State.oscMhz (s : State) (p : Nat) : Nat :=
  max 100 (match s.logicalOf p with
    | some t => s.runMhz t
    | none => s.guarded p (s.vlevelOf p))

/-! ### Ring header lines (R136) -/

/-- The header's SRAM offset: BASE = LINE × 64. -/
def Tile.ringBase (t : Tile) (n : Nat) : Nat := t.fld (Reg.RING_BASE n) 17 6 * 64

/-- Whether ring n is enabled. -/
def Tile.ringOn (t : Tile) (n : Nat) : Bool := t.bit (Reg.RING_CFG n) 7

/-- The enabled ring whose header line holds an SRAM offset. -/
def Tile.ringAt (t : Tile) (o : Nat) : Option Nat := lowestBelow 8 (fun n => t.ringOn n && decide (t.ringBase n ≤ o) && decide (o < t.ringBase n + 64))

/-- Whether a range touches a header line of an enabled ring. -/
def Tile.touchesRing (t : Tile) (o n : Nat) : Bool :=
  (List.range 8).any (fun i => t.ringOn i && decide (t.ringBase i < o + n) && decide (o < t.ringBase i + 64) && decide (0 < n))

/-! ### Addresses -/

/-- The fields of a fabric address (Table 2.1). -/
def Addr.chip (a : Addr) : Nat := (a.toNat >>> 36) % 16
def Addr.space (a : Addr) : Nat := (a.toNat >>> 34) % 4
def Addr.tile (a : Addr) : Nat := (a.toNat >>> 26) % 256
def Addr.off (a : Addr) : Nat := a.toNat % 2 ^ 26

/-- A fabric address from its fields. -/
def mkAddr (chip space tile off : Nat) : Addr := BitVec.ofNat 40 (chip * 2 ^ 36 + space * 2 ^ 34 + tile * 2 ^ 26 + off)

/-- The bytes of a space that are decoded (R30, Table 2.2). -/
def spaceSize (space blk : Nat) : Nat :=
  if space = 0 then 0x40000 else if space = 1 then 0x200000 else if space = 2 then 0x10000
  else if blk = 9 then 0x1000000 else 0x100000

/-! ### Streams: the parts of the stream table that memory integrity and the tiles look at -/

/-- A descriptor field of stream entry e: w bits from bit b of the 32-bit word at byte o (Table 8.1). -/
def State.desc (s : State) (e o b w : Nat) : Nat := ((s.rd (Reg.DESC e (o / 4))).toNat >>> b) % 2 ^ w

/-- A 40-bit address field of a descriptor, low word at byte o. -/
def State.descAddr (s : State) (e o : Nat) : Addr :=
  BitVec.ofNat 40 ((s.rd (Reg.DESC e (o / 4))).toNat + 2 ^ 32 * ((s.rd (Reg.DESC e (o / 4 + 1))).toNat % 256))

/-- STAT.STATE of an entry (Table 8.3). -/
def State.strState (s : State) (e : Nat) : Nat := s.fld (Reg.STAT e 0) 2 0

/-- The entries that are not FREE. A FREE entry that never ran lists no word, so only listed words are looked at. -/
def State.liveStreams (s : State) : List Nat :=
  s.regs.filterMap (fun kv =>
    if Reg.STAT 0 0 ≤ kv.1 && kv.1 < Reg.STAT 2048 0 && (kv.1 - Reg.STAT 0 0) % 16 == 0 && wfld kv.2 2 0 != 0
    then some ((kv.1 - Reg.STAT 0 0) / 16) else none)

/-- Whether logical tile l is in entry e's home group: GROUP_M1 + 1 tiles from HOME_TILE. -/
def State.inHome (s : State) (e l : Nat) : Bool :=
  s.desc e 0x20 0 8 ≤ l && l ≤ s.desc e 0x20 0 8 + s.desc e 0x20 8 4

/-! ### Memory -/

/-- Byte keys: 256 KB of SRAM and 2 MB of clay per physical tile. -/
def sramKey (p o : Nat) : Nat := p * 0x40000 + o
def clayKey (p o : Nat) : Nat := p * 0x200000 + o

/-- The key of a byte in either memory. -/
def memKey (clay : Bool) (p o : Nat) : Nat := if clay then clayKey p o else sramKey p o

/-- The stored byte at a key; an unlisted byte reads 0. -/
def Memory.byte (m : Memory) (clay : Bool) (k : Nat) : Byte := spGet (fun _ => 0) (if clay then m.clay else m.sram) k

/-- Store a byte. -/
def Memory.setByte (m : Memory) (clay : Bool) (k : Nat) (b : Byte) : Memory :=
  if clay then { m with clay := spSet (fun _ => 0) m.clay k b } else { m with sram := spSet (fun _ => 0) m.sram k b }

/-- The written bit of a line. -/
def Memory.written (m : Memory) (clay : Bool) (ln : Nat) : Bool := spGet (fun _ => false) (if clay then m.clayWr else m.sramWr) ln

/-- The byte a key reads as: a line that has never been written reads zero (R79). -/
def Memory.seen (m : Memory) (clay : Bool) (k : Nat) : Byte := if m.written clay (k / 64) then m.byte clay k else 0

/-- The poison bit of a line. -/
def Memory.poison (m : Memory) (clay : Bool) (ln : Nat) : Bool := spGet (fun _ => false) (if clay then m.clayPo else m.sramPo) ln

/-- Set a line's written bit. -/
def Memory.setWritten (m : Memory) (clay : Bool) (ln : Nat) (b : Bool) : Memory :=
  if clay then { m with clayWr := spSet (fun _ => false) m.clayWr ln b } else { m with sramWr := spSet (fun _ => false) m.sramWr ln b }

/-- Set a line's poison bit. -/
def Memory.setPoison (m : Memory) (clay : Bool) (ln : Nat) (b : Bool) : Memory :=
  if clay then { m with clayPo := spSet (fun _ => false) m.clayPo ln b } else { m with sramPo := spSet (fun _ => false) m.sramPo ln b }

/-- The undetected error in a 64-bit word: 0 none, 1 correctable, 2 not. -/
def Memory.err (m : Memory) (clay : Bool) (w : Nat) : Nat := spGet (fun _ => 0) (if clay then m.clayErr else m.sramErr) w

/-- Set the undetected error of a 64-bit word. -/
def Memory.setErr (m : Memory) (clay : Bool) (w e : Nat) : Memory :=
  if clay then { m with clayErr := spSet (fun _ => 0) m.clayErr w e } else { m with sramErr := spSet (fun _ => 0) m.sramErr w e }

/-- n bytes from a key, as they read. -/
def Memory.bytes (m : Memory) (clay : Bool) (k n : Nat) : List Byte := (List.range n).map (fun i => m.seen clay (k + i))

/-- The lines that n bytes from a key touch. -/
def linesOf (k n : Nat) : List Nat := if n = 0 then [] else (List.range ((k + n - 1) / 64 - k / 64 + 1)).map (fun i => k / 64 + i)

/-- Zero a line's bytes and errors. -/
def Memory.blankLine (m : Memory) (clay : Bool) (ln : Nat) : Memory :=
  let m := (List.range 64).foldl (fun m i => m.setByte clay (64 * ln + i) 0) m
  (List.range 8).foldl (fun m i => m.setErr clay (8 * ln + i) 0) m

/-- Store bytes from a key: a never-written line is first zero and becomes written, a line written whole loses its poison, and a
64-bit word written whole loses its error (R73, R79). -/
def Memory.store (m : Memory) (clay : Bool) (k : Nat) (bs : List Byte) : Memory :=
  let lns := linesOf k bs.length
  let m := lns.foldl (fun m ln => if m.written clay ln then m else (m.blankLine clay ln).setWritten clay ln true) m
  let m := lns.foldl (fun m ln => if k ≤ 64 * ln ∧ 64 * ln + 64 ≤ k + bs.length then m.setPoison clay ln false else m) m
  let m := (lns.flatMap (fun ln => (List.range 8).map (fun i => 8 * ln + i))).foldl
    (fun m w => if k ≤ 8 * w ∧ 8 * w + 8 ≤ k + bs.length then m.setErr clay w 0 else m) m
  ((List.range bs.length).zip bs).foldl (fun m ib => m.setByte clay (k + ib.1) ib.2) m

/-- Clear the written and poison bits of one tile's lines in one memory (R434, R435, R581): its bytes read 0 from then on. -/
def Memory.clearTile (m : Memory) (clay : Bool) (p : Nat) : Memory :=
  let n := if clay then 0x200000 else 0x40000
  let lo := p * n
  let hi := lo + n
  let keepB : Nat × Byte → Bool := fun e => e.1 < lo || hi ≤ e.1
  let keepL : Nat × Bool → Bool := fun e => e.1 < lo / 64 || hi / 64 ≤ e.1
  let keepE : Nat × Nat → Bool := fun e => e.1 < lo / 8 || hi / 8 ≤ e.1
  if clay then { m with clay := m.clay.filter keepB, clayWr := m.clayWr.filter keepL, clayPo := m.clayPo.filter keepL, clayErr := m.clayErr.filter keepE }
  else { m with sram := m.sram.filter keepB, sramWr := m.sramWr.filter keepL, sramPo := m.sramPo.filter keepL, sramErr := m.sramErr.filter keepE }

/-- Whether every one of the memories is in canonical form. -/
def Memory.wf (m : Memory) : Bool :=
  spWf (fun _ => (0 : Byte)) m.sram && spWf (fun _ => (0 : Byte)) m.clay &&
  spWf (fun _ => false) m.sramWr && spWf (fun _ => false) m.clayWr && spWf (fun _ => false) m.sramPo && spWf (fun _ => false) m.clayPo &&
  spWf (fun _ => (0 : Nat)) m.sramErr && spWf (fun _ => (0 : Nat)) m.clayErr

/-- The written lines of a clay column. -/
def Memory.writtenLines (m : Memory) (p : Nat) : List Nat :=
  m.clayWr.filterMap (fun e => if p * 0x8000 ≤ e.1 ∧ e.1 < (p + 1) * 0x8000 then some (e.1 - p * 0x8000) else none)

/-- The state with its memory changed. -/
def State.onMem (s : State) (f : Memory → Memory) : State := { s with mem := f s.mem }

end Sys2Proof.Machine
end

