-- ==== Sys2Proof/Machine/Audit.lean ====
section
/-! DEFINITION. Values the spec leaves open, and the two accounts the device keeps: audit records (R522 to R526, R624 to R626) and log
entries (R667). -/

namespace Sys2Proof.Machine

/-- A fresh value that the spec leaves open. -/
def State.draw (s : State) : State × Nat := ({ s with free := s.free + 1 }, Config.freeValue s.free)

/-- n fresh bytes. -/
def State.drawBytes (s : State) (n : Nat) : State × List Byte :=
  ({ s with free := s.free + n }, (List.range n).map (fun i => BitVec.ofNat 8 (Config.freeValue (s.free + i))))

/-! ### Audit -/

/-- Who is recorded: a unit of Table 2.9 at a chip and tile. -/
structure AuditSrc where
  chip : Nat
  unit : Nat
  tile : Nat
deriving DecidableEq, Repr

/-- The host port of this chip. -/
def State.hostSrc (s : State) : AuditSrc := { chip := s.chipId.toNat, unit := 8, tile := 0xFF }

/-- The device itself. -/
def State.selfSrc (s : State) : AuditSrc := { chip := s.chipId.toNat, unit := 15, tile := 0xFF }

/-- An audit payload (Table 18.10). -/
def State.auditPayload (s : State) (event : Nat) (src : AuditSrc) (target old new aux : Word) : List Byte :=
  toBytes 2 event ++ toBytes 1 (src.chip + 16 * src.unit) ++ toBytes 1 src.tile ++ toBytes 4 target.toNat ++ toBytes 4 old.toNat ++
  toBytes 4 new.toNat ++ toBytes 8 s.now ++ toBytes 4 aux.toNat ++ toBytes 4 0

/-- TARGET of a host-bus register. -/
def busTarget (off : Nat) : Word := wd (0xFF000000 + off)

/-- TARGET of a chip-block register. -/
def blockTarget (blk off : Nat) : Word := wd (blk * 2 ^ 24 + off)

/-- Whether the sectors of a region are read-only (R488). -/
def Nv.sectorsRo (v : Nv) (base n : Nat) : Bool := v.info.any (fun e => e.2.readOnly && decide (base ≤ e.1) && decide (e.1 < base + n))

/-- Whether JOURNAL is read-only. -/
def State.journalRo (s : State) : Bool := s.nv.sectorsRo 2048 256

/-- Whether an audited write is refused: 64 records wait, or JOURNAL is read-only (R524, R626). -/
def State.auditRefuses (s : State) : Bool := s.journalRo || decide (64 ≤ (s.nv.audit.filter (fun e => !e.device)).length)

/-- Refuse an audited write: BUS_ERR and AUDIT (R524). -/
def State.auditRefused (s : State) : State := (s.raiseInt 5).raiseInt 19

/-- Queue the record of a write, with a device journal record that commits with it. -/
def State.auditPut (s : State) (payload : List Byte) (extra : Option (Word × List Byte)) : State :=
  { s with nv := { s.nv with audit := s.nv.audit ++ [{ payload := payload, device := false, extra := extra, due := false }] } }

/-- Queue a record that the device originates, in its own queue of 16; lost when that is full or JOURNAL is read-only (R625, R626). -/
def State.deviceAudit (s : State) (event : Nat) (target old new aux : Word) : State :=
  if s.journalRo ∨ 16 ≤ (s.nv.audit.filter (·.device)).length then s.count Reg.AUDIT_LOST
  else { s with nv := { s.nv with audit := s.nv.audit ++
    [{ payload := s.auditPayload event s.selfSrc target old new aux, device := true, extra := none, due := false }] } }

/-- An audited write of a host-bus register: refused, or done with its REG_WRITE record of the word before and after. -/
def State.audited (s : State) (off : Nat) (aux : Word) (f : State → State) : State :=
  if s.auditRefuses then s.auditRefused
  else
    let t := f s
    t.auditPut (s.auditPayload 1 s.hostSrc (busTarget off) (s.rd off) (t.rd off) aux) none

/-- A host write of a slot that is not open before READY: ignored until then, with BUS_ERR (R503), and without it under PORESET# and in the
safe state (R598, R679). -/
def State.busWrite (s : State) (f : State → State) : State :=
  if s.ready then f s else if s.boot.low || s.boot.safe then s else s.raiseInt 5

/-- What the host does at a slot that is open before READY: nothing happens under PORESET# and in the safe state. -/
def State.busOpen (s : State) (f : State → State) : State := if s.boot.low || s.boot.safe then s else f s

/-- What the host reads at such a slot: the safe state answers 0 (R598). -/
def State.busRead (s : State) (f : State → State) : State :=
  if s.boot.low then s else if s.boot.safe then { s with readData := 0 } else f s

/-- An access by a command to chip block b: units in reset and a block that failed its power-up test answer ERR_BUSY (R597). -/
def State.atBlock (s : State) (b : Nat) (f : State → State) : State :=
  if s.ready && !s.bit Reg.BIST_BLOCKS b then f s else { s with lastStatus := 0x0B }

/-- A write of a host-bus register of block b: ignored where the block failed its power-up test (R597), and while a life cycle transition holds it in
reset (R622). -/
def State.slotAt (s : State) (b : Nat) (f : State → State) : State := if s.bit Reg.BIST_BLOCKS b || s.keys.halted then s else f s

/-! ### Log -/

/-- An event to be logged: it merges with an unwritten entry of the same CODE, SRC and ARG less than 60 s old, takes a free entry, or is
lost (R667). -/
def State.logEvent (s : State) (code sev : Nat) (arg : Word) : State :=
  let src := s.chipId.toNat + 16 * 15
  let same : LogEntry → Bool := fun e => e.code == code && e.src == src && e.arg == arg && decide (s.now - e.first < 60000000)
  match s.nv.logq.findIdx? same with
  | some i =>
    let s := { s with nv := { s.nv with logq := s.nv.logq.modify i (fun e => { e with count := min 0xFFFFFFFF (e.count + 1), last := s.now }) } }
    s.count Reg.LOG_COALESCED
  | none =>
    if s.nv.logq.length < 64 then
      { s with nv := { s.nv with logq := s.nv.logq ++
        [{ code := code, sev := sev, src := src, arg := arg, count := 1, first := s.now, last := s.now }] } }
    else s.count Reg.LOG_LOST

end Sys2Proof.Machine
end

