-- ==== Sys2Proof/Machine/Integrity.lean ====
section
/-! DEFINITION. Line protection: regions, never-written lines, corrections, new poison and what follows from it, the copies of
written and poison bits, and banks in retention (R422, R425, R427, R430 to R445, R450). -/

namespace Sys2Proof.Machine

/-! ### Pools and regions -/

/-- Context records in the column of logical tile t: (u + 1 − (t mod 2)) div 2 (R427). -/
def State.poolRecords (s : State) (t : Nat) : Nat := (s.fld Reg.POOL_CFG 5 0 + 1 - t % 2) / 2

/-- Whether a clay line lies in the shadow area of a tile of rows 0 to 14, which SHADOW.EN opens (R645). -/
def State.inShadow (s : State) (l line : Nat) : Bool :=
  let first := 512 * s.fld Reg.SHADOW 5 0
  s.bit Reg.SHADOW 6 && decide (l < 240) && decide (first ≤ line) && decide (line < first + 5120)

/-- A line's class, its UNWR_ERR, and the region code a stale entry carries (R437); the lines of the shadow area have class STATIC (R645). -/
def State.regionOf (s : State) (l : Nat) (clay : Bool) (line : Nat) : Nat × Bool × Nat :=
  let hit := lowestBelow 8 (fun i =>
    let lo := s.rd (Reg.REGION_LO l i)
    let hi := s.rd (Reg.REGION_HI l i)
    wbit lo 0 && (wbit lo 1 == clay) && decide (wfld hi 14 0 ≤ line) && decide (line ≤ wfld hi 30 16))
  match hit with
  | some i => (if clay && s.inShadow l line then 1 else wfld (s.rd (Reg.REGION_LO l i)) 3 2, wbit (s.rd (Reg.REGION_LO l i)) 4, i)
  | none =>
    if clay then
      (if line < s.poolRecords l * 2048 then (2, s.bit Reg.POOL_CFG 8, 0xF0) else (1, s.bit Reg.POOL_CFG 9, 0xF0))
    else (0, false, 0xF0)

/-- The owner of a CONTEXT line (R439): the stream whose record, or whose state area in a home tile, holds it. -/
def State.ownerOf (s : State) (l : Nat) (clay : Bool) (line : Nat) : Option Nat :=
  s.liveStreams.find? (fun e =>
    if clay then
      let a := s.descAddr e 0x24
      Addr.chip a == s.chipId.toNat && Addr.space a == 1 && Addr.tile a == l && Addr.off a / 0x20000 == line / 2048
    else s.inHome e l && decide (s.desc e 0x30 0 18 ≤ 64 * line) && decide (64 * line < s.desc e 0x30 0 18 + 0x8000))

/-! ### Columns -/

/-- The column of a physical tile. -/
def State.col (s : State) (p : Nat) : Col := spGet (fun _ => { status := 0, corrected := 0, poisoned := 0 }) s.integ.cols p

/-- The state with a column changed. -/
def State.onCol (s : State) (p : Nat) (f : Col → Col) : State :=
  { s with integ := { s.integ with cols := spSet (fun _ => { status := 0, corrected := 0, poisoned := 0 }) s.integ.cols p (f (s.col p)) } }

/-- Whether an access to a clay line meets a faulted column (R452): the failed bank under cause 1, every line otherwise. -/
def State.colRefuses (s : State) (p line : Nat) : Bool :=
  let c := (s.col p).status
  wbit c 0 && (wfld c 2 1 != 1 || wfld c 11 8 == line / 2048)

/-- A bank's corrected lines in this scrub pass (R450), keyed by physical tile and logical bank. -/
def State.bankCorr (s : State) (b : Nat) : Nat := spGet (fun _ => 0) s.integ.bankCorr b

/-- A bank's newly poisoned lines in this scrub pass (R450). -/
def State.bankPois (s : State) (b : Nat) : Nat := spGet (fun _ => 0) s.integ.bankPois b

/-- Count a corrected line of a bank. -/
def State.countBankCorr (s : State) (b : Nat) : State :=
  { s with integ := { s.integ with bankCorr := spSet (fun _ => 0) s.integ.bankCorr b (s.bankCorr b + 1) } }

/-- Count a newly poisoned line of a bank. -/
def State.countBankPois (s : State) (b : Nat) : State :=
  { s with integ := { s.integ with bankPois := spSet (fun _ => 0) s.integ.bankPois b (s.bankPois b + 1) } }

/-- Whether a bank is failing by its counts in this pass (R450). -/
def State.bankFailing (s : State) (b : Nat) : Bool :=
  decide (s.bankCorr b > s.fld Reg.SCRUB_CFG 23 16) || decide (s.bankPois b ≥ 2)

/-! ### Retention, stores and the copies of the written and poison bits (R425, R433) -/

/-- Every clay bank goes into retention (R425). -/
def State.retainAll (s : State) : State :=
  { s with integ := { s.integ with retained := (List.range 4352).map (fun b => (b, true)) } }

/-- Wake the banks that an access to clay touches: they leave retention (R425). -/
def State.wakeBanks (s : State) (p : Nat) (clay : Bool) (o n : Nat) : State :=
  if clay && s.integ.retained != [] then
    { s with integ := { s.integ with retained := s.integ.retained.filter (fun e =>
      decide (e.1 < 16 * p + o / 0x20000) || decide (16 * p + (o + n - 1) / 0x20000 < e.1)) } }
  else s

/-- Which copies of a line's bits disagree: 1 one of the written bit's, 2 one of the poison bit's. -/
def oddOf (m : Sparse Nat) (k : Nat) : Nat := spGet (fun _ => 0) m k

/-- The disagreements left when n bytes from key k are written: a line written whole has both bits written anew, and a line written for the first
time its written bit (R433). -/
def Memory.oddLeft (m : Memory) (clay : Bool) (odd : Sparse Nat) (k n : Nat) : Sparse Nat :=
  (linesOf k n).foldl (fun od ln =>
    let i := 2 * ln + clay.toNat
    let e := oddOf od i
    if e = 0 then od
    else if k ≤ 64 * ln ∧ 64 * ln + 64 ≤ k + n then spSet (fun _ => 0) od i 0
    else if m.written clay ln then od else spSet (fun _ => 0) od i (e - e % 2)) odd

/-- Store bytes at offset o of logical tile l's SRAM or clay, once the checks have passed. -/
def State.storeMem (s : State) (l : Nat) (clay : Bool) (o : Nat) (bs : List Byte) : State :=
  let k := memKey clay (s.physOf l) o
  let odd := s.mem.oddLeft clay s.integ.odd k bs.length
  let s := (s.wakeBanks (s.physOf l) clay o bs.length).onMem (fun m => m.store clay k bs)
  { s with integ := { s.integ with odd := odd } }

/-- Store bytes as the state mover does: the header lines of enabled rings, which nothing but the operations of the ring writes, are left as they
are (R136), where the spec names no other answer to a write of the state mover (DESIGN CHOICE, log entry 81). -/
def State.storeAround (s : State) (l : Nat) (clay : Bool) (o : Nat) (bs : List Byte) : State :=
  if !clay && (s.ltile l).touchesRing o bs.length then
    (linesOf o bs.length).foldl (fun s line =>
      let a := max o (64 * line)
      if (s.ltile l).touchesRing (64 * line) 64 then s else s.storeMem l false a ((bs.drop (a - o)).take (64 * line + 64 - a))) s
  else s.storeMem l clay o bs

/-- A write of the state mover, for which the tile's clock restarts (R100). -/
def State.moverStore (s : State) (l : Nat) (clay : Bool) (o : Nat) (bs : List Byte) : State := (s.wakeL l).storeAround l clay o bs

/-- The written and poison bits of a line are read by majority: a copy that disagrees is corrected in place and counted (R433). -/
def State.metaFix (s : State) (clay : Bool) (g : Nat) : State :=
  let k := 2 * g + clay.toNat
  let e := oddOf s.integ.odd k
  if e = 0 then s
  else State.countBy { s with integ := { s.integ with odd := spSet (fun _ => 0) s.integ.odd k 0 } } Reg.META_ERRORS (e % 2 + e / 2 % 2)

/-- A copy reads the bits of n lines from line g on (R433). -/
def State.metaReads (s : State) (clay : Bool) (g n : Nat) : State :=
  (s.integ.odd.filter (fun e => e.1 % 2 == clay.toNat && decide (g ≤ e.1 / 2) && decide (e.1 / 2 < g + n))).foldl (fun s e => s.metaFix clay (e.1 / 2)) s

/-- The bits of n lines from line g on are written anew: no copies disagree (R433). -/
def State.metaAnew (s : State) (clay : Bool) (g n : Nat) : State :=
  { s with integ := { s.integ with odd := s.integ.odd.filter (fun e => e.1 % 2 != clay.toNat || decide (e.1 / 2 < g) || decide (g + n ≤ e.1 / 2)) } }

/-- The lines of a tile in one memory. -/
def tileLines (clay : Bool) : Nat := if clay then 0x8000 else 0x1000

/-- The written and poison bits of a tile's lines in one memory are cleared (R434, R435, R581). -/
def State.clearLines (s : State) (clay : Bool) (p : Nat) : State :=
  (s.onMem (fun m => m.clearTile clay p)).metaAnew clay (p * tileLines clay) (tileLines clay)

/-! ### Stale ring (R443, R444, Table 12.4) -/

/-- Append a stale entry for the line at address a, or merge it into an unread entry of the same tile, space and region whose
first failure is less than 1,000,000 µs old. -/
def State.staleAppend (s : State) (a : Addr) (region kind : Nat) : State :=
  let head := (s.rd Reg.STALE_HEAD).toNat
  let n := (s.rd Reg.STALE_HEAD - s.rd Reg.STALE_TAIL).toNat
  let mergeable := (List.range n).find? (fun i =>
    let j := (head + 2 ^ 32 - n + i) % 64
    let w1 := s.rd (Reg.STALE j 1)
    let w0 := s.rd (Reg.STALE j 0)
    let t := (s.rd (Reg.STALE j 2)).toNat + 2 ^ 32 * (s.rd (Reg.STALE j 3)).toNat
    (w0.toNat + 2 ^ 32 * wfld w1 7 0) / 2 ^ 26 == a.toNat / 2 ^ 26 && wfld w1 15 8 == region && decide (s.now - t < 1000000))
  match mergeable with
  | some i =>
    let j := (head + 2 ^ 32 - n + i) % 64
    s.upd (Reg.STALE j 1) (fun w => wSetFld w 31 24 (min 255 (wfld w 31 24 + 1)))
  | none =>
    if n < 64 then
      let j := head % 64
      let s := s.wr (Reg.STALE j 0) (wd (a.toNat % 2 ^ 32))
      let s := s.wr (Reg.STALE j 1) (wd (a.toNat / 2 ^ 32 + region * 2 ^ 8 + kind * 2 ^ 16 + 2 ^ 24))
      let s := s.wr (Reg.STALE j 2) s.now32
      let s := s.wr (Reg.STALE j 3) (wd (s.now / 2 ^ 32))
      s.upd Reg.STALE_HEAD (· + 1)
    else s.count Reg.STALE_LOST

/-! ### Context lines of streams that are not running (R441, R440) -/

/-- The local line number, in its column, of a stream's record header. -/
def State.recordLine (s : State) (e : Nat) : Nat := Addr.off (s.descAddr e 0x24) / 64

/-- The physical tile whose column holds a stream's record. -/
def State.recordPhys (s : State) (e : Nat) : Nat := s.physOf (Addr.tile (s.descAddr e 0x24))

/-- The logical tile whose column holds a stream's record, and its offset there. -/
def State.recordTile (s : State) (e : Nat) : Nat := Addr.tile (s.descAddr e 0x24)
def State.recordOff (s : State) (e : Nat) : Nat := Addr.off (s.descAddr e 0x24)

/-- What every new poison counts and raises (R445): of a line of logical tile l in a column of physical tile p, and of its class. -/
def State.poisonNoted (s : State) (l p : Nat) (clay : Bool) (line cls : Nat) : State :=
  let s := if clay then (s.onCol p (fun c => { c with poisoned := satInc c.poisoned })).countBankPois (16 * p + line / 2048) else s
  (((s.count Reg.POISONED_LINES).noteClap 4).raiseInt 8).logEvent 6 1 (wd (l + cls * 2 ^ 24))

/-- A correctable error in a column is corrected in n words of a line and counted (R430). -/
def State.columnCorrected (s : State) (p line n : Nat) : State :=
  (s.onCol p (fun c => { c with corrected := satAdd c.corrected n })).countBankCorr (16 * p + line / 2048)

/-- The state mover writes zeros over a line, unless its column refuses it (R452). -/
def State.zeroLine (s : State) (l : Nat) (clay : Bool) (line : Nat) : State :=
  if clay && s.colRefuses (s.physOf l) line then s.wakeBanks (s.physOf l) clay (64 * line) 64 else s.moverStore l clay (64 * line) (List.replicate 64 0)

/-- A record header as the state mover rewrites one that was found poisoned (R441). -/
def State.headerAnew (s : State) (e : Nat) : List Byte :=
  toBytes 2 (s.chipId.toNat * 2048 + e) ++ toBytes 2 (s.desc e 0x0C 0 16) ++ toBytes 1 2 ++ List.replicate 59 0

/-- The state mover marks a record RESET_PENDING: the word that holds FLAGS is read and written back, and a header found uncorrectable there is
rewritten whole (R431, R441). A header whose column refuses it, or that is poisoned already, is left (R73, R452). -/
def State.pendHeader (s : State) (e : Nat) : State :=
  let l := s.recordTile e
  let p := s.recordPhys e
  let g := memKey true p 0 / 64 + s.recordLine e
  let s := ((s.wakeL l).wakeBanks p true (s.recordOff e) 64).metaFix true g
  let er := if s.mem.written true g then s.mem.err true (8 * g) else 0
  if s.colRefuses p (s.recordLine e) || s.mem.poison true g then s
  else if er = 2 then (s.poisonNoted l p true (s.recordLine e) 2).storeMem l true (s.recordOff e) (s.headerAnew e)
  else
    let s := if er = 1 then (s.columnCorrected p (s.recordLine e) 1).onMem (fun m => m.setErr true (8 * g) 0) else s
    s.storeMem l true (s.recordOff e + 4) [(s.mem.seen true (64 * g + 4)) ||| 2]

/-- The context of a stream that does not run is reset (R441, R442): the poisoned line, if one, is zero, and the record is RESET_PENDING; a
poisoned header is rewritten whole. -/
def State.resetIdleContext (s : State) (e : Nat) (line : Option (Bool × Nat × Nat)) : State :=
  match line with
  | none => s.pendHeader e
  | some (clay, l, ln) =>
    let s := s.zeroLine l clay ln
    if clay && l == s.recordTile e && ln == s.recordLine e then
      (if s.colRefuses (s.recordPhys e) ln then s else s.moverStore l true (s.recordOff e) (s.headerAnew e))
    else s.pendHeader e

/-- Whether a stream is ACTIVATING, ACTIVE or DRAINING. -/
def State.runs (s : State) (e : Nat) : Bool := decide (2 ≤ s.strState e) && decide (s.strState e ≤ 4)

/-- A context reset that a stream's next frame end brings (R440). -/
def State.resetDue (s : State) (e : Nat) (line : Option (Bool × Nat × Nat)) : State :=
  { s with integ := { s.integ with due := s.integ.due ++ [{ entry := e, line := line, ripe := false }] } }

/-- The context of stream e is lost to an uncorrectable error (R440 to R442). -/
def State.contextLost (s : State) (e : Nat) (line : Option (Bool × Nat × Nat)) : State :=
  if s.runs e then s.resetDue e line else s.resetIdleContext e line

/-- What a newly poisoned line of class CONTEXT does to its owner (R438, R440, R441). -/
def State.contextPoison (s : State) (l : Nat) (clay : Bool) (line : Nat) : State :=
  match s.ownerOf l clay line with
  | none => s
  | some e => s.contextLost e (some (clay, l, line))

/-! ### New poison (R431, R438, R445) -/

/-- A line of logical tile l, at physical tile p, is newly poisoned: its poison bit is set and its data stay as found; it is
handled by its class, and a clap, the counters and the interrupt follow, on the column of physical tile c, from which it was read.
kind: 0 scrubber, 1 demand read, 2 copy. -/
def State.newPoisonFrom (s : State) (c l p : Nat) (clay : Bool) (line kind : Nat) : State :=
  let s := s.onMem (fun m => m.setPoison clay (memKey clay p 0 / 64 + line) true)
  let r := s.regionOf l clay line
  let s := if r.1 = 1 then s.staleAppend (mkAddr s.chipId.toNat (if clay then 1 else 0) l (64 * line)) r.2.2 kind
           else if r.1 = 2 then s.contextPoison l clay line else s
  s.poisonNoted l c clay line r.1

/-- A line of logical tile l, at physical tile p, is newly poisoned where it stands. -/
def State.newPoison (s : State) (l p : Nat) (clay : Bool) (line kind : Nat) : State := s.newPoisonFrom p l p clay line kind

/-! ### Reading lines -/

/-- What a read of a line finds. -/
inductive LineSt where
  | good | corrected | unwritten | unwrErr | poisoned
deriving DecidableEq, Repr

/-- Read-check one line for logical tile l held by p: column faults, the written bit and UNWR_ERR, poison, and SECDED
(R430, R431, R436, R452), with the counters each outcome counts. kind names the reader for a stale entry. -/
def State.checkLine (s0 : State) (l p : Nat) (clay : Bool) (line kind : Nat) : State × LineSt :=
  let g := memKey clay p 0 / 64 + line
  let s := (s0.wakeBanks p clay (64 * line) 64).metaFix clay g
  if clay && s.colRefuses p line then (s.onTile p (·.countBy Reg.POISON_READS 1), .poisoned)
  else if !s.mem.written clay g then
    (s.onTile p (·.countBy Reg.UNWRITTEN_READS 1), if (s.regionOf l clay line).2.1 then .unwrErr else .unwritten)
  else if s.mem.poison clay g then (s.onTile p (·.countBy Reg.POISON_READS 1), .poisoned)
  else
    let errs := (List.range 8).map (fun i => s.mem.err clay (8 * g + i))
    if errs.any (· == 2) then ((s.newPoison l p clay line kind).onTile p (·.countBy Reg.POISON_READS 1), .poisoned)
    else if errs.any (· == 1) then
      let n := errs.count 1
      let s := s.onMem (fun m => (List.range 8).foldl (fun m i => m.setErr clay (8 * g + i) 0) m)
      let s := if clay then s.columnCorrected p line n else s.onTile p (·.countBy Reg.CORRECTED n)
      (s, .corrected)
    else (s, .good)

/-- What a read of several bytes found: any line poisoned, any in error for being unwritten, any unwritten, any corrected. -/
structure ReadSt where
  poisoned  : Bool
  unwrErr   : Bool
  unwritten : Bool
  corrected : Bool
deriving DecidableEq, Repr

/-- Nothing found yet. -/
def ReadSt.none : ReadSt := { poisoned := false, unwrErr := false, unwritten := false, corrected := false }

/-- Add what one line showed. -/
def ReadSt.add (r : ReadSt) : LineSt → ReadSt
  | .good => r
  | .corrected => { r with corrected := true }
  | .unwritten => { r with unwritten := true }
  | .unwrErr => { r with unwrErr := true }
  | .poisoned => { r with poisoned := true }

/-- Read n bytes at offset o of logical tile l's SRAM or clay: the lines are checked in order, then the bytes are read. -/
def State.readMem (s : State) (l : Nat) (clay : Bool) (o n kind : Nat) : State × ReadSt × List Byte :=
  let p := s.physOf l
  let r := (linesOf o n).foldl (fun (a : State × ReadSt) line =>
    let c := a.1.checkLine l p clay line kind
    (c.1, a.2.add c.2)) (s, ReadSt.none)
  (r.1, r.2, r.1.mem.bytes clay (memKey clay p o) n)

/-- Whether a range touches a poisoned line only in part, so that a write of it is refused (R73), and the read half of a
read-modify-write: part of a written 64-bit word in error is checked as a read of its line (R95, R431). -/
def State.partialWrite (s : State) (l : Nat) (clay : Bool) (o n : Nat) : State × Bool :=
  let p := s.physOf l
  (linesOf o n).foldl (fun (a : State × Bool) line =>
    let g := memKey clay p 0 / 64 + line
    let whole := decide (o ≤ 64 * line) && decide (64 * line + 64 ≤ o + n)
    if clay && a.1.colRefuses p line then (a.1, true)
    else if whole then a
    else if (a.1.metaFix clay g).mem.poison clay g then (a.1.metaFix clay g, true)
    else
      let a := (a.1.metaFix clay g, a.2)
      let cut := (List.range 8).any (fun i =>
        let w := 64 * line + 8 * i
        decide (w < o + n) && decide (o < w + 8) && !(decide (o ≤ w) && decide (w + 8 ≤ o + n)) && a.1.mem.err clay (8 * g + i) != 0)
      if cut && a.1.mem.written clay g then
        let c := a.1.checkLine l p clay line 1
        (c.1, a.2 || c.2 == .poisoned)
      else a) (s.wakeBanks p clay o n, false)

end Sys2Proof.Machine
end

