-- ==== Sys2Proof/Machine/Issue.lean ====
section
/-! DEFINITION. How a unit issues an operation into the fabric, and how one that fails there is answered (R33, R36, R47, R65, R76, R81, R235). -/

namespace Sys2Proof.Machine

/-! ### Issue into the fabric -/

/-- EPOCH_TABLE entry of this chip for a target chip and tile (R36). -/
def State.epochEntry (s : State) (chip tile : Nat) : Nat :=
  wfld (s.rd (Reg.EPOCH_TABLE ((256 * chip + tile) / 4))) (8 * ((256 * chip + tile) % 4) + 7) (8 * ((256 * chip + tile) % 4))

/-- Why a request fails at issue, if it does (R33, R47, R76): no route 0x04, no usable link 0x08, a retired target 0x07. -/
def State.issueError (s : State) (a : Addr) : Option Nat :=
  if Addr.chip a = s.chipId.toNat then
    if Addr.space a ≠ 3 ∧ s.mapState (Addr.tile a) = 3 then some 0x07 else none
  else
    let w := s.rd (Reg.ROUTE (Addr.chip a))
    if !(wbit w 3 || wbit w 9 || wbit w 15) then some 0x04 else if !(wbit w 21) then some 0x08 else none

/-- The request with the epoch its chip's directory gives the target; none for space 0b11 (R36, R37). -/
def State.stampEpoch (s : State) (r : ReqFlit) : ReqFlit :=
  { r with epoch := if Addr.space r.addr = 3 then 0 else BitVec.ofNat 8 (s.epochEntry (Addr.chip r.addr) (Addr.tile r.addr)) }

/-- The response the fabric gives an acknowledged request that fails before it is applied. -/
def failResp (r : ReqFlit) (epoch status : Nat) : RespFlit :=
  { prio := r.prio, epoch := BitVec.ofNat 8 epoch, status := BitVec.ofNat 8 status, flags := 0, tag := r.tag, dstChip := r.srcChip,
    dstTile := r.srcTile, dstUnit := r.srcUnit, data0 := 0, aux := 0, payload := [] }

/-- The EPOCH of a response (R74): the target tile's current epoch; 0 for space 0b11, and (DESIGN CHOICE, log entry 73) for a tile of another
chip, whose current epoch this chip does not hold. -/
def State.respEpoch (s : State) (a : Addr) : Nat :=
  if Addr.space a = 3 ∨ Addr.chip a ≠ s.chipId.toNat then 0 else s.epochOf (Addr.tile a)

/-- Whether this chip can route a flit towards a chip: it is this chip, or a route to it is FOUND (R694). -/
def State.routed (s : State) (c : BitVec 4) : Bool := c == s.chipId || s.bit (Reg.ROUTE c.toNat) 21

/-- Put a response on its way; one that cannot be routed is discarded (R694). -/
def State.respond (s : State) (r : RespFlit) : State :=
  { s with fab := { s.fab with resps := s.fab.resps ++ if s.routed r.dstChip then [r] else [] } }

/-- What names a target in the posted counts: its chip, whether it is a chip block, and its tile or block. -/
def targetKey (a : Addr) : Nat := 512 * Addr.chip a + (if Addr.space a = 3 then 256 else 0) + Addr.tile a

/-- The posted request counts of an issuer at a target: add to what is owed (R81). -/
def State.owe (s : State) (r : ReqFlit) (applied failed : Nat) : State :=
  let i : IssuerId := { chip := r.srcChip, tile := r.srcTile, unit := r.srcUnit, owner := r.owner, prio := r.prio }
  let k := targetKey r.addr
  let hit : Owed → Bool := fun o => o.issuer == i && o.target == k
  let ow := if s.fab.owed.any hit then s.fab.owed.map (fun o => if hit o then { o with applied := o.applied + applied, failed := o.failed + failed } else o)
            else s.fab.owed ++ [{ issuer := i, target := k, applied := applied, failed := failed, since := s.now }]
  { s with fab := { s.fab with owed := ow } }

/-- A request that fails where no tile applies it: the acknowledged form gets its response, the posted form is counted in
XLATE_ERRORS and reported failed (R47), without a notice, which R84 has a target send (DESIGN CHOICE, log entry 84). -/
def State.failAtIssue (s : State) (r : ReqFlit) (e : Nat) : State :=
  if r.ack then s.respond (failResp r (s.respEpoch r.addr) e) else (s.count Reg.XLATE_ERRORS).owe r 0 1

/-- The priority a request travels at (R50). -/
def effPrio (p : BitVec 2) : BitVec 2 := if p = 3 then 1 else p

/-- Whether a unit code names a unit of a tile; the others are chip blocks and the host port (Table 2.9). -/
def tileUnit (u : BitVec 4) : Bool := decide (u.toNat < 8)

/-- The issuer of a request: 16 × tile + unit. -/
def issuerKey (r : ReqFlit) : Nat := 16 * r.srcTile.toNat + r.srcUnit.toNat

/-- Whether an operation that a fence names is still under way. -/
def State.markLive (s : State) (m : FenceMark) : Bool :=
  if 16 * 0xFF + 8 = m.key then s.host.out.any (fun o => o.seq == m.seq)
  else if 16 * 0xFF + 8 < m.key then s.fab.blockOut.any (fun o => 16 * 0xFF + o.unit == m.key && o.seq == m.seq)
  else (s.ltile (m.key / 16)).out.any (fun o => o.unit == m.key % 16 && o.seq == m.seq)

/-- Whether a route fence holds an issuer at a priority (R551). -/
def State.fenced (s : State) (key : Nat) (prio : BitVec 2) : Bool :=
  s.fab.fence.any (fun m => m.key == key && m.prio == prio && s.markLive m)

/-- A TAG that no acknowledged operation of a chip block carries and that none failed within the last 1 ms carried (R548). -/
def State.blockTag (s : State) : Option Nat :=
  ((List.range 1024).map (fun k => (s.fab.blockSeq + k) % 1024)).find? (fun k =>
    !s.fab.blockOut.any (fun o => o.acked && o.tag.toNat == k) && !s.fab.late.any (fun e => e.1 == k && decide (s.now < e.2)))

/-- Send a request that found its route: an acknowledged one of a chip block gets its TAG, and it or one to another chip is kept count of. -/
def State.launch (s : State) (r0 : ReqFlit) : State :=
  let mine := decide (8 < r0.srcUnit.toNat)
  let r := if mine && r0.ack then { r0 with tag := BitVec.ofNat 10 (s.blockTag.getD 0) } else r0
  let fab := { s.fab with inflight := s.fab.inflight ++ [r] }
  if !mine || (!r.ack && Addr.chip r.addr == s.chipId.toNat) then { s with fab := fab }
  else
    let o : BlockOut := { unit := r.srcUnit.toNat, seq := fab.blockSeq, acked := r.ack, prio := r.prio, tag := r.tag, target := targetKey r.addr, req := r }
    { s with fab := { fab with blockSeq := fab.blockSeq + 1, blockOut := fab.blockOut ++ [o] } }

/-- The request VC of a priority (Table 2.15): 0 urgent, 2 normal, 4 bulk. -/
def prioVc (p : BitVec 2) : Nat := if p = 3 then 2 else 2 * p.toNat

/-- The flits of a request: its header and its payload (Table 2.10). -/
def reqFlits (r : ReqFlit) : Nat := 1 + (r.payload.length + 15) / 16

/-- The flits of requests on a VC. -/
def flitsOn (rs : List ReqFlit) (vc : Nat) : Nat := ((rs.filter (fun r => prioVc r.prio == vc)).map reqFlits).sum

/-- Whether a packet other than r's has part of its flits on the way to r's target on r's VC: the VC is its own until its last flit. -/
def State.partWay (s : State) (r : ReqFlit) : Bool :=
  s.tiles.any (fun kv => match kv.2.router.find? (fun q => prioVc q.prio == prioVc r.prio) with
    | some q => q != r && targetKey q.addr == targetKey r.addr && decide (0 < spGet (fun _ => 0) kv.2.moved (prioVc r.prio))
    | none => false)

/-- Whether a request to a tile of this chip finds no place on its way: the 8 flits of the tile's ingress and the 4 of the last hop before it
hold requests of the VC, or another packet is on its way there flit by flit (R235). The spec gives the mesh no shape, and the model counts one
hop (DESIGN CHOICE, log entry 73). -/
def State.meshFull (s : State) (r : ReqFlit) : Bool :=
  Addr.chip r.addr == s.chipId.toNat && Addr.space r.addr != 3 &&
  (decide (12 ≤ flitsOn (s.fab.inflight.filter (fun q => targetKey q.addr == targetKey r.addr)) (prioVc r.prio)) || s.partWay r)

/-- Whether a chip block's request must wait: for a route fence, for a place on its way to a tile of this chip, or for a TAG (R235, R548, R551). -/
def State.blockHeld (s : State) (r : ReqFlit) : Bool :=
  (Addr.chip r.addr != s.chipId.toNat && s.fenced (issuerKey r) r.prio) || s.meshFull r || (r.ack && s.blockTag.isNone)

/-- Whether requests are of one issuer and one priority. -/
def sameSource (a b : ReqFlit) : Bool := issuerKey a == issuerKey b && a.prio == b.prio

/-- Issue a request from a unit that is not a tile's interface, or that needs no injection credit: it is stamped, and either fails
at issue or goes on its way, once nothing holds it or one of its source before it (R33, R36, R47, R235, R551). -/
def State.issue (s : State) (r0 : ReqFlit) : State :=
  let r := s.stampEpoch r0
  match s.issueError r.addr with
  | some e => s.failAtIssue r e
  | none =>
    if 8 < r.srcUnit.toNat ∧ (s.blockHeld r ∨ s.fab.waiting.any (sameSource r)) then { s with fab := { s.fab with waiting := s.fab.waiting ++ [r] } }
    else s.launch r

/-- Flits of a VC that have left the tile's interface or still wait in it: those of the requests it has accepted, less those of the oldest that
the router has moved on. -/
def Tile.waitingFlits (t : Tile) (vc : Nat) : Nat := flitsOn t.router vc - spGet (fun _ => 0) t.moved vc

/-- Whether the interface of a tile still holds an injection credit for a request VC: fewer than the 4 flits of the local input's buffer
wait there (R235). -/
def Tile.canInject (t : Tile) (prio : BitVec 2) : Bool := decide (t.waitingFlits (prioVc prio) < 4)

/-- Whether logical tile l itself is the target: the interface serves it without entering the mesh. -/
def State.selfServed (s : State) (l : Nat) (a : Addr) : Bool :=
  Addr.chip a == s.chipId.toNat && Addr.space a != 3 && Addr.tile a == l

/-- Issue a request from logical tile l's interface: it fails at issue, or is served locally when it addresses the tile itself, or
is injected into the local input of the tile's router (R235). -/
def State.issueTile (s : State) (l : Nat) (r0 : ReqFlit) : State :=
  let r := s.stampEpoch r0
  match s.issueError r.addr with
  | some e => s.failAtIssue r e
  | none =>
    if s.selfServed l r.addr then
      { s with fab := { s.fab with inflight := s.fab.inflight ++ [r] } }
    else s.onL l (fun t => { t with router := t.router ++ [r] })

/-- Whether two requests travel the same way: one issuer, one priority, one target (R68). -/
def sameLane (a b : ReqFlit) : Bool :=
  a.srcChip == b.srcChip && a.srcTile == b.srcTile && a.srcUnit == b.srcUnit && effPrio a.prio == effPrio b.prio && targetKey a.addr == targetKey b.addr

/-- The relocation of a logical tile. -/
def State.relocOf (s : State) (l : Nat) : Option Reloc := s.fab.relocs.find? (fun c => c.logical == l)

/-- Whether a tile that is being relocated must not take a request yet: while the final pass is on, and behind requests that still come
forwarded from the old tile (R88). -/
def State.mustHold (s : State) (l : Nat) (r : ReqFlit) : Bool :=
  match s.relocOf l with
  | some c => c.holding || (!c.fwd.contains r && c.fwd.any (fun f => f.srcChip == r.srcChip && f.srcTile == r.srcTile && f.srcUnit == r.srcUnit && effPrio f.prio == effPrio r.prio))
  | none => false

/-- A request flit from its fields; ANY_EPOCH is 0 for all but the host port and the management core (R38). -/
def mkReq (s : State) (op : Nat) (ack : Bool) (prio : Nat) (addr : Addr) (size type : Nat) (srcTile srcUnit : Nat) (arg0 : Word)
    (payload : List Byte) : ReqFlit :=
  { op := BitVec.ofNat 5 op, ack := ack, anyEpoch := false, notice := false, prio := BitVec.ofNat 2 prio, epoch := 0, addr := addr,
    size := BitVec.ofNat 4 size, type := BitVec.ofNat 3 type, tag := 0, srcChip := s.chipId, srcTile := BitVec.ofNat 8 srcTile,
    srcUnit := BitVec.ofNat 4 srcUnit, arg0 := arg0, payload := payload, owner := 0 }

end Sys2Proof.Machine
end

