-- ==== Sys2Proof/Machine/Break.lean ====
section
/-! DEFINITION. Streams as the contract unit holds them, WAKE pins, and the breaking of a contract (R329 to R332). -/

namespace Sys2Proof.Machine

/-! ### Streams -/

/-- Stream states of Table 8.3. -/
abbrev stFree : Nat := 0
abbrev stRegistered : Nat := 1
abbrev stActivating : Nat := 2
abbrev stActive : Nat := 3
abbrev stDraining : Nat := 4
abbrev stSuspended : Nat := 5

/-- What the contract unit holds of entry e. -/
def State.run (s : State) (e : Nat) : StreamRun := spGet (fun _ => StreamRun.reset) s.cu.runs e

/-- The state with entry e's hidden state replaced. -/
def State.setRun (s : State) (e : Nat) (r : StreamRun) : State := { s with cu := { s.cu with runs := spSet (fun _ => StreamRun.reset) s.cu.runs e r } }

/-- The state with entry e's hidden state changed. -/
def State.onRun (s : State) (e : Nat) (f : StreamRun → StreamRun) : State := s.setRun e (f (s.run e))

/-- Set STAT.STATE. -/
def State.setStr (s : State) (e v : Nat) : State := s.setFld (Reg.STAT e 0) 2 0 v

/-- Whether frames of entry e are served: ACTIVATING, ACTIVE or DRAINING. -/
def State.strServed (s : State) (e : Nat) : Bool :=
  s.strState e == stActivating || s.strState e == stActive || s.strState e == stDraining

/-- STAT.BROKEN. -/
def State.broken (s : State) (e : Nat) : Bool := s.bit (Reg.STAT e 0) 3

/-- DESC.CLASS. -/
def State.strClass (s : State) (e : Nat) : Nat := s.desc e 0x0C 24 2

/-- The hop in µs; code 3 is reserved. -/
def State.hopUs (s : State) (e : Nat) : Nat := 5000 * 2 ^ s.desc e 0x0C 26 2

/-- The deadline in µs: none for class 3, the class default for 0 (Table 8.4). -/
def State.deadline (s : State) (e : Nat) : Option Nat :=
  if s.strClass e = 3 then none
  else
    let d := s.desc e 0x10 0 32
    some (if d ≠ 0 then d else if s.strClass e = 0 then 6000 else if s.strClass e = 1 then 20000 else 100000)

/-- The stream id of entry e on this chip (R303). -/
def State.streamId (s : State) (e : Nat) : Nat := s.chipId.toNat * 2048 + e

/-! ### WAKE pins (R332, Table 8.18) -/

/-- Whether an operation to a chip finds a usable route. -/
def State.reaches (s : State) (chip : Nat) : Bool := chip == s.chipId.toNat || s.bit (Reg.ROUTE chip) 21

/-- Assert WAKE[n] of this chip: low while ENABLE = 0; a pulse starts, or starts again. -/
def State.assertWake (s : State) (n : Nat) : State :=
  if s.bit Reg.WAKE_CTRL 20 then
    let s := s.setBit Reg.WAKE_CTRL (8 + n) true
    let t : Option Nat := if s.bit Reg.WAKE_CTRL n then none else some (s.now + 1000 * (s.fld Reg.WAKE_CTRL 19 16 + 1))
    { s with pins := { s.pins with wakeEnd := spSet (fun _ => none) s.pins.wakeEnd n t } }
  else s

/-- Release WAKE[n]. -/
def State.releaseWake (s : State) (n : Nat) : State :=
  { s.setBit Reg.WAKE_CTRL (8 + n) false with pins := { s.pins with wakeEnd := spSet (fun _ => none) s.pins.wakeEnd n none } }

/-- The offset in block 0x04 of another chip that a write asserting a WAKE pin there goes to; the spec gives the block, and the model one of its
last unassigned offsets (DESIGN CHOICE, log entry 75). -/
abbrev wakeOffset : Nat := 0xFFFFC

/-- A stream asserts its WAKE pin, here or by an urgent write to block 0x04 of another chip, and a clap with cause WAKE is noted; the answer is
whether it did. -/
def State.streamWake (s : State) (e : Nat) : State × Bool :=
  let chip := s.desc e 0x1C 4 4
  let n := s.desc e 0x1C 1 3
  if chip = s.chipId.toNat then
    if s.bit Reg.WAKE_CTRL 20 then ((s.assertWake n).noteClap 5, true) else (s, false)
  else if s.reaches chip then
    ((s.issue (mkReq s 2 false 0 (mkAddr chip 3 4 wakeOffset) 2 0 0xFF 9 (wd n) [])).noteClap 5, true)
  else (s, false)

/-- Whether entry e is a class-0 stream that drives a WAKE pin. -/
def State.wakes (s : State) (e : Nat) : Bool := s.strClass e == 0 && s.desc e 0x1C 0 1 == 1

/-! ### Breaking a contract (R329, Table 8.13) -/

abbrev brTileLost : Nat := 1
abbrev brCoverage : Nat := 2
abbrev brPowerCap : Nat := 3
abbrev brClock : Nat := 4
abbrev brRepeatedMiss : Nat := 5
abbrev brThreadFault : Nat := 6
abbrev brSourceLost : Nat := 7
abbrev brLinkLost : Nat := 8
abbrev brHost : Nat := 9

/-- Break the contract of entry e with a cause; a stream without a contract has none to break. -/
def State.breakStream (s : State) (e code : Nat) : State :=
  if s.strState e = stFree ∨ s.strState e = stRegistered then s
  else
    let k := Reg.STAT e 0
    let first := !s.broken e
    let s := (s.setBit k 3 true).setBit k (16 + code) true
    let s := s.setFld k 15 8 (((List.range 16).find? (fun c => s.bit k (16 + c))).getD 0)
    let s := s.setBit (Reg.BROKEN_MAP (e / 32)) (e % 32) true
    if first then
      let s := (((s.count Reg.BREAKS).raiseInt 1).noteClap 3).logEvent 5 2 (wd (s.streamId e + code * 2 ^ 24))
      if s.wakes e && s.desc e 0x1C 9 1 == 1 then (s.streamWake e).1 else s
    else s

/-- Break every stream of this chip that meets a condition. -/
def State.breakAll (s : State) (code : Nat) (p : Nat → Bool) : State :=
  (s.liveStreams.filter p).foldl (fun s e => s.breakStream e code) s

end Sys2Proof.Machine
end

