-- ==== Sys2Proof/Machine/Report.lean ====
section
/-! DEFINITION. What the tiles and their memories report to the contract unit: thread faults (R121), errors of pinned accumulator banks
(R442); which home threads and records a swap or a context reset keeps back (R258, R440). -/

namespace Sys2Proof.Machine

/-- Thread t of logical tile l has faulted: the contracts it serves break with THREAD_FAULT. -/
def State.reportFault (s : State) (l t : Nat) : State :=
  s.breakAll brThreadFault (fun e => s.inHome e l && s.desc e 0x20 12 2 == t)

/-- An uncorrectable error was found in pinned accumulator bank b of logical tile l: the resident stream's context is reset at its next
frame end, or, when the stream is not served, at its next swap-in. -/
def State.accPoison (s : State) (l b : Nat) : State :=
  match s.liveStreams.find? (fun e => let r := s.run e; r.pinTile == l && decide (r.pinBank ≤ b) && decide (b < r.pinBank + r.pinBanks)) with
  | none => s
  | some e => s.contextLost e none

/-- Read accumulator entry e: a correctable error is corrected and counted, an uncorrectable one of a pinned bank is reported
(R442), and the answer says that there was one. -/
def State.accCheck (s : State) (l e : Nat) : State × Bool :=
  let t := s.ltile l
  let er := spGet (fun _ => 0) t.accErr e
  if er = 1 then (s.onL l (fun t => { t.countBy Reg.CORRECTED 1 with accErr := spSet (fun _ => 0) t.accErr e 0 }), false)
  else if er = 2 ∧ t.bit Reg.MM_CFG (e / 512) then (s.accPoison l (e / 512), true)
  else (s, false)

/-- Whether thread i of logical tile l is kept from being dispatched: it serves only streams whose swap-in has not completed (R258), or one of
its streams has a context reset to be done first (R440). A thread that another of its streams keeps in service is not kept back
(DESIGN CHOICE, log entry 75). -/
def State.homeHeld (s : State) (l i : Nat) : Bool :=
  let mine := s.liveStreams.filter (fun e => (s.run e).bound && s.inHome e l && s.desc e 0x20 12 2 == i)
  let swapping : Nat → Bool := fun e => s.strState e == stActivating && ((s.run e).swap == .inWaiting || (s.run e).swap == .inCopied)
  (mine.any swapping && mine.all (fun e => swapping e || s.strState e == stSuspended)) ||
  s.integ.due.any (fun d => d.ripe && mine.contains d.entry)

/-- Whether a swap in progress keeps n bytes from offset o of logical tile l's clay from being written (R258). -/
def State.recordBusy (s : State) (l o n : Nat) : Bool :=
  s.liveStreams.any (fun e =>
    let a := s.descAddr e 0x24
    (s.run e).swap == .inCopied && Addr.tile a == l && decide (Addr.off a < o + n) && decide (o < Addr.off a + 0x8000))

end Sys2Proof.Machine
end

