-- ==== Sys2Proof/Machine/Clap.lean ====
section
/-! DEFINITION. Claps: causes and slots, the CLAP net, snapshots and hold mode (R559 to R573, R155). -/

namespace Sys2Proof.Machine

/-! ### What a snapshot copies (Table 16.5, R155) -/

/-- An index of a range of words, when an offset is one of them. -/
def wordOf (o base n : Nat) : Option Nat := if base ≤ o ∧ o < base + 4 * n then some (o - base) else none

/-- The offset in the snapshot area of the counter at offset o of a chip block, when every clap latches it. -/
def snapOffset (blk o : Nat) : Option Nat :=
  let at' (base n dst : Nat) : Option Nat := (wordOf o base n).map (· + dst)
  match blk with
  | 0 => at' 0x210 18 0x10000
  | 1 =>
    if 0x2000 ≤ o ∧ o < 0x3000 then (if o % 32 = 0x1C then some (0x10400 + (o - 0x2000) / 32 * 4) else none)
    else (((at' 0x20 3 0x10100).orElse fun _ => at' 0x5000 64 0x10200).orElse fun _ => at' 0x5100 8 0x10300)
  | 2 => ((at' 0x20 4 0x10600).orElse fun _ => at' 0x120 4 0x10610).orElse fun _ => at' 0x440 1 0x10620
  | 3 => (at' 0x10 3 0x10700).orElse fun _ => at' 0x50 3 0x10710
  | 4 => at' 0x10 6 0x10800
  | 5 => at' 0x20000 8192 0x20000
  | 6 => at' 0x10 1 0x10900
  | 7 => at' 0x200C 2 0x10904
  | 10 => at' 0x100 11 0x12000
  | 11 => at' 0x100 7 0x12400
  | 12 => at' 0x100 7 0x12800
  | 13 =>
    if 0x1000 ≤ o ∧ o < 0x1800 then (if 0x20 ≤ o % 256 ∧ o % 256 < 0x60 then some (0x10A40 + 0x40 * ((o - 0x1000) / 256) + (o % 256 - 0x20)) else none)
    else at' 0x20 3 0x10A00
  | 14 => at' 0x80020 8 0x10E00
  | 15 => at' 0x100 2 0x12C00
  | _ => none

/-- The chip-bank key of a block register at an offset. -/
def blockKey (blk o : Nat) : Nat := 0x100000 * (blk + 1) + o

/-- The words of the snapshot area for the registers as they stand. -/
def State.snapWords (s : State) : List (Nat × Word) :=
  s.regs.filterMap (fun kv =>
    if 0x100000 ≤ kv.1 then (snapOffset (kv.1 / 0x100000 - 1) (kv.1 % 0x100000)).map (fun o => (o, kv.2)) else none) ++
  (List.range 256).flatMap (fun t =>
    [(0x11000 + 8 * t, (s.col (s.physOf t)).corrected), (0x11004 + 8 * t, (s.col (s.physOf t)).poisoned)])

/-- Whether physical tile p is without power: LISTEN gates rows 0 to 14. -/
def State.tileGated (s : State) (p : Nat) : Bool := s.pwr.gated && decide (p < 255)

/-- A tile's own snapshot (R155). -/
def Tile.snapshot (t : Tile) (stamp : Nat) : Tile :=
  let t := (List.range 18).foldl (fun t i => t.wr (Reg.SNAPSHOT i) (t.rd (0x1000 + 4 * i))) t
  (t.wr Reg.SNAP_STAMP_LO (wd stamp)).wr Reg.SNAP_STAMP_HI (wd (stamp / 2 ^ 32))

/-- Take a snapshot: the area of block 0x08, and every tile that holds a role and has power, each with the stamp (R567 to R569). -/
def State.snapshot (s : State) (stamp : Nat) : State :=
  let ws := s.snapWords
  let s : State := { s with regs := s.regs.filter (fun kv => kv.1 < blockKey 8 0x10000 || blockKey 8 0x28000 ≤ kv.1) }
  let s := ws.foldl (fun s ow => s.wr (blockKey 8 ow.1) ow.2) s
  (List.range 256).foldl (fun s l =>
    let p := s.physOf l
    if s.mapState l = 3 ∨ s.tileGated p then s else s.onTile p (fun t => (t.wake).snapshot stamp)) s

/-! ### Taking a clap (R560 to R563, R571, R573) -/

/-- A clap takes its snapshot. -/
def State.clapLatch (s : State) (causes stamp : Nat) : State :=
  let t := s.now
  let s : State := { s with clap := { s.clap with latched := true, latchAt := some t, missed := none } }
  let s := (s.wr Reg.CLAP_CAUSE (wd causes)).upd Reg.CLAP_COUNT (· + 1)
  let s := (s.wr Reg.CLAP_STAMP_LO (wd stamp)).wr Reg.CLAP_STAMP_HI (wd (stamp / 2 ^ 32))
  let s := if s.bit Reg.CLAP_CTRL 2 then s.setBit Reg.CLAP_CTRL 3 true else s
  (s.snapshot stamp).raiseInt 10

/-- A clap that finds a snapshot held is missed: once for its slot (R571). -/
def State.clapMissed (s : State) (causes stamp : Nat) : State :=
  let pend (s : State) : State := s.upd Reg.CLAP_CTRL (fun w => w ||| wd (causes * 2 ^ 16))
  if s.clap.slot = some stamp ∧ s.clap.latched = false then
    pend { s with clap := { s.clap with missed := s.clap.missed.map (fun m => (m.1, m.2.1 ||| causes, m.2.2)) } }
  else
    let s : State := { s with clap := { s.clap with slot := some stamp, latched := false, missed := some (s.now, causes, stamp) } }
    pend (s.setFld Reg.CLAP_CTRL 15 8 (min 255 (s.fld Reg.CLAP_CTRL 15 8 + 1)))

/-- A clap with its causes (a mask) and stamp, in the present tick: counted by cause; missed while a snapshot is held; else a second clap of a slot
joins the first one's snapshot. -/
def State.takeClap (s : State) (causes stamp : Nat) : State :=
  let s := (List.range 7).foldl (fun s n => if causes.testBit n then s.count (Reg.CAUSE_COUNT n) else s) s
  if s.bit Reg.CLAP_CTRL 3 then s.clapMissed causes stamp
  else if s.clap.slot = some stamp ∧ s.clap.latched then s.upd Reg.CLAP_CAUSE (· ||| wd causes)
  else State.clapLatch { s with clap := { s.clap with slot := some stamp } } causes stamp

/-- The tick a cause noted in tick k is taken at: the first after k that is 1 modulo 4. -/
def clapTick (k : Nat) : Nat := k + 1 + (4 - k % 4) % 4

/-- CLAP_TAKE: once the tick of the oldest noted cause has come, every cause of that tick is taken in one clap, and the net is pulled. -/
def State.clapTake (s : State) : State :=
  match s.clap.noted with
  | [] => s
  | c :: cs =>
    let k := cs.foldl (fun a d => min a (clapTick d.2)) (clapTick c.2)
    if s.now < k then s
    else
      let mine := s.clap.noted.filter (fun d => clapTick d.2 == k)
      let mask := (List.range 7).foldl (fun a n => if mine.any (fun d => d.1 == n) then a + 2 ^ n else a) 0
      let s : State := { s with clap := { s.clap with noted := s.clap.noted.filter (fun d => clapTick d.2 != k) } }
      let s := if s.bit Reg.CLAP_CTRL 4 then
          State.upd { s with clap := { s.clap with pulled := some (k - 1), lowAt := s.clap.lowAt.orElse (fun _ => some s.now) } } Reg.NET_STATUS
            (fun w => wSetBit (wSetBit w 0 false) 1 true)
        else s
      s.takeClap mask (k - 1)

/-- CLAP_NET_RELEASE: at the next tick the originator lets the net go, which rises when nothing else pulls it: CLAP_NET_HIGH tells of the rise. -/
def State.clapRelease (s : State) : State :=
  match s.clap.pulled with
  | some t0 =>
    if s.bit Reg.NET_STATUS 1 && decide (t0 + 2 ≤ s.now) then
      s.setBit Reg.NET_STATUS 1 false
    else s
  | none => s

/-- CLAP_NET_FALL: the net has been low for 50 ns, which LEVEL shows at any time. A fall the device may not detect is ignored and counted; one in a
slot in which it pulled the net itself is its own; any other is a clap with cause PIN (R562, R563, R565). -/
def State.clapNetFall (s : State) : State :=
  let s : State := { s with clap := { s.clap with lowAt := s.clap.lowAt.orElse (fun _ => some s.now) } }
  let s := s.setBit Reg.NET_STATUS 0 false
  if !s.ready then s
  else
    let own := s.clap.pulled == some (s.now - s.now % 4)
    if s.bit Reg.NET_STATUS 2 || !s.clap.armed then s.count Reg.NET_IGNORED
    else
      let s : State := { s with clap := { s.clap with armed := false } }
      if own || !s.bit Reg.CLAP_CTRL 24 then s else s.takeClap 1 (s.now - s.now % 4)

/-- CLAP_NET_STUCK: a net low for more than 3 µs. -/
def State.clapStuck (s : State) : State :=
  match s.clap.lowAt with
  | some t => if decide (t + 3 < s.now) then s.setBit Reg.NET_STATUS 2 true else s
  | none => s

/-- CLAP_NET_HIGH: the net has been high for so many µs: after 1 a fall may be detected again, after 2 STUCK clears (R562). -/
def State.clapNetHigh (s : State) (us : Nat) : State :=
  let s : State := { s with clap := { s.clap with lowAt := none, armed := s.clap.armed || decide (1 ≤ us) } }
  let s := s.setBit Reg.NET_STATUS 0 true
  if 2 ≤ us then s.setBit Reg.NET_STATUS 2 false else s

/-! ### CLAP_CTRL (Table 14.16) -/

/-- RELEASE: HELD, MISSED and PENDING clear (R572). What claps of this very tick have done is done after it (R573): a snapshot taken stays held, and a
clap that was missed takes its snapshot, or is missed for the one that stays held. -/
def State.clapCtrlRelease (s : State) : State :=
  let m := s.clap.missed
  let again := s.clap.latchAt == some s.now
  let s : State := { s with clap := { s.clap with missed := none } }
  let s := s.upd Reg.CLAP_CTRL (fun w => wSetFld (wSetFld (wSetBit w 3 (wbit w 3 && again)) 15 8 0) 22 16 0)
  match m with
  | some (k, causes, stamp) =>
    if k ≠ s.now then s
    else if again then State.clapMissed { s with clap := { s.clap with slot := none } } causes stamp
    else s.clapLatch causes stamp
  | none => s

/-- A write of CLAP_CTRL: the fields, then RELEASE, then CLAP. -/
def State.clapCtrlWrite (s : State) (v : Word) : State :=
  let s := s.upd Reg.CLAP_CTRL (fun w => (w &&& 0x7FFF08#32) ||| (v &&& 0x7F000014#32))
  let s := if wbit v 1 then s.clapCtrlRelease else s
  if wbit v 0 then s.noteClap 1 else s

/-! ### Commands -/

/-- CLAP_TAKE. -/
def execClapTake (s : State) : Host.Outcome State Fault Refusal := .next s.clapTake
/-- CLAP_NET_RELEASE. -/
def execClapNetRelease (s : State) : Host.Outcome State Fault Refusal := .next s.clapRelease
/-- CLAP_NET_FALL. -/
def execClapNetFall (s : State) : Host.Outcome State Fault Refusal := .next s.clapNetFall
/-- CLAP_NET_STUCK. -/
def execClapNetStuck (s : State) : Host.Outcome State Fault Refusal := .next s.clapStuck
/-- CLAP_CTRL.CLAP. -/
def execClapCtrlClap (s : State) : Host.Outcome State Fault Refusal := .next (s.busWrite (·.noteClap 1))
/-- CLAP_CTRL.RELEASE. -/
def execClapCtrlRelease (s : State) : Host.Outcome State Fault Refusal := .next (s.busWrite (·.clapCtrlRelease))
/-- CLAP_NET_HIGH for so many µs. -/
def execClapNetHigh (us : Nat) (s : State) : Host.Outcome State Fault Refusal := .next (s.clapNetHigh us)

end Sys2Proof.Machine
end

