-- ==== Sys2Proof/Machine/Directory.lean ====
section
/-! DEFINITION. The expert directory: RESOLVE words, coverage and what a fall of coverage leaves due (R271 to R276). -/

namespace Sys2Proof.Machine

/-- The experts of generation slot g that its coverage asks for: 0 where EXPERTS is 0 or above 64. -/
def State.slotExperts (s : State) (g : Nat) : Nat :=
  let n := s.fld (Reg.GEN_SLOT g) 22 16
  if n ≤ 64 then n else 0

/-- Link hops to a chip, when it is this one or a route to it has a link up (R272). -/
def State.hopsTo (s : State) (chip : Nat) : Option Nat :=
  if chip = s.chipId.toNat then some 0
  else if s.bit (Reg.ROUTE chip) 21 then some (s.fld (Reg.ROUTE chip) 23 22) else none

/-- The hops to instance k of expert x in slot g, when it is reachable. -/
def State.instHops (s : State) (g x k : Nat) : Option Nat :=
  let w := s.rd (Reg.INSTANCE_LO (256 * g + 4 * x + k))
  if wbit w 28 && s.bit (Reg.GEN_SLOT g) 24 then s.hopsTo (wfld w 3 0) else none

/-- The reachable instance with the fewest hops, the lowest k on a tie. -/
def State.bestInst (s : State) (g x : Nat) : Option (Nat × Nat) :=
  (List.range 4).foldl (fun b k =>
    match s.instHops g x k, b with
    | none, b => b
    | some h, none => some (k, h)
    | some h, some (k0, h0) => if h < h0 then some (k, h) else some (k0, h0)) none

/-- The RESOLVE word of expert x in slot g, low and high half. -/
def State.resolveWord (s : State) (g x : Nat) : Word × Word :=
  match s.bestInst g x with
  | none => (0, 0)
  | some (k, h) => (wd (wfld (s.rd (Reg.INSTANCE_LO (256 * g + 4 * x + k))) 27 0 + 2 ^ 28 + k * 2 ^ 29), wd h)

/-- FOUND of the RESOLVE word held. -/
def State.found (s : State) (g x : Nat) : Bool := s.bit (Reg.RESOLVE_LO (64 * g + x)) 28

/-- Whether slot g is covered by the RESOLVE words held (Table 7.3). -/
def State.coveredNow (s : State) (g : Nat) : Bool :=
  s.bit (Reg.GEN_SLOT g) 24 && decide (0 < s.slotExperts g) && (List.range (s.slotExperts g)).all (s.found g)

/-- MISSING of slot g (Table 7.6). -/
def State.missing (s : State) (g : Nat) : Nat :=
  if s.bit (Reg.GEN_SLOT g) 24 then ((List.range (min 64 (s.fld (Reg.GEN_SLOT g) 22 16))).filter (fun x => !s.found g x)).length else 0

/-- Bring COVERED and DIR_STATUS up to date; a fall of COVERED of a generation leaves a break due for each of its active streams at
their next frame boundary (R276). gen: the generation each slot held. -/
def State.coverUpdate (s : State) (gen : Nat → Nat) : State :=
  let s := (List.range 2).foldl (fun s g =>
    let fell := s.bit (Reg.GEN_SLOT g) 25 && !s.coveredNow g
    let s := s.setBit (Reg.GEN_SLOT g) 25 (s.coveredNow g)
    if fell then
      (s.liveStreams.filter (fun e => (s.strState e == stActivating || s.strState e == stActive) && s.desc e 0x0C 0 16 == gen g)).foldl
        (fun s e => s.onRun e (fun r => { r with cover := .noted })) s
    else s) s
  s.wr Reg.DIR_STATUS (wd (s.missing 0 + 2 ^ 8 * s.missing 1))

/-- RESOLVE_RECOMPUTE: every word from the instance table and the routes; DIR_VERSION counts a recomputation that changed one. -/
def State.resolveRecompute (s : State) : State :=
  let new := (List.range 128).map (fun i => (i, s.resolveWord (i / 64) (i % 64)))
  let changed := new.any (fun p => s.rd (Reg.RESOLVE_LO p.1) != p.2.1 || s.rd (Reg.RESOLVE_HI p.1) != p.2.2)
  let s := new.foldl (fun s p => (s.wr (Reg.RESOLVE_LO p.1) p.2.1).wr (Reg.RESOLVE_HI p.1) p.2.2) s
  let s := if changed then s.upd Reg.DIR_VERSION (· + 1) else s
  s.coverUpdate (fun g => s.fld (Reg.GEN_SLOT g) 15 0)

/-- A write of GEN_SLOT[g] (Table 7.3): EXPERTS and VALID change what COVERED says at once. -/
def State.genSlotWrite (s : State) (g : Nat) (v : Word) : State :=
  let old := s.rd (Reg.GEN_SLOT g)
  let s0 := s.wr (Reg.GEN_SLOT g) ((v &&& 0x17FFFFF#32) ||| (old &&& 0x2000000#32))
  s0.coverUpdate (fun h => s.fld (Reg.GEN_SLOT h) 15 0)

/-- The slot that is valid and holds a generation (R279). -/
def State.slotOf (s : State) (gen : Nat) : Option Nat :=
  (List.range 2).find? (fun g => s.bit (Reg.GEN_SLOT g) 24 && s.fld (Reg.GEN_SLOT g) 15 0 == gen)

/-- Whether a generation is held with COVERED = 1 (R275). -/
def State.genCovered (s : State) (gen : Nat) : Bool :=
  (List.range 2).any (fun g => s.bit (Reg.GEN_SLOT g) 25 && s.fld (Reg.GEN_SLOT g) 15 0 == gen)

/-- COVERAGE_BREAK: at the first frame boundary after the fall the stream breaks with COVERAGE (R276). -/
def State.coverageBreak (s : State) (e : Nat) : State :=
  if (s.run e).cover = .ripe then (s.onRun e (fun r => { r with cover := .none })).breakStream e brCoverage else s

/-- RESOLVE_RECOMPUTE. -/
def execResolveRecompute (s : State) : Host.Outcome State Fault Refusal := .next s.resolveRecompute
/-- COVERAGE_BREAK. -/
def execCoverageBreak (e : Fin 2048) (s : State) : Host.Outcome State Fault Refusal := .next (s.coverageBreak e)

end Sys2Proof.Machine
end

