-- ==== Sys2Proof/Machine/Admission.lean ====
section
/-! DEFINITION. Admission: the descriptor check (R306, R419, R429), a stream's charges, and the checks of Table 8.12 with the bounds T0
and T12 (R310 to R315, R412). -/

namespace Sys2Proof.Machine

/-! ### Descriptor (R306) -/

/-- The largest SRC_ID of a SRC_KIND; a reserved kind has none. -/
def srcIdMax (kind : Nat) : Option Nat :=
  [4095, 31, 63, 31, 255, 15, 3][kind]?

/-- The bits of descriptor word i that are no reserved bits. -/
def descMask (i : Nat) : Nat :=
  [0x7FFFF, 0xFFFFFFFF, 0xFF, 0xF3FFFFF, 0xFFFFFFFF, 0xFFFFFFFF, 0x1FF, 0x3FF, 0x3FFF, 0xFFFFFFFF, 0xFF, 0xFFFFFFFF, 0x3FFFF, 0xFFFFFFFF, 0, 0].getD i 0

/-- Whether the deadline of entry e lies in its class's range and within 32 hops. -/
def State.deadlineOk (s : State) (e : Nat) : Bool :=
  match s.deadline e with
  | none => true
  | some d =>
    let c := s.strClass e
    let lo := if c = 0 then 2000 else if c = 1 then 5000 else 20000
    let hi := if c = 0 then 20000 else if c = 1 then 100000 else 640000
    decide (lo ≤ d) && decide (d ≤ hi) && decide (d ≤ 32 * s.hopUs e)

/-- Whether an address is the first byte of a record of this chip's context pool (R427, R429). -/
def State.isRecord (s : State) (a : Addr) : Bool :=
  Addr.chip a == s.chipId.toNat && Addr.space a == 1 && Addr.off a % 0x20000 == 0 && decide (Addr.off a / 0x20000 < s.poolRecords (Addr.tile a))

/-- The byte offset of the first bad field of entry e's descriptor, if any (R304, R306, R419, R429). -/
def State.badField (s : State) (e : Nat) : Option Nat :=
  let kind := s.desc e 0 0 4
  let bad : Nat → Bool := fun i =>
    decide ((s.rd (Reg.DESC e i)).toNat &&& descMask i ≠ (s.rd (Reg.DESC e i)).toNat) ||
    (if i = 0 then
      (match srcIdMax kind with | none => true | some m => decide (m < s.desc e 0 4 12)) || (kind == 5 && s.strClass e == 0)
     else if i = 3 then s.desc e 0x0C 26 2 == 3
     else if i = 4 then !s.deadlineOk e
     else if i = 5 then s.desc e 0x18 8 1 == 0 && Addr.chip (s.descAddr e 0x14) != s.chipId.toNat
     else if i = 8 then decide (255 < s.desc e 0x20 0 8 + s.desc e 0x20 8 4)
     else if i = 9 then
      !s.isRecord (s.descAddr e 0x24) || s.liveStreams.any (fun j => j != e && s.descAddr j 0x24 == s.descAddr e 0x24)
     else if i = 12 then decide (s.desc e 0x30 0 18 % 64 ≠ 0) || decide (0x40000 < s.desc e 0x30 0 18 + 0x8000)
     else false)
  (lowestBelow 16 bad).map (4 * ·)

/-! ### A stream's demand (R312) -/

/-- An instance that the RESOLVE words name: chip, lead tile, ring line, tiles of the group less one, hops, and the lowest expert it
serves. -/
structure Inst where
  chip   : Nat
  tile   : Nat
  line   : Nat
  gm1    : Nat
  hops   : Nat
  expert : Nat
deriving DecidableEq, Repr

/-- What names an instance. -/
def Inst.key (i : Inst) : Nat × Nat × Nat := (i.chip, i.tile, i.line)

/-- The tiles of an instance. -/
def Inst.tiles (i : Inst) : List (Nat × Nat) := (List.range (i.gm1 + 1)).map (fun k => (i.chip, (i.tile + k) % 256))

/-- The instances of stream e: every one that a RESOLVE word of its generation slot names, once. -/
def State.insts (s : State) (e : Nat) : List Inst :=
  match s.slotOf (s.desc e 0x0C 0 16) with
  | none => []
  | some g =>
    (List.range (s.slotExperts g)).foldl (fun l x =>
      if s.found g x then
        let w := s.rd (Reg.RESOLVE_LO (64 * g + x))
        let i : Inst := { chip := wfld w 3 0, tile := wfld w 11 4, line := wfld w 23 12, gm1 := wfld w 27 24,
                          hops := wfld (s.rd (Reg.RESOLVE_HI (64 * g + x))) 1 0, expert := x }
        if l.any (fun j => j.key == i.key) then l else l ++ [i]
      else l) []

/-- The home tiles of stream e. -/
def State.homeTiles (s : State) (e : Nat) : List Nat := (List.range (s.desc e 0x20 8 4 + 1)).map (fun k => (s.desc e 0x20 0 8 + k) % 256)

/-- A word of stream e's demand profile (Table 8.11). -/
def State.profile (s : State) (e i : Nat) : Word := s.rd (Reg.PROF_HOME_CYCLES (s.desc e 0x0C 16 6) + 4 * i)

/-- The frame rate r. -/
def State.rate (s : State) (e : Nat) : Nat := 1000000 / s.hopUs e

/-- Frames in flight m. -/
def State.inFlight (s : State) (e : Nat) : Nat := ((s.deadline e).getD 0 + s.hopUs e - 1) / s.hopUs e

/-- The expert count k: 1 or 2. -/
def State.topK (s : State) (e : Nat) : Nat := if s.desc e 0 18 1 = 1 then 1 else 2

/-- EXPERTS of a stream's generation slot. -/
def State.genExperts (s : State) (e : Nat) : Nat :=
  match s.slotOf (s.desc e 0x0C 0 16) with
  | none => 1
  | some g => max 1 (s.slotExperts g)

/-- The tiles that the events of a map go to, with the port: one for each port and tile of the map's enabled entries (R412). A tile that several
entries of a port name is charged once for that port, whose RATE bounds all its events (DEDUCED, log entry 75). -/
def State.mapTiles (s : State) (map : Nat) : List (Nat × Nat × Nat) :=
  ((List.range 512).filterMap (fun i =>
    let lo := s.rd (Reg.MAP_ENTRY_LO (i / 256) (i % 256))
    if wbit lo 28 && s.fld (Reg.MAP_ENTRY_HI (i / 256) (i % 256)) 15 8 == map then some (i / 256, wfld lo 27 24, wfld lo 23 16) else none)).dedup

/-- The map that a class-0 stream of kind 4 listens to. -/
def State.urgentMap (s : State) (e : Nat) : Option Nat :=
  if s.strClass e = 0 ∧ s.desc e 0 0 4 = 4 then some (s.desc e 0 4 12) else none

/-- The charges of stream e (Table 8.12), on a board of so many chips. -/
def State.chargesOf (s : State) (e chips : Nat) : List Charge :=
  let c := s.strClass e
  let me := s.chipId.toNat
  let r := s.rate e
  let k := s.topK e
  let ins := s.insts e
  let home := s.homeTiles e
  let linkB : Nat := r * (k * 384 + (s.profile e 7).toNat)
  let far := ((ins.map (·.chip)).filter (· != me)).dedup
  let ports := (far.map (fun d => s.fld (Reg.ROUTE d) 20 18)).dedup
  let maps := match s.urgentMap e with | some m => s.mapTiles m | none => []
  (if c = 0 then
    home.map (fun t => { res := .reserve me t, amt := ((s.profile e 0).toNat * r : Nat) }) ++
    (ins.flatMap Inst.tiles).map (fun t => { res := .reserve t.1 t.2, amt := ((s.profile e 2).toNat * r : Nat) }) ++
    home.map (fun t => { res := .vc0 me t, amt := ((r * (k * 256 + (s.profile e 7).toNat) : Nat) : Rat) / (home.length : Nat) }) ++
    maps.map (fun t => { res := .vc0 t.2.1 t.2.2, amt := (s.fld (Reg.AE_CFG t.1) 8 1 * 1600000 : Nat) }) ++
    ins.map (fun i => { res := .slots i.chip i.tile i.line, amt := (s.inFlight e : Nat) }) ++
    ports.map (fun p => { res := .link0 me p, amt := (linkB : Nat) })
   else if c ≤ 2 then
    home.map (fun t => { res := .pool me t, amt := ((s.profile e 0).toNat * r : Nat) }) ++
    (ins.flatMap Inst.tiles).map (fun t => { res := .pool t.1 t.2, amt := (((s.profile e 2).toNat * r * k : Nat) : Rat) / (s.genExperts e : Nat) })
   else []) ++
  (if c ≤ 2 then ports.map (fun p => { res := .link me p, amt := (linkB : Nat) }) else []) ++
  [{ res := .clay me (Addr.tile (s.descAddr e 0x24)), amt := (r * (s.profile e 5).toNat : Nat) },
   { res := .spread, amt := ((r * (s.profile e 6).toNat : Nat) : Rat) / (256 * max 1 chips : Nat) }]

/-- The amount of a resource in a list of charges. -/
def chargeSum (cs : List Charge) (x : Res) : Rat := ((cs.filter (fun c => c.res == x)).map (·.amt)).sum

/-- The charge that a stream of another chip makes on chip me. -/
def PeerCharge.charge (h : PeerCharge) (me : Nat) : Option Charge :=
  ([Res.reserve me h.idx, .pool me h.idx, .link0 me h.idx, .link me h.idx, .vc0 me h.idx, .clay me h.idx, .spread,
    .slots me (h.idx / 4096) (h.idx % 4096)][h.kind]?).map (fun x => { res := x, amt := (h.amt : Nat) })

/-- What streams of other chips hold of this chip's resources (R315). -/
def State.heldCharges (s : State) : List Charge := s.cu.held.filterMap (·.charge s.chipId.toNat)

/-- Every charge held on this chip, but those of entry e. -/
def State.otherCharges (s : State) (e : Nat) : List Charge :=
  s.heldCharges ++ (s.liveStreams.filter (· != e)).flatMap (fun j => (s.run j).charges)

/-- The charges of streams whose contracts are not broken, those of other chips among them. -/
def State.liveCharges (s : State) : List Charge :=
  s.heldCharges ++ (s.liveStreams.filter (fun e => !s.broken e)).flatMap (fun e => (s.run e).charges)

/-! ### Limits and bounds -/

/-- A LIMIT of CU_CONFIG, clamped to 50 to 95. -/
def State.limit0 (s : State) : Nat := max 50 (min 95 (s.fld Reg.CU_CONFIG 7 0))
def State.limit12 (s : State) : Nat := max 50 (min 95 (s.fld Reg.CU_CONFIG 15 8))

/-- F_t in MHz: ADMIT_MHZ of a tile of this chip, or what the tile's chip answers. -/
def State.mhz (s : State) (v : PeerView) (t : Nat × Nat) : Nat :=
  max 1 (if t.1 = s.chipId.toNat then s.fld (Reg.TILE_F t.2) 9 0
         else ((v.mhz.find? (fun p => p.1 == 256 * t.1 + t.2)).map (·.2)).getD 1000)

/-- The tiles concerned by a stream: its home tiles and those of its instances. -/
def State.tilesOf (s : State) (e : Nat) : List (Nat × Nat) := (s.homeTiles e).map (fun t => (s.chipId.toNat, t)) ++ (s.insts e).flatMap Inst.tiles

/-- The lowest F of a list of tiles. -/
def State.minMhz (s : State) (v : PeerView) (ts : List (Nat × Nat)) : Nat := ts.foldl (fun a t => min a (s.mhz v t)) 1000

/-- N of R314: 2 × (0.150 + 0.180 × h) µs, h the largest HOPS. -/
def State.netUs (s : State) (e : Nat) : Rat := (300 + 360 * ((s.insts e).foldl (fun a i => max a i.hops) 0 : Nat) : Rat) / 1000

/-- BEATS × BEAT_US. -/
def State.beatsUs (s : State) (e : Nat) : Nat := wfld (s.profile e 4) 11 8 * wfld (s.profile e 4) 31 16

/-- T0 of stream i (R314), among the class-0 streams js, i included. -/
def State.boundT0 (s : State) (v : PeerView) (js : List Nat) (i : Nat) : Rat :=
  let f : Rat := (s.minMhz v (s.tilesOf i) : Nat)
  let h := ((js.filter (fun j => (s.homeTiles j).any (fun t => (s.homeTiles i).contains t))).map (fun j => s.inFlight j * (s.profile j 1).toNat)).sum
  let x := (s.insts i).foldl (fun a n =>
    max a (((js.filter (fun j => (s.insts j).any (fun m => m.key == n.key))).map (fun j => s.inFlight j * (s.profile j 3).toNat)).sum +
           ((v.xcp.filter (fun p => p.1 == n.key)).map (·.2)).sum)) 0
  (s.beatsUs i : Nat) + ((h : Nat) : Rat) / (f / 8) + ((x : Nat) : Rat) / (f / 8) + ((wfld (s.profile i 4) 7 0 * 520 : Nat) : Rat) / f + s.netUs i + 15

/-- T12 of stream e with the charges cs held (Table 8.12): none when the home tiles are full. -/
def State.boundT12 (s : State) (v : PeerView) (cs : List Charge) (e : Nat) : Option Rat :=
  let f : Rat := (s.minMhz v (s.tilesOf e) : Nat)
  let u := (s.homeTiles e).foldl (fun a t =>
    max a (((s.fld (Reg.TILE_BASE t) 15 0 * 1000000 : Nat) + chargeSum cs (.pool s.chipId.toNat t)) / (875000 * (s.mhz v (s.chipId.toNat, t) : Nat)))) (0 : Rat)
  if 1 ≤ u then none
  else some ((s.beatsUs e : Nat) + (((s.profile e 1).toNat + (s.profile e 3).toNat : Nat) : Rat) / (7 / 8 * f * (1 - u)) + s.netUs e + 10)

/-- The floor of a tile in MHz, rounded up (R333), with the charges cs held. -/
def State.tileFloor (s : State) (cs : List Charge) (t : Nat) : Nat :=
  let me := s.chipId.toNat
  let a : Rat := chargeSum cs (.reserve me t) / (125000 * (s.limit0 : Nat)) * 100
  let b : Rat := ((s.fld (Reg.TILE_BASE t) 15 0 * 1000000 : Nat) + chargeSum cs (.pool me t)) / (875000 * (s.limit12 : Nat)) * 100
  (max a b).ceil.toNat

/-- FLOOR_EST with the charges cs held (R651): every tile of rows 0 to 14 at its floor. -/
def State.floorEst (s : State) (cs : List Charge) : Nat := Config.floorPower ((List.range 240).map (s.tileFloor cs))

/-! ### Checks -/

/-- URGENT_RESERVE of the enabled ring at a line of a tile of this chip. -/
def State.reserveOf (s : State) (tile line : Nat) : Nat :=
  let t := s.ltile tile
  match lowestBelow 8 (fun n => t.bit (Reg.RING_CFG n) 7 && t.fld (Reg.RING_BASE n) 17 6 == line) with
  | some n => t.fld (Reg.RING_CFG n) 15 8
  | none => 0

/-- Streams of class 0 that are admitted on this chip, but e. -/
def State.otherUrgent (s : State) (e : Nat) : List Nat :=
  s.liveStreams.filter (fun j => j != e && s.strClass j == 0 && (s.run j).charges != [])

/-- The first of a list that fails a check, as a refusal with its detail. -/
def firstFail {α : Type} (l : List α) (bad : α → Bool) (code : Nat) (detail : α → Nat) : List (Nat × Nat) :=
  match l.find? bad with
  | some a => [(code, detail a)]
  | none => []

/-- RESERVE, POOL, RING_SLOTS, LINK, VC0 and CLAY: the checks of charges on this chip, with cs all charges held, on the resources of new. -/
def State.chargeFails (s : State) (v : PeerView) (new cs : List Charge) (ins : List Inst) : List (Nat × Nat) :=
  let me := s.chipId.toNat
  let fails : Charge → Option (Nat × Nat) := fun c =>
    let a := chargeSum cs c.res
    match c.res with
    | .reserve ch t =>
      if ch = me ∧ (s.mhz v (ch, t) * 1250 * s.limit0 : Nat) < (s.fld (Reg.TILE_BASE t) 31 16 * 1000000 : Nat) + a then some (4, 256 * me + t) else none
    | .pool ch t =>
      if ch = me ∧ (s.mhz v (ch, t) * 8750 * s.limit12 : Nat) < (s.fld (Reg.TILE_BASE t) 15 0 * 1000000 : Nat) + a then some (5, 256 * me + t) else none
    | .slots ch t line =>
      if ch = me ∧ (s.reserveOf t line : Nat) < a then some (7, ((ins.find? (fun i => i.key == (ch, t, line))).map (·.expert)).getD 0) else none
    | .link0 ch p => if ch = me ∧ (3250000000 : Rat) < a then some (8, 8 * me + p) else none
    | .link ch p => if ch = me ∧ (9750000000 : Rat) < a then some (8, 8 * me + p) else none
    | .vc0 ch t => if ch = me ∧ (2400000000 : Rat) < a then some (9, 256 * me + t) else none
    | .clay ch t => if ch = me ∧ (32000000000 : Rat) < a + chargeSum cs .spread then some (10, 256 * me + t) else none
    | .spread =>
      let full : Charge → Option (Nat × Nat) := fun c => match c.res with
        | .clay ch t => if ch = me ∧ (32000000000 : Rat) < chargeSum cs c.res + a then some (10, 256 * me + t) else none
        | _ => none
      if (32000000000 : Rat) < a then some (10, 256 * me) else cs.findSome? full
  new.filterMap fails

/-- LATENCY (R314): the bound of e, and for class 0 of every one of the class-0 streams others that shares a home tile or an instance with it. -/
def State.latencyFails (s : State) (v : PeerView) (cs : List Charge) (others : List Nat) (e : Nat) : List (Nat × Nat) :=
  if s.strClass e = 0 then
    let js := e :: others
    let near := js.filter (fun j => j == e || (s.homeTiles j).any (fun t => (s.homeTiles e).contains t) ||
      (s.insts j).any (fun m => (s.insts e).any (fun n => n.key == m.key)))
    firstFail near (fun j => decide ((((s.deadline j).getD 0 : Nat) : Rat) < s.boundT0 v js j)) 6 s.streamId
  else if s.strClass e = 3 then []
  else
    match s.boundT12 v cs e with
    | none => [(6, s.streamId e)]
    | some t => if (((s.deadline e).getD 0 : Nat) : Rat) < t then [(6, s.streamId e)] else []

/-- VC0 with RATE = 0 (R412): a tile of the stream's map whose events come from a port without a limit. -/
def State.rateFails (s : State) (e : Nat) : List (Nat × Nat) :=
  match s.urgentMap e with
  | some m => firstFail (s.mapTiles m) (fun t => s.fld (Reg.AE_CFG t.1) 8 1 == 0) 9 (fun t => 256 * t.2.1 + t.2.2)
  | none => []

/-- The contract unit reads the header of a stream's record, as any read does (R430, R431): a line never written has nothing to correct. -/
def State.lookHeader (s : State) (e : Nat) : State :=
  let p := s.recordPhys e
  let s := s.wakeBanks p true (s.recordOff e) 64
  if s.colRefuses p (s.recordLine e) || !s.mem.written true (memKey true p 0 / 64 + s.recordLine e) then s
  else (s.checkLine (s.recordTile e) p true (s.recordLine e) 1).1

/-- Whether the header of a stream's record can be read: no column fault there, and no poison. -/
def State.headerReadable (s : State) (e : Nat) : Bool :=
  !s.colRefuses (s.recordPhys e) (s.recordLine e) && !s.mem.poison true (memKey true (s.recordPhys e) 0 / 64 + s.recordLine e)

/-- PIN_OFFSET in bytes and PIN_BYTES of a stream's record header as stored (Table 6.7): none of a header that cannot be read. -/
def State.headerPin (s : State) (e : Nat) : Nat × Nat :=
  let k := clayKey (s.recordPhys e) (Addr.off (s.descAddr e 0x24))
  if s.headerReadable e then (64 * ofBytes (s.mem.bytes true (k + 28) 2), ofBytes (s.mem.bytes true (k + 30) 2)) else (0, 0)

/-- Banks a core of so many bytes takes (R262): none unless it has 1 to 4,096. -/
def coreBanks (n : Nat) : Nat := if n = 0 ∨ 4096 < n then 0 else if n ≤ 2048 then 1 else 2

/-- The first of n adjacent banks of logical tile t that are neither pinned nor in use, with at most 4 then pinned (R262). -/
def State.freeBanks (s : State) (t n : Nat) : Option Nat :=
  let pin := (s.ltile t).fld Reg.MM_CFG 7 0
  if 4 < ((List.range 8).filter (fun b => pin.testBit b)).length + n then none
  else lowestBelow (9 - n) (fun b => (List.range n).all (fun i => !pin.testBit (b + i)))

end Sys2Proof.Machine
end

