-- ==== Sys2Proof/Machine/TileOps.lean ====
section
/-! DEFINITION. What a tile does by itself: dispatches and faults of threads, sync objects, rings and the
actions they perform (R36, R65, R110, R111, R121, R135 to R150). -/

namespace Sys2Proof.Machine

/-- Completion codes of Table 2.17. -/
abbrev cOK : Nat := 0x00
abbrev cEpoch : Nat := 0x01
abbrev cPoison : Nat := 0x02
abbrev cUnwritten : Nat := 0x03
abbrev cAddr : Nat := 0x04
abbrev cAlign : Nat := 0x05
abbrev cOp : Nat := 0x06
abbrev cRetired : Nat := 0x07
abbrev cLink : Nat := 0x08
abbrev cProtect : Nat := 0x0A
abbrev cBusy : Nat := 0x0B

/-! ### Threads -/

/-- Enter RUNNING at an entry with an empty call stack and a source code in s15 (R110, Table 3.3). -/
def Tile.enter (t : Tile) (i entry : Nat) (src : Word) : Tile :=
  (((t.onThread i (fun h => { h with stack := [], wait := none, stalled := none })).wr (Reg.S_REG i 15) src).setPc i entry).setTstate i tRunning

/-- A dispatch is recorded, or lost at saturation (R111). -/
def Tile.record (t : Tile) (i entry : Nat) (src : Word) : Tile :=
  if t.fld (Reg.DISPATCH_PENDING i) 15 0 < 0xFFFF then
    (t.onThread i (fun h => { h with dispq := h.dispq ++ [(entry, src)] })).setFld (Reg.DISPATCH_PENDING i) 15 0 (t.fld (Reg.DISPATCH_PENDING i) 15 0 + 1)
  else t.countBy Reg.DISPATCH_OVF 1

/-- A dispatch: an IDLE thread starts; any other records it (R110, R111). -/
def Tile.dispatch (t : Tile) (i entry : Nat) (src : Word) : Tile :=
  if t.tstate i = tIdle then (t.enter i entry src).wake else t.record i entry src

/-- Serve the oldest pending dispatch of a thread that has become IDLE (R111). -/
def Tile.serveDispatch (t : Tile) (i : Nat) : Tile :=
  match (t.thread i).dispq with
  | [] => t
  | d :: r =>
    let t := t.onThread i (fun h => { h with dispq := r })
    ((t.setFld (Reg.DISPATCH_PENDING i) 15 0 (t.fld (Reg.DISPATCH_PENDING i) 15 0 - 1)).enter i d.1 d.2).wake

/-- A dispatch of thread i of logical tile l; one that a stream's swap-in or context reset keeps back is recorded (R258, R440). -/
def State.dispatchTo (s : State) (l i entry : Nat) (src : Word) : State :=
  s.onL l (fun t => if s.homeHeld l i then t.record i entry src else t.dispatch i entry src)

/-- The oldest pending dispatch of an IDLE thread is served, unless something keeps it back. -/
def State.serveNext (s : State) (l i : Nat) : State :=
  if (s.ltile l).tstate i = tIdle ∧ !s.homeHeld l i then s.onL l (fun t => t.serveDispatch i) else s

/-- What kept the home threads of stream e back is over. -/
def State.releaseHome (s : State) (e : Nat) : State :=
  (List.range (s.desc e 0x20 8 4 + 1)).foldl (fun s k => s.serveNext ((s.desc e 0x20 0 8 + k) % 256) (s.desc e 0x20 12 2)) s

/-- Fault codes of Table 3.5. -/
abbrev ftIllegal : Nat := 1
abbrev ftUcode : Nat := 2
abbrev ftPoison : Nat := 3
abbrev ftAddr : Nat := 4
abbrev ftEngine : Nat := 5
abbrev ftStack : Nat := 6
abbrev ftSplit : Nat := 7

/-- A fault stops the thread where it stands, sets FAULT with its code, and is reported to the contract unit (R121). -/
def State.faultThread (s : State) (l i code : Nat) : State :=
  (s.onL l (fun t => (((t.onThread i (fun h => { h with stalled := none, wait := none })).setTstate i tFault).setFld (Reg.T_STATUS i) 21 16 code))).reportFault l i

/-! ### Actions (R148, Table 3.10) -/

/-- The HOST action of logical tile l (R510). -/
def State.hostAction (s : State) (l : Nat) : State := (s.setBit (Reg.TILE_EVENT (l / 32)) (l % 32) true).raiseInt 9

/-- The CHAIN action of sync object n: a posted ADD of CHAIN_ARG (R148, R149); one marked urgent that may not be is counted as
demoted (R65); with no injection credit for its VC it waits for one (R235). -/
def State.chain (s : State) (l n : Nat) : State :=
  let t := s.ltile l
  let a : Addr := BitVec.ofNat 40 ((t.rd (Reg.CHAIN_ADDR_LO n)).toNat + 2 ^ 32 * t.fld (Reg.CHAIN_ADDR_HI n) 7 0)
  let marked := t.bit (Reg.SYNC_CFG n) 19
  let urgent := marked && t.bit (Reg.SYNC_CFG n) 20
  let s := if marked && !urgent then s.onL l (·.countBy Reg.URGENT_DEMOTED 1) else s
  let r := mkReq s 3 false (if urgent then 0 else 1) a 0 0 l 5 (t.rd (Reg.CHAIN_ARG n)) []
  if s.selfServed l a || (t.canInject r.prio && t.chainWait.all (fun q => q.prio != r.prio)) then s.issueTile l r
  else s.onL l (fun t => { t with chainWait := t.chainWait ++ [r] })

/-- What a sync object does when it fires, beside its counts: its ACTION. WAKE sets PENDING, for which any thread that waits on the object can
resume: SYNC_CFG.THREAD plays no part in it, and neither does RING_CFG.CONSUMER (DESIGN CHOICE, log entry 74). -/
def State.syncAction (s : State) (l n : Nat) : State :=
  let c := (s.ltile l).rd (Reg.SYNC_CFG n)
  let act := wfld c 4 2
  if act = 1 then s.onL l (fun t => t.setBit (Reg.SYNC_CFG n) 21 true)
  else if act = 2 then s.dispatchTo l (wfld c 6 5) (wfld c 18 8) (wd n)
  else if act = 3 then s.chain l n
  else if act = 4 then s.hostAction l
  else s

/-- One fire (R145): FIRES, the tile's count, LAST_FIRE, the action. -/
def State.syncFire (s : State) (l n : Nat) : State :=
  (s.onL l (fun t => ((t.wr (Reg.SYNC_FIRES_N n) (t.rd (Reg.SYNC_FIRES_N n) + 1)).countBy Reg.SYNC_FIRES 1).wr (Reg.LAST_FIRE n) s.now32)).syncAction l n

/-- k fires. -/
def State.syncFires (l n : Nat) : Nat → State → State
  | 0, s => s
  | k + 1, s => State.syncFires l n k (s.syncFire l n)

/-- Test an object after an operation on it (R144, R145): with REARM one fire for each whole multiple of THRESHOLD, which COUNT
loses; without it one fire, and FIRED. -/
def State.syncTest (s : State) (l n : Nat) : State :=
  let t := s.ltile l
  let c := t.rd (Reg.SYNC_CFG n)
  let cnt := (t.rd (Reg.SYNC_COUNT n)).toInt
  let th := (t.rd (Reg.SYNC_THRESHOLD n)).toInt
  if wbit c 0 && !wbit c 7 && decide (th ≠ 0) && decide (th ≤ cnt) then
    if wbit c 1 then
      let k := if 0 < th then (cnt / th).toNat else 1
      let s := s.onL l (fun t => t.wr (Reg.SYNC_COUNT n) (wi (cnt - (k : Int) * th)))
      State.syncFires l n k s
    else (s.onL l (fun t => t.setBit (Reg.SYNC_CFG n) 7 true)).syncFire l n
  else s

/-- Add to COUNT and test (R144). -/
def State.syncAdd (s : State) (l n : Nat) (v : Word) : State :=
  (s.onL l (fun t => t.wr (Reg.SYNC_COUNT n) (t.rd (Reg.SYNC_COUNT n) + v))).syncTest l n

/-- Write COUNT, which clears FIRED, and test (R145). -/
def State.syncPutCount (s : State) (l n : Nat) (v : Word) : State :=
  (s.onL l (fun t => (t.wr (Reg.SYNC_COUNT n) v).setBit (Reg.SYNC_CFG n) 7 false)).syncTest l n

/-! ### Rings -/

/-- Slot bytes and slots by RING_CFG. -/
def ringSlotSize (cfg : Word) : Nat := 2 ^ (wfld cfg 2 0 + 4)
def ringSlots (cfg : Word) : Nat := 2 ^ wfld cfg 6 3

/-- A header word: 0 HEAD, 1 COMMIT, 2 TAIL. -/
def State.ringWord (s : State) (l n w : Nat) : Word :=
  wd (ofBytes (s.mem.bytes false (sramKey (s.physOf l) ((s.ltile l).ringBase n + 4 * w)) 4))

/-- Write a header word. -/
def State.setRingWord (s : State) (l n w : Nat) (v : Word) : State :=
  s.onMem (fun m => m.store false (sramKey (s.physOf l) ((s.ltile l).ringBase n + 4 * w)) (toBytes 4 v.toNat))

/-- OCCUPANCY and free slots (R139, Table 3.20). -/
def State.ringOcc (s : State) (l n : Nat) : Nat := (s.ringWord l n 1 - s.ringWord l n 2).toNat
def State.ringFree (s : State) (l n : Nat) : Nat :=
  ringSlots ((s.ltile l).rd (Reg.RING_CFG n)) - (s.ringWord l n 0 - s.ringWord l n 2).toNat

/-- Whether a push or claim of k slots is accepted at a priority (R139). -/
def State.ringAccepts (s : State) (l n k : Nat) (urgent : Bool) : Bool :=
  k == 0 || (if urgent then decide (k ≤ s.ringFree l n)
             else decide ((s.ltile l).fld (Reg.RING_CFG n) 15 8 + k ≤ s.ringFree l n))

/-- The ring's ACTION when OCCUPANCY rises from 0 (R143). -/
def State.ringAction (s : State) (l n : Nat) : State :=
  let c := (s.ltile l).rd (Reg.RING_CFG n)
  let act := wfld c 20 18
  if act = 1 then s.onL l (fun t => { t with ringPend := if t.ringPend.contains n then t.ringPend else t.ringPend ++ [n] })
  else if act = 2 then s.dispatchTo l (wfld c 17 16) (wfld c 31 21) (wd (0x20 + n))
  else if act = 4 then s.hostAction l
  else s

/-- Advance COMMIT over ready slots, at most k of them (R138). -/
def State.ringAdvance (l n : Nat) : Nat → State → State
  | 0, s => s
  | k + 1, s =>
    let c := (s.ringWord l n 1).toNat
    if (s.ltile l).ready.contains (n, c) then
      State.ringAdvance l n k ((s.onL l (fun t => { t with ready := t.ready.erase (n, c) })).setRingWord l n 1 (wd (c + 1)))
    else s

/-- Mark a claimed slot ready; COMMIT advances and an occupancy that rises from 0 acts (R138, R143). -/
def State.ringReady (s : State) (l n i : Nat) : State :=
  let was := s.ringOcc l n
  let s := s.onL l (fun t => { t with ready := if t.ready.contains (n, i) then t.ready else t.ready ++ [(n, i)] })
  let s := State.ringAdvance l n ((s.ltile l).ready.length) s
  if was = 0 ∧ 0 < s.ringOcc l n then s.ringAction l n else s

/-- The SRAM offset of a slot index. -/
def Tile.ringSlot (t : Tile) (n i : Nat) : Nat :=
  t.ringBase n + 64 + i % ringSlots (t.rd (Reg.RING_CFG n)) * ringSlotSize (t.rd (Reg.RING_CFG n))

/-- Apply a push (R137): the data goes into slot HEAD, HEAD rises, the slot is ready; the answer is its completion code. A slot in the header line of
another enabled ring refuses it (R136), and so does one in a poisoned line (R73). -/
def State.ringPush (s : State) (l n : Nat) (data : List Byte) : State × Nat :=
  let h := (s.ringWord l n 0).toNat
  let a := (s.ltile l).ringSlot n h
  let w := s.partialWrite l false a data.length
  if (s.ltile l).touchesRing a data.length then (s, cProtect)
  else if w.2 then (w.1, cPoison)
  else
    let s := (w.1.storeMem l false a data).setRingWord l n 0 (wd (h + 1))
    let s := s.onL l (fun t => t.wr (Reg.RING_PUSHES n) (t.rd (Reg.RING_PUSHES n) + 1))
    (s.ringReady l n h, cOK)

/-- A read of the header line of ring n: the line is checked, corrected and counted as any other (R430, R431). -/
def State.headerRead (s : State) (l n : Nat) : State × ReadSt :=
  let x := s.readMem l false ((s.ltile l).ringBase n) 16 1
  (x.1, x.2.1)

/-- The part of a header line that a push, a TAIL move or a PUBLISH finds: a never-written line reads as zeros and counts nothing, any other is
read; the answer is whether the line is poisoned, which refuses the operation (R73). -/
def State.headerCheck (s : State) (l n : Nat) : State × Bool :=
  if s.mem.written false (sramKey (s.physOf l) ((s.ltile l).ringBase n) / 64) then
    let x := s.headerRead l n
    (x.1, x.2.poisoned)
  else (s, false)

/-- Move TAIL (R136, R702). -/
def State.ringTail (s : State) (l n : Nat) (v : Word) : State := s.setRingWord l n 2 v

/-- Whether an operation with ANY_EPOCH = 0 that a unit of this chip sends to a tile of this chip meets a tile that answers and passes the epoch
check (R33, R36, R38, R39). -/
def State.tileAnswers (s : State) (a : Addr) : Bool :=
  (s.issueError a).isNone && !s.tileShut (Addr.tile a) && s.epochEntry (Addr.chip a) (Addr.tile a) == s.epochOf (Addr.tile a)

/-- A notice reaches the issuing tile, whose clock it restarts (R100): a push to its notice ring, or lost (R85). The push is not compared with the
tile's epoch: it is for whatever runs on the tile now, and among the discards of R85 none is for an epoch (DESIGN CHOICE, log entry 81). -/
def State.noticeTo (s : State) (l : Nat) (bs : List Byte) : State :=
  if s.mapState l = 3 then s.count Reg.XLATE_ERRORS
  else if s.tileShut l then s.count Reg.GATED_DROPS
  else
    let s := s.onL l Tile.wake
    let n := (s.ltile l).fld Reg.TILE_CONFIG 2 0
    if (s.ltile l).bit Reg.TILE_CONFIG 3 && (s.ltile l).ringOn n && (s.ltile l).fld (Reg.RING_CFG n) 2 0 == 0 then
      let h := s.headerCheck l n
      if h.2 then h.1.onL l (·.countBy Reg.POSTED_ERRORS 1)
      else if h.1.ringAccepts l n 1 false then
        let x := h.1.ringPush l n bs
        if x.2 = cOK then x.1 else x.1.onL l (·.countBy Reg.POSTED_ERRORS 1)
      else h.1.onL l (·.countBy Reg.NOTICE_LOST 1)
    else s.onL l (·.countBy Reg.NOTICE_LOST 1)

/-- Whether a ring's settings allow it to be enabled (R135). -/
def State.ringValid (s : State) (l n : Nat) (cfg : Word) : Bool :=
  let h := s.ringWord l n 0
  let c := s.ringWord l n 1
  let t := s.ringWord l n 2
  let base := (s.ltile l).ringBase n
  decide (wfld cfg 2 0 ≤ 4) && decide (4 ≤ wfld cfg 6 3) && decide (wfld cfg 6 3 ≤ 10) && decide (wfld cfg 15 8 < ringSlots cfg) &&
  decide (base + 64 + ringSlots cfg * ringSlotSize cfg ≤ 0x40000) && h == c && decide ((c - t).toNat ≤ ringSlots cfg)

end Sys2Proof.Machine
end

