-- ==== Sys2Proof/Machine/Contract.lean ====
section
/-! DEFINITION. The contract commands (R307 to R310, R313, R335): registering, admitting, binding, deactivating and breaking streams;
what other chips are told and tell (R315, R426), and the queue of swaps (R259). -/

namespace Sys2Proof.Machine

/-! ### What follows from the streams' states and charges -/

/-- Whether a swap is queued or in progress (R259). -/
def Swap.queued (w : Swap) : Bool := w != .none && w != .outDone

/-- Whether a class-0 stream of this chip is ACTIVATING, ACTIVE or DRAINING. -/
def State.urgentServed (s : State) : Bool := s.liveStreams.any (fun e => s.strClass e == 0 && s.strServed e)

/-- Where a contract unit tells another chip's that a class-0 stream is served, or none any more: RET_CFG of block 0x0E (R426). The spec names the
bit and who sets it; that one write to each chip with a usable route does it is the model's (DESIGN CHOICE, log entry 75). -/
abbrev holdOffset : Nat := 0x8000C

/-- What chip c was last told of class-0 streams here: nothing since it was last out of reach. -/
def State.toldOf (s : State) (c : Nat) : Option Bool := spGet (fun _ => none) s.cu.told c

/-- Note what chip c knows. -/
def State.setTold (s : State) (c : Nat) (x : Option Bool) : State := { s with cu := { s.cu with told := spSet (fun _ => none) s.cu.told c x } }

/-- Each chip within reach learns whether a class-0 stream is served here, when it was last told otherwise or nothing yet (R426). -/
def State.tellPeers (s : State) : State :=
  let up := s.urgentServed
  ((List.range 16).filter (fun c => c != s.chipId.toNat && s.reaches c && s.toldOf c != some up)).foldl
    (fun s c => (s.setTold c (some up)).issue (mkReq s 2 false 1 (mkAddr c 3 14 holdOffset) 2 0 0xFF 9 (wd (2 ^ 16 * up.toNat)) [])) s

/-- What a chip has been told counts no more once it is out of reach: it may have been reset (R426). -/
def State.forgetPeers (s : State) : State :=
  ((List.range 16).filter (fun c => !s.reaches c && (s.toldOf c).isSome)).foldl (fun s c => s.setTold c none) s

/-- PWR_ACT.VLEVEL_HOLD: a tile of rows 0 to 14 is charged (R636). -/
def State.holdLevel (s : State) : State :=
  s.setBit Reg.PWR_ACT 14 ((List.range 240).any (fun t => s.rd (Reg.LOAD0 t) != 0 || s.rd (Reg.LOAD12 t) != 0))

/-- The queue of swaps (R259): an entry whose swap is no longer queued leaves it, and one whose swap now is joins it at its end. -/
def State.swapQueue (s : State) : List Nat :=
  let q := s.cu.swapq.filter (fun e => (s.run e).swap.queued)
  q ++ s.liveStreams.filter (fun e => (s.run e).swap.queued && !q.contains e)

/-- Whether the swap of stream e is among the 32 that the state mover has been given (R259). -/
def State.swapTurn (s : State) (e : Nat) : Bool := (s.cu.swapq.take 32).contains e

/-- The array group a stream draws on, when its kind has one (R348). -/
def State.sourceGroup (s : State) (e : Nat) : Option Nat :=
  let kind := s.desc e 0 0 4
  let id := s.desc e 0 4 12
  if kind = 1 then some (id / 8) else if kind = 2 then some (id / 16) else if kind = 6 then some id else none

/-- RET_CFG.HOLD (R426), DELIV_HI.URGENT (R348, R403) and CU_ACTIVE as the streams now make them, and the queue of swaps. -/
def State.refresh (s : State) : State :=
  let s := s.tellPeers
  let s : State := { s with cu := { s.cu with swapq := s.swapQueue } }
  let s := s.setBit Reg.RET_CFG 16 (s.urgentServed || s.cu.peersUp != [])
  let s := (List.range 4).foldl (fun s g =>
    s.setBit (Reg.FE_DELIV_HI g) 14 (s.liveStreams.any (fun e => s.strClass e == 0 && s.strServed e && s.sourceGroup e == some g))) s
  let s := (List.range 2).foldl (fun s p =>
    s.setBit (Reg.TDM_DELIV_HI p) 14 (s.liveStreams.any (fun e => s.strClass e == 0 && s.strServed e && s.desc e 0 0 4 == 3 && s.desc e 0 4 12 / 16 == p))) s
  let n := (s.liveStreams.filter (fun e => s.strState e == stActivating || s.strState e == stActive)).length
  s.wr Reg.CU_ACTIVE (wd (n % 512 + 2 ^ 16 * min 32 s.cu.swapq.length))

/-- LOAD0 and LOAD12 of a tile from the charges held. -/
def State.loadUpdate (s : State) (t : Nat) : State :=
  let cs := s.otherCharges 2048
  let me := s.chipId.toNat
  (s.wr (Reg.LOAD0 t) (wd (min 0xFFFFFFFF ((chargeSum cs (.reserve me t) / 1000).floor.toNat)))).wr (Reg.LOAD12 t)
    (wd (min 0xFFFFFFFF ((chargeSum cs (.pool me t) / 1000).floor.toNat)))

/-- The tiles of this chip that a list of charges names. -/
def State.chargedTiles (s : State) (cs : List Charge) : List Nat :=
  cs.filterMap (fun c => match c.res with
    | .reserve ch t => if ch = s.chipId.toNat then some t else none
    | .pool ch t => if ch = s.chipId.toNat then some t else none
    | _ => none)

/-- LOAD0 and LOAD12 of some tiles, VLEVEL_HOLD, and FLOOR_EST, from the charges held. -/
def State.loadsUpdate (s : State) (ts : List Nat) : State :=
  let s := (ts.foldl (fun s t => s.loadUpdate t) s).holdLevel
  s.wr Reg.FLOOR_EST (wd (s.floorEst (s.otherCharges 2048) % 65536))

/-- Replace the charges of entry e, with LOAD0, LOAD12 and FLOOR_EST. -/
def State.setCharges (s : State) (e : Nat) (cs : List Charge) : State :=
  (s.onRun e (fun r => { r with charges := cs })).loadsUpdate (s.chargedTiles (cs ++ (s.run e).charges))

/-- What the other chips answer an admission is taken (R315). The spec gives no form to the messages between contract units: those that this unit sends
are answered with the ACTIVATE or CHECK that needs them, and those that it receives are PUTs (DESIGN CHOICE, log entry 75). -/
def State.takeView (s : State) (v : PeerView) : State := { s with cu := { s.cu with view := v } }

/-- Where the contract unit of another chip reserves a charge here, and the eight bytes that do: entry [10:0], kind [13:11], class [15:14],
index [35:16], amount [63:36] in slots for kind 7 and in 1,000/s for any other; amount 0 gives up all that the stream holds (DESIGN CHOICE, log
entry 75). -/
abbrev reserveOffset : Nat := 0xFFFF0

/-- The reservation that eight bytes of chip c spell. -/
def peerCharge (c : Nat) (bs : List Byte) : PeerCharge :=
  let x := natAt bs 0 8
  let kind := x / 2 ^ 11 % 8
  { chip := c, entry := x % 2 ^ 11, cls := x / 2 ^ 14 % 4, kind := kind, idx := x / 2 ^ 16 % 2 ^ 20, amt := x / 2 ^ 36 * (if kind = 7 then 1 else 1000) }

/-- A reservation of another chip's contract unit (R315), in arrival order: it is charged when the checks of Table 8.12 hold with it, and is refused
and leaves nothing when they do not; one without an amount rolls back or releases what the stream holds here. The answer is whether it stands. -/
def State.peerReserve (s : State) (h : PeerCharge) : State × Bool :=
  if h.amt = 0 then
    let was := s.heldCharges
    let s : State := { s with cu := { s.cu with held := s.cu.held.filter (fun x => x.chip != h.chip || x.entry != h.entry) } }
    (s.loadsUpdate (s.chargedTiles was), true)
  else
    match h.charge s.chipId.toNat with
    | none => (s, false)
    | some c =>
      if s.chargeFails s.cu.view [c] (c :: s.otherCharges 2048) [] != [] then (s, false)
      else (State.loadsUpdate { s with cu := { s.cu with held := s.cu.held ++ [h] } } (s.chargedTiles [c]), true)

/-! ### Binding (R310) -/

/-- Bind a stream's threads to its class, and mark its C0 objects. -/
def State.bind (s : State) (e : Nat) : State :=
  let c := s.strClass e
  let i := s.desc e 0x20 12 2
  let s := s.onRun e (fun r => { r with bound := true })
  (s.homeTiles e).foldl (fun s l =>
    let s := s.onL l (fun t => t.setFld (Reg.T_CONFIG i) 13 12 c)
    if c = 0 then
      (List.range 32).foldl (fun s n =>
        if s.desc e 0x34 n 1 = 1 then
          let s := s.onL l (fun t => t.setBit (Reg.SYNC_CFG n) 20 true)
          if s.cu.c0.contains (32 * l + n, i) then s else { s with cu := { s.cu with c0 := s.cu.c0 ++ [(32 * l + n, i)] } }
        else s) s
    else s) s

/-- Thread i of logical tile l has lost its last stream: it goes back to class 3, and the C0 bits set for it clear, but for an object that another
thread's streams have marked too. -/
def State.unbindThread (s : State) (l i : Nat) : State :=
  let s := s.onL l (fun t => t.setFld (Reg.T_CONFIG i) 13 12 3)
  let mine := s.cu.c0.filter (fun p => p.1 / 32 == l && p.2 == i)
  let s : State := { s with cu := { s.cu with c0 := s.cu.c0.filter (fun p => !mine.contains p) } }
  mine.foldl (fun s p => if s.cu.c0.any (fun q => q.1 == p.1) then s else s.onL l (fun t => t.setBit (Reg.SYNC_CFG (p.1 % 32)) 20 false)) s

/-- Release a stream's binding on each home tile, where no other bound stream shares the thread (R310). -/
def State.unbind (s : State) (e : Nat) : State :=
  let i := s.desc e 0x20 12 2
  let s := s.onRun e (fun r => { r with bound := false })
  (s.homeTiles e).foldl (fun s l =>
    if s.liveStreams.any (fun j => (s.run j).bound && s.desc j 0x20 12 2 == i && (s.homeTiles j).contains l) then s
    else s.unbindThread l i) s

/-! ### Residency (R262, R264) -/

/-- Pin n adjacent banks of logical tile l from bank b. -/
def State.pinBanks (s : State) (l b n : Nat) (on : Bool) : State :=
  s.onL l (fun t => (List.range n).foldl (fun t i => t.setBit Reg.MM_CFG (b + i) on) t)

/-- Give stream e a pinned core on logical tile l, when banks are free. -/
def State.makeResident (s : State) (e l off bytes : Nat) : State × Bool :=
  let n := coreBanks bytes
  match s.freeBanks l n with
  | none => (s, false)
  | some b =>
    ((s.pinBanks l b n true).onRun e (fun r => { r with pinTile := l, pinBank := b, pinBanks := n, pinOff := off, pinBytes := bytes, coreIn := false }), true)

/-- Release a stream's pinned banks. -/
def State.unpin (s : State) (e : Nat) : State :=
  let r := s.run e
  (s.pinBanks r.pinTile r.pinBank r.pinBanks false).onRun e (fun r => { r with pinBanks := 0, coreIn := false, fallback := false })

/-- Whether an ACTIVATE of stream e asks for residency that it does not hold yet: the core's offset and bytes. -/
def State.wantsResident (s : State) (e : Nat) : Option (Nat × Nat) :=
  let p := s.headerPin e
  if s.strClass e = 0 ∧ s.desc e 0 17 1 = 1 ∧ coreBanks p.2 ≠ 0 ∧ (s.run e).pinBanks = 0 then some p else none

/-! ### Admission (R313) -/

/-- Every refusal that an ACTIVATE of stream e meets, with its detail, and the charges it would make. -/
def State.admission (s : State) (v : PeerView) (e : Nat) : List (Nat × Nat) × List Charge :=
  let me := s.chipId.toNat
  let new := s.chargesOf e v.chips
  let cs := new ++ s.otherCharges e
  let readmit := s.strState e == stActive
  let act := (s.liveStreams.filter (fun j => j != e && (s.strState j == stActivating || s.strState j == stActive))).length
  let i := s.desc e 0x20 12 2
  let clash := (s.homeTiles e).find? (fun l => s.liveStreams.any (fun j =>
    j != e && (s.run j).bound && s.desc j 0x20 12 2 == i && (s.homeTiles j).contains l && s.strClass j != s.strClass e))
  let fails :=
    (match s.badField e with | some o => [(2, o)] | none => []) ++
    (if s.genCovered (s.desc e 0x0C 0 16) then [] else [(3, s.desc e 0x0C 0 16)]) ++
    s.chargeFails v new cs (s.insts e) ++ s.rateFails e ++ s.latencyFails v cs (s.otherUrgent e) e ++
    (match v.refuse with | some p => [p] | none => []) ++
    (if 256 < act + 1 then [(11, 0)] else []) ++
    (if !readmit && decide (32 ≤ (s.liveStreams.filter (fun j => (s.run j).swap.queued)).length) then [(12, 0)] else []) ++
    (match s.wantsResident e with
     | some p => if (s.freeBanks (s.desc e 0x20 0 8) (coreBanks p.2)).isNone then [(13, 256 * me + s.desc e 0x20 0 8)] else []
     | none => []) ++
    (if s.fld Reg.POWER_CAP 11 0 < s.floorEst cs then [(14, 0)] else []) ++
    (match clash with | some l => [(15, 256 * me + l)] | none => [])
  (fails, new)

/-- The refusal of the lowest code. -/
def lowestFail (l : List (Nat × Nat)) : Option (Nat × Nat) :=
  l.foldl (fun a p => match a with | none => some p | some q => if p.1 < q.1 then some p else some q) none

/-! ### Commands -/

/-- A command ends: BUSY falls with REASON and DETAIL. -/
def State.contractDone (s : State) (code detail : Nat) : State :=
  (s.wr Reg.CONTRACT_STATUS (wd (2 ^ 8 * code + 2 ^ 16 * (detail % 65536)))).raiseInt 2

/-- A contract command for a stream: ignored while one is in progress, refused for a stream of another chip; a refused ACTIVATE is counted. -/
def State.contractCmd (s : State) (activate : Bool) (stream : BitVec 15) (f : State → Nat → State) : State :=
  if s.bit Reg.CONTRACT_STATUS 0 then s
  else if stream.toNat / 2048 ≠ s.chipId.toNat then (if activate then s.count Reg.REFUSALS else s).contractDone 2 0
  else f s (stream.toNat % 2048)

/-- The device time that ARG names: ARG when it lies ahead, else the present. -/
def State.argTime (s : State) : Word :=
  let a := s.rd Reg.CONTRACT_ARG
  if a = 0 ∨ a = s.now32 ∨ (a - s.now32).msb then s.now32 else a

/-- The unit keeps the size and place of the pinned core as the record's header gives them, while it can be read: a column fault may hide the header
later (R265). -/
def State.noteHeader (s : State) (e : Nat) : State :=
  if s.headerReadable e then s.onRun e (fun r => if r.pinBanks = 0 then { r with pinOff := (s.headerPin e).1, pinBytes := (s.headerPin e).2 } else r) else s

/-- REGISTER. -/
def State.register (s : State) (e : Nat) : State :=
  if s.strState e ≠ stFree then s.contractDone 1 (s.streamId e)
  else
    match s.badField e with
    | some o => s.contractDone 2 o
    | none =>
      let s := (List.range 4).foldl (fun s i => s.wr (Reg.STAT e i) 0) s
      let s := s.setBit (Reg.BROKEN_MAP (e / 32)) (e % 32) false
      ((((s.lookHeader e).setRun e StreamRun.reset).noteHeader e).setStr e stRegistered).contractDone 0 0

/-- Clear BROKEN and its causes. -/
def State.clearBroken (s : State) (e : Nat) : State :=
  (s.upd (Reg.STAT e 0) (fun w => wSetFld (wSetBit w 3 false) 31 8 0)).setBit (Reg.BROKEN_MAP (e / 32)) (e % 32) false

/-- An accepted ACTIVATE (R308, R310). -/
def State.activated (s : State) (e : Nat) (cs : List Charge) : State :=
  let readmit := s.strState e == stActive
  let s : State := { s with cu := { s.cu with acts := s.cu.acts + 1 } }
  let s := (s.setCharges e cs).clearBroken e
  let s := s.onRun e (fun r => { r with fromT := s.argTime, waits := true, untilT := none, order := s.cu.acts, cover := .none })
  if readmit then s
  else
    let s := s.noteHeader e
    let s := match s.wantsResident e with | some p => (s.makeResident e (s.desc e 0x20 0 8) p.1 p.2).1 | none => s
    let s := s.onRun e (fun r => { r with expect := none, frames := [], preroll := [], stages := [], swap := .inWaiting, fallDue := .none, written := none })
    (s.bind e).setStr e stActivating

/-- ACTIVATE. -/
def State.activate (s : State) (v : PeerView) (e : Nat) : State :=
  let refuse (code detail : Nat) : State := (s.count Reg.REFUSALS).contractDone code detail
  if !(s.strState e == stRegistered || (s.strState e == stActive && s.broken e)) then refuse 1 (s.streamId e)
  else if s.cu.asleep then refuse 14 0
  else
    let s := (s.takeView v).lookHeader e
    let refuse (code detail : Nat) : State := (s.count Reg.REFUSALS).contractDone code detail
    let a := s.admission v e
    match lowestFail a.1 with
    | some p => refuse p.1 p.2
    | none => ((s.activated e a.2).refresh).contractDone 0 0

/-- CHECK. -/
def State.check (s : State) (v : PeerView) (e : Nat) : State :=
  if !(s.strState e == stRegistered || s.strState e == stActive) then s.contractDone 1 (s.streamId e)
  else if s.cu.asleep then s.contractDone 14 0
  else
    let s := (s.takeView v).lookHeader e
    match lowestFail (s.admission v e).1 with
    | some p => s.contractDone p.1 p.2
    | none => s.contractDone 0 0

/-- A stream leaves service for REGISTERED: charges and binding are released, a context reset still due is done as for a stream that does not run
(R441), and a DEACTIVATE that waits for it is done. -/
def State.toRegistered (s : State) (e : Nat) : State :=
  let s := (((s.setCharges e []).unbind e).setStr e stRegistered).releaseHome e
  let s := s.onRun e (fun r => { r with expect := none, frames := [], preroll := [], stages := [], swap := .none, cover := .none, untilT := none })
  let due := s.integ.due.filter (fun d => d.entry == e)
  let s : State := { s with integ := { s.integ with due := s.integ.due.filter (fun d => d.entry != e) } }
  let s := (due.foldl (fun s d => s.resetIdleContext e d.line) s).refresh
  if s.cu.busyFor = some e then State.contractDone { s with cu := { s.cu with busyFor := none } } 0 0 else s

/-- A DRAINING stream without a frame due asks for its swap-out; frames of class 3 are never due. -/
def State.settleStream (s : State) (e : Nat) : State :=
  if s.strState e = stDraining then
    let s := s.onRun e (fun r => if s.strClass e = 3 then { r with frames := [] } else r)
    if (s.run e).frames = [] ∧ (s.run e).swap = .none then (s.onRun e (fun r => { r with swap := .outWaiting })).refresh else s
  else s

/-- A stream stops accepting frames. -/
def State.drain (s : State) (e : Nat) : State :=
  (((s.setStr e stDraining).onRun e (fun r => { r with expect := none })).refresh).settleStream e

/-- The time of a stream's DEACTIVATE has come: it drains; one that LISTEN has suspended has nothing left to write and is REGISTERED (R335). -/
def State.stopAccepting (s : State) (e : Nat) : State := if s.strState e = stSuspended then s.toRegistered e else s.drain e

/-- DEACTIVATE. -/
def State.deactivate (s : State) (e : Nat) : State :=
  if !(s.strState e == stActivating || s.strState e == stActive || s.strState e == stSuspended) then s.contractDone 1 (s.streamId e)
  else
    let t := s.argTime
    let s := (s.wr Reg.CONTRACT_STATUS 1).onRun e (fun r => { r with untilT := some t })
    let s : State := { s with cu := { s.cu with busyFor := some e } }
    if t = s.now32 then s.stopAccepting e else s

/-- UNREGISTER. -/
def State.unregister (s : State) (e : Nat) : State :=
  if s.strState e ≠ stRegistered then s.contractDone 1 (s.streamId e)
  else (((s.unpin e).setRun e StreamRun.reset).setStr e stFree).contractDone 0 0

/-- BREAK. -/
def State.breakCmd (s : State) (e : Nat) : State :=
  if s.strState e ≠ stActive then s.contractDone 1 (s.streamId e) else (s.breakStream e brHost).contractDone 0 0

/-- Streams whose DEACTIVATE time has come stop accepting frames (R317): what time itself does to them. -/
def State.lapse (s : State) : State :=
  (s.liveStreams.filter (fun e => (s.strState e == stActivating || s.strState e == stActive || s.strState e == stSuspended) &&
    (match (s.run e).untilT with | some t => reached s.now32 t | none => false))).foldl (fun s e => s.stopAccepting e) s

/-- CONTRACT_CMD REGISTER. -/
def execContractCmdRegister (stream : BitVec 15) (s : State) : Host.Outcome State Fault Refusal :=
  .next (s.busWrite (fun s => s.slotAt 4 (fun s => s.contractCmd false stream State.register)))
/-- CONTRACT_CMD ACTIVATE, with what the other chips answer. -/
def execContractCmdActivate (stream : BitVec 15) (v : PeerView) (s : State) : Host.Outcome State Fault Refusal :=
  .next (s.busWrite (fun s => s.slotAt 4 (fun s => s.contractCmd true stream (fun s e => s.activate v e))))
/-- CONTRACT_CMD DEACTIVATE. -/
def execContractCmdDeactivate (stream : BitVec 15) (s : State) : Host.Outcome State Fault Refusal :=
  .next (s.busWrite (fun s => s.slotAt 4 (fun s => s.contractCmd false stream State.deactivate)))
/-- CONTRACT_CMD UNREGISTER. -/
def execContractCmdUnregister (stream : BitVec 15) (s : State) : Host.Outcome State Fault Refusal :=
  .next (s.busWrite (fun s => s.slotAt 4 (fun s => s.contractCmd false stream State.unregister)))
/-- CONTRACT_CMD CHECK, with what the other chips answer. -/
def execContractCmdCheck (stream : BitVec 15) (v : PeerView) (s : State) : Host.Outcome State Fault Refusal :=
  .next (s.busWrite (fun s => s.slotAt 4 (fun s => s.contractCmd false stream (fun s e => s.check v e))))
/-- CONTRACT_CMD BREAK. -/
def execContractCmdBreak (stream : BitVec 15) (s : State) : Host.Outcome State Fault Refusal :=
  .next (s.busWrite (fun s => s.slotAt 4 (fun s => s.contractCmd false stream State.breakCmd)))

end Sys2Proof.Machine
end

