-- ==== Sys2Proof/Machine/TileCtl.lean ====
section
/-! DEFINITION. Tile control space: what a read of each register returns and what a write of each register does, with the
completion code (R104 to R106, R122, R134, R135, R144 to R161, R207 to R209). -/

namespace Sys2Proof.Machine

/-! ### Jobs: what their descriptors name -/

/-- Outputs N and vectors V of a matrix descriptor (Table 3.7). -/
def mmN (d : List Byte) : Nat := 8 * ((wordAt d 0x0C).toNat / 2 ^ 8 % 256 + 1)
def mmV (d : List Byte) : Nat := (wordAt d 0x0C).toNat / 2 ^ 16 % 256 + 1

/-- The accumulator entries a job uses: first entry counted from bank 0, and how many (R126, R240). -/
def Job.entries (j : Job) : Option (Nat × Nat) :=
  let d := j.desc
  match j.engine with
  | .matrix => some (512 * wfld (wordAt d 0x14) 2 0 + wfld (wordAt d 0x14) 11 3, mmN d * mmV d)
  | .gate =>
    if wfld (wordAt d 0) 22 21 = 1 then
      some (512 * wfld (wordAt d 8) 2 0 + wfld (wordAt d 8) 11 3, (wfld (wordAt d 0x10) 11 0 + 1) * (wfld (wordAt d 0x10) 19 12 + 1))
    else none
  | .scan => none

/-- Whether a job uses accumulator bank b. -/
def Job.usesBank (j : Job) (b : Nat) : Bool :=
  match j.entries with
  | some (f, n) => decide (f < 512 * b + 512) && decide (512 * b < f + n)
  | none => false

/-- MM_STATUS.ACC_USED: whether a queued or running job uses bank b. -/
def Tile.bankUsed (t : Tile) (b : Nat) : Bool := t.jobs.any (·.usesBank b)

/-- The gate program a job uses, if it uses one. -/
def Job.program (j : Job) : Option Nat :=
  match j.engine with
  | .matrix => if wbit (wordAt j.desc 0x18) 0 then some (wfld (wordAt j.desc 0x18) 4 1) else none
  | .gate => some (wfld (wordAt j.desc 0x10) 23 20)
  | .scan => none

/-! ### Probes (R134) -/

/-- Restart a probe. -/
def Tile.probeRestart (t : Tile) (n : Nat) (now : Word) : Tile :=
  ((t.wr (Reg.MA_MAX n) 0).wr (Reg.MA_SAT n) 0).wr (Reg.MA_STAMP n) now

/-! ### Event state (R206 to R209) -/

/-- EV_NEURON_COUNT rounded up to a multiple of 16. -/
def Tile.npad (t : Tile) : Nat := (t.fld Reg.EV_NEURON_COUNT 16 0 + 15) / 16 * 16

/-- Delay-ring slots L = 2^RING_SHIFT. -/
def Tile.evSlots (t : Tile) : Nat := 2 ^ t.fld Reg.EV_CFG 3 1

/-- The SRAM offset of the slot of neuron n for beat b (R206). -/
def Tile.slotAddr (t : Tile) (n b : Nat) : Nat := t.fld Reg.EV_NEURON_BASE 17 6 * 64 + 4 * (t.npad * (b % t.evSlots) + n)

/-- Whether a write of EV_CFG may set ENABLE (R207). -/
def Tile.evValid (t : Tile) (cfg : Word) : Bool :=
  let sh := wfld cfg 3 1
  let c := t.fld Reg.EV_NEURON_COUNT 16 0
  decide (2 ≤ sh) && decide (sh ≤ 6) && decide (1 ≤ c) && decide (c ≤ 65536) &&
  decide (t.fld Reg.EV_NEURON_BASE 17 6 * 64 + 2 ^ sh * t.npad * 4 ≤ 0x40000) && decide (t.fld Reg.EV_SYN_BASE 17 6 * 64 + 4 * c ≤ 0x40000)

/-- A write to EV_CFG (R207, R208, R209). -/
def State.evCfgWrite (s : State) (l : Nat) (v : Word) : State × Nat :=
  let t := s.ltile l
  let old := t.rd Reg.EV_CFG
  let new := v &&& 0xFF#32
  if wbit old 0 then
    if wbit v 0 then
      if wfld old 6 1 ≠ wfld v 6 1 then (s, cBusy) else (s.onL l (·.wr Reg.EV_CFG new), cOK)
    else if t.spikes ≠ [] ∨ t.cursors ≠ [] then (s, cBusy)
    else (s.onL l (·.wr Reg.EV_CFG new), cOK)
  else if wbit v 0 then
    if t.evValid v then
      let s := s.onL l (fun t => { t.wr Reg.EV_CFG new with evClear := true })
      let t := s.ltile l
      (s.storeAround l false (t.slotAddr 0 0) (List.replicate (t.evSlots * t.npad * 4) 0), cOK)
    else (s.onL l (·.wr Reg.EV_CFG (wSetBit new 0 false)), cOK)
  else (s.onL l (·.wr Reg.EV_CFG new), cOK)

/-! ### Rings and sync objects -/

/-- Pushes held for ring n. -/
def Tile.heldFor (t : Tile) (n : Nat) : List ReqFlit :=
  t.held.filter (fun r => t.ringAt (Addr.off r.addr) == some n)

/-- A write to RING_CFG (R135, R158). A ring whose header line is poisoned is not enabled (R73). A ring enabled with OCCUPANCY above 0 performs no
ACTION at the enable, since R143 names a rise from 0 only (DESIGN CHOICE, log entry 74). -/
def State.ringCfgWrite (s : State) (l n : Nat) (v : Word) : State × Nat :=
  let t := s.ltile l
  let old := t.rd (Reg.RING_CFG n)
  if wbit old 7 then
    if wbit v 7 then
      if wfld old 15 0 = wfld v 15 0 then (s.onL l (·.wr (Reg.RING_CFG n) v), cOK) else (s, cBusy)
    else if s.ringOcc l n = 0 ∧ t.heldFor n = [] then (s.onL l (·.wr (Reg.RING_CFG n) v), cOK)
    else (s, cBusy)
  else if wbit v 7 then
    let h := s.headerCheck l n
    if h.2 then (h.1, cPoison)
    else if h.1.ringValid l n v then
      let s := h.1.onL l (fun t => { t.wr (Reg.RING_CFG n) v with ready := t.ready.filter (fun e => e.1 != n) })
      (s.storeMem l false ((s.ltile l).ringBase n + 0x0C) (List.replicate 52 0), cOK)
    else (h.1.onL l (·.wr (Reg.RING_CFG n) (wSetBit v 7 false)), cOK)
  else (s.onL l (·.wr (Reg.RING_CFG n) v), cOK)

/-- Whether an object would be enabled and rearming with a negative threshold (R146). -/
def syncBad (cfg th : Word) : Bool := wbit cfg 0 && wbit cfg 1 && th.msb

/-- A write to SYNC_CFG (R146, R159): FIRED and PENDING clear, C0 stays, and the object is tested. -/
def State.syncCfgWrite (s : State) (l n : Nat) (v : Word) : State × Nat :=
  let t := s.ltile l
  if syncBad v (t.rd (Reg.SYNC_THRESHOLD n)) then (s, cBusy)
  else
    let w := (v &&& 0xFFF7F#32) ||| (t.rd (Reg.SYNC_CFG n) &&& 0x100000#32)
    ((s.onL l (·.wr (Reg.SYNC_CFG n) w)).syncTest l n, cOK)

/-- A write to THRESHOLD (R144, R146). -/
def State.syncThresholdWrite (s : State) (l n : Nat) (v : Word) : State × Nat :=
  if syncBad ((s.ltile l).rd (Reg.SYNC_CFG n)) v then (s, cBusy)
  else ((s.onL l (·.wr (Reg.SYNC_THRESHOLD n) v)).syncTest l n, cOK)

/-! ### Thread commands (R122, R161) -/

/-- T_CMD START. -/
def State.threadStart (s : State) (l i : Nat) : State :=
  s.onL l (fun t =>
    if t.tstate i = tIdle ∨ t.tstate i = tHalted ∨ t.tstate i = tFault then
      (((t.onThread i (fun h => { h with isat := false, lastGate := [] })).setFld (Reg.T_STATUS i) 21 16 0).enter i
        (t.fld (Reg.T_CONFIG i) 10 0) 0xFFFFFFFF#32).wake
    else t)

/-- T_CMD HALT: at the instruction boundary the thread stands at; a WAITING or STALLED thread halts at once. -/
def State.threadHalt (s : State) (l i : Nat) : State :=
  s.onL l (fun t => if t.busy i then (t.onThread i (fun h => { h with stalled := none })).setTstate i tHalted else t)

/-- T_CMD RESUME: a HALTED thread continues at its pc, or re-enters the wait it was in, with the masks its WAIT or WAITT read and, for a WAITT, the
deadline it had, which runs on while the thread is HALTED (DESIGN CHOICE, log entry 74). -/
def State.threadResume (s : State) (l i : Nat) : State :=
  s.onL l (fun t => if t.tstate i = tHalted then (t.setTstate i (if (t.thread i).wait.isSome then tWaiting else tRunning)).wake else t)

/-! ### Microcode store (R104, R106) -/

/-- Whether a write of microcode word w is refused because its image half is in use. -/
def Tile.ucodeBusy (t : Tile) (w : Nat) : Bool :=
  (List.range 4).any (fun i => t.busy i &&
    (!t.bit Reg.TILE_CONFIG 8 || (t.bit (Reg.T_CONFIG i) 11 == decide (1024 ≤ w))))

/-- A 4-byte write into the microcode store: a read-modify-write of the word. -/
def State.ucodeWriteHalf (s : State) (l i : Nat) (v : Word) : State × Nat :=
  let t := s.ltile l
  let w := i / 2
  let e := spGet (fun _ => 0) t.ucodeErr w
  if e = 2 then (s, cPoison)
  else if t.ucodeBusy w then (s, cBusy)
  else (s.onL l (fun t =>
    let t := if e = 1 then t.countBy Reg.UCODE_CORRECTED 1 else t
    { t.wr (Reg.UCODE i) v with ucodeErr := spSet (fun _ => 0) t.ucodeErr w 0 }), cOK)

/-- An 8-byte write into the microcode store: the word whole, its error gone. -/
def State.ucodeWriteWord (s : State) (l w : Nat) (lo hi : Word) : State × Nat :=
  if (s.ltile l).ucodeBusy w then (s, cBusy)
  else (s.onL l (fun t => { (t.wr (Reg.UCODE (2 * w)) lo).wr (Reg.UCODE (2 * w + 1)) hi with ucodeErr := spSet (fun _ => 0) t.ucodeErr w 0 }), cOK)

/-! ### The whole space -/

/-- The index of an offset in a register array, if it is one of its n registers. -/
def arrIdx (o base stride n : Nat) : Option Nat :=
  if base ≤ o ∧ (o - base) % stride = 0 ∧ (o - base) / stride < n then some ((o - base) / stride) else none

/-- A plain write by access type: RW bits are set, W1C bits are cleared by ones, everything else stays (R8, R11). -/
def plainWrite (r : RegRow) (old v : Word) : Word :=
  ((old &&& ~~~ (wd r.rw)) ||| (v &&& wd r.rw)) &&& ~~~ (v &&& wd r.w1c)

/-- A 4-byte write of tile control space, and its completion code. -/
def State.ctlWrite (s : State) (l o : Nat) (v : Word) : State × Nat :=
  match tileRow o with
  | none => (s, cOK)
  | some row =>
    let t := s.ltile l
    let plain := s.onL l (fun t => t.wr o (plainWrite row (t.rd o) v))
    if row.ro then (s, cProtect)
    else if o = Reg.TILE_CONFIG then
      let w := plainWrite row (t.rd o) v
      let w := if (List.range 4).all (fun i => t.tstate i == tIdle || t.tstate i == tHalted) then w else wSetBit w 8 (t.bit o 8)
      (s.onL l (·.wr o w), cOK)
    else if o = Reg.EV_CFG then s.evCfgWrite l v
    else if o = Reg.EV_NEURON_BASE ∨ o = Reg.EV_NEURON_COUNT ∨ o = Reg.EV_SYN_BASE ∨ o = Reg.EV_BEAT then
      if t.bit Reg.EV_CFG 0 then (s, cBusy) else (plain, cOK)
    else if o = Reg.MM_CFG then
      if (List.range 8).any (fun b => (wbit v b != t.bit o b) && (s.ltile l).bankUsed b) then (s, cBusy) else (plain, cOK)
    else match arrIdx o (Reg.RING_BASE 0) 32 8 with
    | some n => if t.ringOn n then (s, cBusy) else (plain, cOK)
    | none => match arrIdx o (Reg.RING_CFG 0) 32 8 with
    | some n => s.ringCfgWrite l n v
    | none => match arrIdx o (Reg.SYNC_COUNT 0) 32 32 with
    | some n => (s.syncPutCount l n v, cOK)
    | none => match arrIdx o (Reg.SYNC_THRESHOLD 0) 32 32 with
    | some n => s.syncThresholdWrite l n v
    | none => match arrIdx o (Reg.SYNC_CFG 0) 32 32 with
    | some n => s.syncCfgWrite l n v
    | none => match arrIdx o (Reg.MA_CFG 0) 16 16 with
    | some n => (plain.onL l (fun t => t.probeRestart n s.now32), cOK)
    | none => match arrIdx o (Reg.T_CMD 0) 0x800 4 with
    | some i =>
      let c := wfld v 1 0
      (if c = 1 then s.threadStart l i else if c = 2 then s.threadHalt l i else if c = 3 then s.threadResume l i else s, cOK)
    | none =>
      if 0x2000 ≤ o ∧ o < 0x4000 ∧ row.rw ≠ 0 then
        let i := (o - 0x2000) / 0x800
        if t.busy i then (s, cBusy) else (plain, cOK)
      else if 0x4000 ≤ o ∧ o < 0x8000 then s.ucodeWriteHalf l ((o - 0x4000) / 4) v
      else if 0x8000 ≤ o ∧ o < 0xC000 then
        if t.bankUsed ((o - 0x8000) / 0x800) then (s, cBusy)
        else (plain.onL l (fun t => { t with accErr := spSet (fun _ => 0) t.accErr ((o - 0x8000) / 4) 0 }), cOK)
      else if 0xC000 ≤ o then
        if t.jobs.any (fun j => j.program == some ((o - 0xC000) / 64)) then (s, cBusy) else (plain, cOK)
      else (plain, cOK)

/-- TILE_STATUS (Table 3.14). -/
def State.tileStatus (s : State) (l : Nat) : Word :=
  let t := s.ltile l
  let b (n : Nat) (x : Bool) : Nat := if x then 2 ^ n else 0
  wd (b 0 (t.busy 0) + b 1 (t.busy 1) + b 2 (t.busy 2) + b 3 (t.busy 3) + b 4 (t.spikes != [] || t.cursors != [] || t.posts != [] || t.evClear) +
    b 5 (t.jobs.any (·.engine == .matrix)) + b 6 (t.jobs.any (fun j => j.program.isSome)) + b 7 (t.jobs.any (·.engine == .scan)) +
    b 8 (t.bit Reg.CLK_STATUS 10) + b 9 (t.fld Reg.MM_CFG 7 0 != 0) +
    b 10 ((List.range 4).any (fun i => t.tstate i == tFault) || (t.bit Reg.CLK_STATUS 12 && t.spareBad)))

/-- CLK_STATUS as it reads: FREQ_MHZ is the frequency that the oscillator is set to, at which a stopped clock restarts (R100), and 0 before READY
and without power (DESIGN CHOICE, log entry 82). -/
def State.clkStatus (s : State) (l : Nat) : Word :=
  wSetFld ((s.ltile l).rd Reg.CLK_STATUS) 9 0 (if s.ready && !s.tileDark l then s.oscMhz (s.physOf l) else 0)

/-- A register whose value is a view of other state, when the offset is one. RING_OCC reads 0 while its ring is not enabled (DESIGN CHOICE, log
entry 74). -/
def State.ctlView (s : State) (l o : Nat) : Option Word :=
  let t := s.ltile l
  if o = Reg.TILE_ID then some (wd (l + 2 ^ 8 * s.physOf l + 2 ^ 24 * s.epochOf l))
  else if o = Reg.TILE_STATUS then some (s.tileStatus l)
  else if o = Reg.CLK_STATUS then some (s.clkStatus l)
  else if o = Reg.EV_QUEUE then some (wd t.spikes.length)
  else if o = Reg.MM_STATUS then
    let run := t.jobs.find? (fun j => j.engine == .matrix && j.running)
    some (wd ((List.range 8).foldl (fun a b => a + if (s.ltile l).bankUsed b then 2 ^ b else 0) 0 +
      match run with | some j => 2 ^ 8 + 2 ^ 9 * j.cls | none => 0))
  else if o = Reg.GP_STATUS then
    match t.jobs.find? (fun j => j.running && j.program.isSome) with
    | some j => some (wd (1 + 2 * j.program.getD 0))
    | none => some 0
  else if o = Reg.SC_STATUS then some (if t.jobs.any (fun j => j.engine == .scan && j.running) then 1 else 0)
  else match arrIdx o (Reg.RING_OCC 0) 32 8 with
  | some n => some (if t.ringOn n then wd (s.ringOcc l n % 2 ^ 11 + 2 ^ 11 * ((s.ringWord l n 0 - s.ringWord l n 1).toNat % 2 ^ 11)) else 0)
  | none => match arrIdx o (Reg.RING_HELD 0) 32 8 with
  | some n => some (wd (min 0xFFFF (t.heldFor n).length))
  | none => none

/-- What a read of a register leaves: read-clears bits clear, a read of MA_MAX restarts its probe (R8, R134). -/
def State.ctlReadEffect (s : State) (l o : Nat) : State :=
  match arrIdx o (Reg.MA_MAX 0) 16 16 with
  | some n => s.onL l (fun t => t.probeRestart n s.now32)
  | none =>
    match tileRow o with
    | some row => if row.rc = 0 then s else s.onL l (fun t => t.wr o (t.rd o &&& ~~~ (wd row.rc)))
    | none => s

/-- A 4-byte read of tile control space. A microcode word in error reads as it is stored, unchecked and uncounted: R104 speaks of fetches and of 4-byte
PUTs (DESIGN CHOICE, log entry 84). -/
def State.ctlRead (s : State) (l o : Nat) : State × Word :=
  match s.ctlView l o with
  | some w => (s, w)
  | none =>
    let s := if 0x8000 ≤ o ∧ o < 0xC000 then (s.accCheck l ((o - 0x8000) / 4)).1 else s
    (s.ctlReadEffect l o, match tileRow o with | some _ => (s.ltile l).rd o | none => 0)

end Sys2Proof.Machine
end

