-- ==== Sys2Proof/Machine/Ucode.lean ====
section
/-! DEFINITION. How a thread issues one microcode instruction: operand kinds, registers that await a response, the end of the image,
stalls, faults and the counters (R107, R108, R112 to R119, R695, R696). -/

namespace Sys2Proof.Machine

/-! ### Operands -/

/-- What kind of register an operand field needs (R695). -/
inductive Opd where
  | no | sc | vec | either
deriving DecidableEq, Repr

/-- The kinds that the three operand fields of an operation need. -/
structure Uses where
  dst : Opd
  a   : Opd
  b   : Opd
deriving DecidableEq, Repr

/-- Whether an operand code names a scalar: s0 to s15 or one of 48 to 51 (R113). -/
def isScalar (c : Nat) : Bool := decide (c < 16) || (decide (48 ≤ c) && decide (c < 52))

/-- Whether an operand code names a vector register. -/
def isVector (c : Nat) : Bool := decide (16 ≤ c) && decide (c < 32)

/-- Whether a code is of the kind a field needs. -/
def Opd.ok : Opd → Nat → Bool
  | .no, _ => true
  | .sc, c => isScalar c
  | .vec, c => isVector c
  | .either, c => isScalar c || isVector c

/-- Whether every operand code of an instruction is of the kind needed. -/
def Uses.ok (k : Uses) (u : UInsn) : Bool := k.dst.ok u.dst.toNat && k.a.ok u.srca.toNat && k.b.ok u.srcb.toNat

/-- Bits [hi:lo] of the immediate. -/
def uimm (u : UInsn) (hi lo : Nat) : Nat := (u.imm.toNat >>> lo) % 2 ^ (hi + 1 - lo)

/-- Bit n of the immediate. -/
def ubit (u : UInsn) (n : Nat) : Bool := u.imm.getLsbD n

/-- The value of a scalar operand of thread i (R113). -/
def Tile.sget (t : Tile) (now : Word) (i c : Nat) : Word :=
  if c < 16 then t.rd (Reg.S_REG i c) else if c = 49 then wd i else if c = 50 then now else if c = 51 then t.rd Reg.EV_BEAT else 0

/-- Write a scalar operand: a result for codes 48 to 51 is discarded (R695). -/
def Tile.sput (t : Tile) (i c : Nat) (v : Word) : Tile := if c < 16 then t.wr (Reg.S_REG i c) v else t

/-- Lane j of the vector register a code names. -/
def Tile.lane (t : Tile) (i c j : Nat) : Word := t.rd (Reg.V_REG i (c - 16) j)

/-- Write lane j of a vector register. -/
def Tile.putLane (t : Tile) (i c j : Nat) (v : Word) : Tile := t.wr (Reg.V_REG i (c - 16) j) v

/-- Write all 16 lanes. -/
def Tile.putVec (t : Tile) (i c : Nat) (f : Nat → Word) : Tile := overBelow 16 (fun j t => t.putLane i c j (f j)) t

/-- Scalar read and write in the state. -/
def State.sget (s : State) (l i : Nat) (c : BitVec 6) : Word := (s.ltile l).sget s.now32 i c.toNat
def State.sput (s : State) (l i : Nat) (c : BitVec 6) (v : Word) : State := s.onL l (·.sput i c.toNat v)

/-- Whether scalar k of thread i awaits a response or a FENCE result (R119). -/
def Tile.awaits (t : Tile) (i k : Nat) : Bool :=
  decide (k < 16) && (t.out.any (fun o => o.unit == i && o.dst == .reg k) || (t.thread i).fences.any (fun f => f.dst == k))

/-- Whether an instruction uses a register that awaits a response. -/
def Uses.blocked (k : Uses) (t : Tile) (i : Nat) (u : UInsn) : Bool :=
  (k.dst != .no && t.awaits i u.dst.toNat) || (k.a != .no && t.awaits i u.srca.toNat) || (k.b != .no && t.awaits i u.srcb.toNat)

/-! ### What an instruction does to the flow of its thread -/

/-- How the thread goes on after an operation. -/
inductive After where
  | next
  | jump (pc : Nat)
  | call (pc : Nat)
  | halt
  | idle
  | wait (w : WaitState)
  | yield
  | stall
  | fault (code : Nat)
deriving DecidableEq, Repr

/-- One microcode operation: its class and OP (Table 3.6), the operand kinds it needs, and its effect for logical tile l, thread i. -/
structure UOp where
  cls  : Nat
  op   : Nat
  uses : UInsn → Uses
  eff  : Nat → Nat → UInsn → State → State × After

/-- The word of an instruction (Table 3.4). -/
def UOp.word (o : UOp) (u : UInsn) : DWord :=
  BitVec.ofNat 64 (o.cls * 2 ^ 60 + o.op * 2 ^ 54 + u.dst.toNat * 2 ^ 48 + u.srca.toNat * 2 ^ 42 + u.srcb.toNat * 2 ^ 36 + u.imm.toNat)

/-- The words of thread i's image: first and one past the last (R105). -/
def Tile.image (t : Tile) (i : Nat) : Nat × Nat :=
  if t.bit Reg.TILE_CONFIG 8 then (if t.bit (Reg.T_CONFIG i) 11 then (1024, 2048) else (0, 1024)) else (0, 2048)

/-- Whether a microcode word lies in thread i's image. -/
def Tile.inImage (t : Tile) (i pc : Nat) : Bool := decide ((t.image i).1 ≤ pc) && decide (pc < (t.image i).2)

/-- The thread becomes STALLED at an instruction that has not issued (R107). -/
def State.stallThread (s : State) (l i : Nat) (w : DWord) : State :=
  s.onL l (fun t => (t.onThread i (fun h => { h with stalled := some w })).setTstate i tStalled)

/-- An instruction has issued: T_ISSUED, CYCLES_ALL, CYCLES_C0, and the round robin's last thread. An issue takes one cycle. -/
def Tile.issued (t : Tile) (i : Nat) : Tile :=
  let t := (t.countBy (Reg.T_ISSUED i) 1).countBy Reg.CYCLES_ALL 1
  let t := if t.tclass i = 0 then t.countBy Reg.CYCLES_C0 1 else t
  { t with lastIssued := i, yielded := none }

/-- The thread continues after an operation whose effect gave state s' (R111, R120, R121, R696): an operation that would continue
past the image's last word, or jumps outside the image, faults SPLIT with none of its effect. -/
def State.settle (s s' : State) (l i : Nat) (w : DWord) (a : After) : State :=
  let pc := (s.ltile l).pc i
  let t := s.ltile l
  let split := s.faultThread l i ftSplit
  match a with
  | .stall => s.stallThread l i w
  | .fault c => s'.faultThread l i c
  | .jump p => if t.inImage i p then s'.onL l (fun t => (t.setPc i p).issued i) else split
  | .call p =>
    if 8 ≤ (t.thread i).stack.length then s.faultThread l i ftStack
    else if t.inImage i p then
      s'.onL l (fun t => ((t.onThread i (fun h => { h with stack := (pc + 1) :: h.stack })).setPc i p).issued i)
    else split
  | .idle => (s'.onL l (fun t => (t.issued i).setTstate i tIdle)).serveNext l i
  | .next => if t.inImage i (pc + 1) then s'.onL l (fun t => (t.setPc i (pc + 1)).issued i) else split
  | .halt => if t.inImage i (pc + 1) then s'.onL l (fun t => ((t.setPc i (pc + 1)).issued i).setTstate i tHalted) else split
  | .wait ws =>
    if t.inImage i (pc + 1) then
      s'.onL l (fun t => ((t.onThread i (fun h => { h with wait := some ws })).issued i).setTstate i tWaiting)
    else split
  | .yield => if t.inImage i (pc + 1) then s'.onL l (fun t => { (t.setPc i (pc + 1)).issued i with yielded := some i }) else split

/-- Issue one instruction of thread i of logical tile l. A thread that is not RUNNING issues nothing. -/
def State.issueInsn (s : State) (l i : Nat) (o : UOp) (u : UInsn) : State :=
  if (s.ltile l).tstate i ≠ tRunning then s
  else if !(o.uses u).ok u then s.faultThread l i ftIllegal
  else if (o.uses u).blocked (s.ltile l) i u then s.stallThread l i (o.word u)
  else
    let r := o.eff l i u s
    s.settle r.1 l i (o.word u) r.2

/-! ### What several operations do -/

/-- Merge float flags into T_FLAGS (R186). -/
def Tile.mergeFlags (t : Tile) (i f : Nat) : Tile := t.wr (Reg.T_FLAGS i) (t.rd (Reg.T_FLAGS i) ||| wd (f % 32))

/-- n saturations of thread i: SAT_COUNT and ISAT (R175). -/
def Tile.saturate (t : Tile) (i n : Nat) : Tile :=
  if n = 0 then t else (t.countBy Reg.SAT_COUNT n).onThread i (fun h => { h with isat := true })

/-- A value at a tap, seen by every probe set to it whose range covers the index (R175, R177, R178): `mag` its magnitude (none for a
NaN), `sats` the events its tap counts. -/
def Tile.probe (t : Tile) (tap idx : Nat) (mag : Option Nat) (sats : Nat) : Tile :=
  overBelow 16 (fun n t =>
    let c := t.rd (Reg.MA_CFG n)
    if wfld c 2 0 = tap ∧ wfld c 15 4 ≤ idx ∧ idx ≤ wfld c 27 16 then
      let t := match mag with
        | some m => if (t.rd (Reg.MA_MAX n)).toNat < m then t.wr (Reg.MA_MAX n) (wd m) else t
        | none => t
      if sats = 0 then t else t.countBy (Reg.MA_SAT n) sats
    else t) t

/-- The magnitude of a float for a probe, and whether it is an infinity or a NaN. -/
def floatMag (w : Word) : Option Nat × Bool :=
  let m := w.toNat % 2 ^ 31
  (if m > 0x7F800000 then none else some m, decide (m ≥ 0x7F800000))

/-- Whether n bytes at an offset lie in tile SRAM. -/
def inSram (o n : Nat) : Bool := decide (o + n ≤ 0x40000)

/-- A read of SRAM by a thread or an engine (R116): the bytes, or the fault code it faults with. -/
def State.loadSram (s : State) (l o n : Nat) : State × Option Nat × List Byte :=
  if inSram o n then
    let r := s.readMem l false o n 1
    (r.1, if r.2.1.poisoned || r.2.1.unwrErr then some ftPoison else none, r.2.2)
  else (s, some ftAddr, [])

/-- A write of SRAM by a thread or an engine (R116, R136): a range outside SRAM or in the header line of an enabled ring faults ADDR,
a part of a poisoned line faults POISON. -/
def State.storeSram (s : State) (l o : Nat) (bs : List Byte) : State × Option Nat :=
  if !inSram o bs.length || (s.ltile l).touchesRing o bs.length then (s, some ftAddr)
  else
    let w := s.partialWrite l false o bs.length
    if w.2 then (w.1, some ftPoison) else (w.1.storeMem l false o bs, none)

end Sys2Proof.Machine
end

