-- ==== Sys2Proof/Machine/Ctrl.lean ====
section
/-! DEFINITION. The CTRL class (Table 3.6 class 0; R696). -/

namespace Sys2Proof.Machine

/-- No operand. -/
def usesNone : UInsn → Uses := fun _ => { dst := .no, a := .no, b := .no }
/-- SRCA a scalar. -/
def usesA : UInsn → Uses := fun _ => { dst := .no, a := .sc, b := .no }
/-- SRCA and SRCB scalars. -/
def usesAB : UInsn → Uses := fun _ => { dst := .no, a := .sc, b := .sc }
/-- DST a scalar. -/
def usesD : UInsn → Uses := fun _ => { dst := .sc, a := .no, b := .no }

/-- The branch target IMM[10:0]. -/
def utarget (u : UInsn) : Nat := uimm u 10 0

/-- Go to the target when c holds, on otherwise. -/
def branchIf (c : Bool) (u : UInsn) : After := if c then .jump (utarget u) else .next

def uNop : UOp := { cls := 0, op := 0, uses := usesNone, eff := fun _ _ _ s => (s, .next) }
def uHalt : UOp := { cls := 0, op := 1, uses := usesNone, eff := fun _ _ _ s => (s, .halt) }
def uIdle : UOp := { cls := 0, op := 2, uses := usesNone, eff := fun _ _ _ s => (s, .idle) }
def uBr : UOp := { cls := 0, op := 3, uses := usesNone, eff := fun _ _ u s => (s, .jump (utarget u)) }
def uBrz : UOp := { cls := 0, op := 4, uses := usesA, eff := fun l i u s => (s, branchIf (s.sget l i u.srca == 0) u) }
def uBrnz : UOp := { cls := 0, op := 5, uses := usesA, eff := fun l i u s => (s, branchIf (s.sget l i u.srca != 0) u) }
def uBrlt : UOp :=
  { cls := 0, op := 6, uses := usesAB, eff := fun l i u s => (s, branchIf ((s.sget l i u.srca).slt (s.sget l i u.srcb)) u) }
def uBrltu : UOp :=
  { cls := 0, op := 7, uses := usesAB, eff := fun l i u s => (s, branchIf ((s.sget l i u.srca).ult (s.sget l i u.srcb)) u) }
def uCall : UOp := { cls := 0, op := 8, uses := usesNone, eff := fun _ _ u s => (s, .call (utarget u)) }
def uRet : UOp :=
  { cls := 0, op := 9, uses := usesNone, eff := fun l i _ s =>
      match ((s.ltile l).thread i).stack with
      | [] => (s, .fault ftStack)
      | p :: r => (s.onL l (fun t => t.onThread i (fun h => { h with stack := r })), .jump p) }
def uLoop : UOp :=
  { cls := 0, op := 10, uses := usesD, eff := fun l i u s =>
      let v := s.sget l i u.dst - 1
      (s.sput l i u.dst v, branchIf (v != 0) u) }
def uYield : UOp := { cls := 0, op := 11, uses := usesNone, eff := fun _ _ _ s => (s, .yield) }

/-- NOP. -/
def execNop (l : Fin 256) (i : Fin 4) (u : UInsn) (s : State) : Host.Outcome State Fault Refusal := .next (s.issueInsn l i uNop u)
/-- HALT: HALTED, with the pc at the following instruction. -/
def execHalt (l : Fin 256) (i : Fin 4) (u : UInsn) (s : State) : Host.Outcome State Fault Refusal := .next (s.issueInsn l i uHalt u)
/-- IDLE: IDLE, and a pending dispatch is served (R111). -/
def execIdle (l : Fin 256) (i : Fin 4) (u : UInsn) (s : State) : Host.Outcome State Fault Refusal := .next (s.issueInsn l i uIdle u)
/-- BR. -/
def execBr (l : Fin 256) (i : Fin 4) (u : UInsn) (s : State) : Host.Outcome State Fault Refusal := .next (s.issueInsn l i uBr u)
/-- BRZ. -/
def execBrz (l : Fin 256) (i : Fin 4) (u : UInsn) (s : State) : Host.Outcome State Fault Refusal := .next (s.issueInsn l i uBrz u)
/-- BRNZ. -/
def execBrnz (l : Fin 256) (i : Fin 4) (u : UInsn) (s : State) : Host.Outcome State Fault Refusal := .next (s.issueInsn l i uBrnz u)
/-- BRLT. -/
def execBrlt (l : Fin 256) (i : Fin 4) (u : UInsn) (s : State) : Host.Outcome State Fault Refusal := .next (s.issueInsn l i uBrlt u)
/-- BRLTU. -/
def execBrltu (l : Fin 256) (i : Fin 4) (u : UInsn) (s : State) : Host.Outcome State Fault Refusal := .next (s.issueInsn l i uBrltu u)
/-- CALL. -/
def execCall (l : Fin 256) (i : Fin 4) (u : UInsn) (s : State) : Host.Outcome State Fault Refusal := .next (s.issueInsn l i uCall u)
/-- RET. -/
def execRet (l : Fin 256) (i : Fin 4) (u : UInsn) (s : State) : Host.Outcome State Fault Refusal := .next (s.issueInsn l i uRet u)
/-- LOOP. -/
def execLoop (l : Fin 256) (i : Fin 4) (u : UInsn) (s : State) : Host.Outcome State Fault Refusal := .next (s.issueInsn l i uLoop u)
/-- YIELD. -/
def execYield (l : Fin 256) (i : Fin 4) (u : UInsn) (s : State) : Host.Outcome State Fault Refusal := .next (s.issueInsn l i uYield u)

end Sys2Proof.Machine
end

