-- ==== Sys2Proof/Machine/Flags.lean ====
section
/-! DEFINITION. Float arithmetic and every flag it sets: binary32, binary16 and bf16 (R162, R163, R180 to R196), on exact
integers. A flag set is a number: 1 OF, 2 UF, 4 IX, 8 IV, 16 DZ (T_FLAGS order). -/

namespace Sys2Proof.Machine

abbrev fOF : Nat := 1
abbrev fUF : Nat := 2
abbrev fIX : Nat := 4
abbrev fIV : Nat := 8
abbrev fDZ : Nat := 16

/-- A float format: precision in bits, exponent of the least normal, exponent field of infinity, whether FTZ acts on it. -/
structure Fmt where
  p    : Nat
  emin : Int
  einf : Nat
  ftz  : Bool
deriving DecidableEq, Repr

def fmt32 : Fmt := { p := 24, emin := -126, einf := 255, ftz := true }
def fmt16 : Fmt := { p := 11, emin := -14, einf := 31, ftz := false }
def fmtBf : Fmt := { p := 8, emin := -126, einf := 255, ftz := true }

/-- A float's value: a NaN, an infinity, or (−1)^neg × m × 2^e. -/
inductive FVal where
  | nan
  | inf (neg : Bool)
  | fin (neg : Bool) (m : Nat) (e : Int)
deriving DecidableEq, Repr

/-- The exponent of the least subnormal. -/
def Fmt.qmin (f : Fmt) : Int := f.emin - ((f.p : Int) - 1)

/-- The bits of infinity, without sign. -/
def Fmt.infBits (f : Fmt) : Nat := f.einf * 2 ^ (f.p - 1)

/-- The sign bit's weight. -/
def Fmt.sign (f : Fmt) : Nat := (f.einf + 1) * 2 ^ (f.p - 1)

/-- The canonical quiet NaN (R181). -/
def Fmt.nanBits (f : Fmt) : Nat := f.infBits + 2 ^ (f.p - 2)

/-- The value of a bit pattern; with flush, a subnormal reads as zero of its sign (R188). -/
def Fmt.decode (f : Fmt) (flush : Bool) (bits : Nat) : FVal :=
  let neg := decide (f.sign ≤ bits % (2 * f.sign))
  let mag := bits % f.sign
  let ex := mag / 2 ^ (f.p - 1)
  let fr := mag % 2 ^ (f.p - 1)
  if ex = f.einf then (if fr = 0 then .inf neg else .nan)
  else if ex = 0 then .fin neg (if flush && f.ftz then 0 else fr) f.qmin
  else .fin neg (fr + 2 ^ (f.p - 1)) (f.qmin + ex - 1)

/-- A magnitude m × 2^e, more by less than one unit when sticky, cut at 2^q and rounded to nearest even: the multiple and whether
it is inexact. -/
def roundAt (m : Nat) (e : Int) (sticky : Bool) (q : Int) : Nat × Bool :=
  if q ≤ e then (m * 2 ^ (e - q).toNat, sticky)
  else
    let sh := (q - e).toNat
    let n := m / 2 ^ sh
    let r := m % 2 ^ sh
    let h := 2 ^ (sh - 1)
    let up := decide (r > h) || (r == h && (sticky || n % 2 == 1))
    (if up then n + 1 else n, decide (r ≠ 0) || sticky)

/-- Round a nonzero magnitude into a format (R180, R185): the bits and the flags. With flush, a tiny result is zero with UF and
IX (R188). -/
def Fmt.round (f : Fmt) (flush neg : Bool) (m : Nat) (e : Int) (sticky : Bool) : Nat × Nat :=
  let sgn := if neg then f.sign else 0
  if m = 0 ∧ sticky = false then (sgn, 0)
  else
    let top : Int := e + (Nat.size m : Int) - 1
    let q0 : Int := if m = 0 then e - f.p else top - ((f.p : Int) - 1)
    let r0 := roundAt m e sticky q0
    let tiny := decide (q0 + (Nat.size r0.1 : Int) - 1 < f.emin)
    if tiny && flush && f.ftz then (sgn, fUF + fIX)
    else
      let q := max q0 f.qmin
      let r := roundAt m e sticky q
      let bits := (q - f.qmin).toNat * 2 ^ (f.p - 1) + r.1
      if f.infBits ≤ bits then (sgn + f.infBits, fOF + fIX)
      else (sgn + bits, if r.2 then (if tiny then fUF + fIX else fIX) else 0)

/-- The bits of an exact value: infinities, the canonical NaN, or a rounding. -/
def Fmt.encode (f : Fmt) (flush : Bool) : FVal → Nat × Nat
  | .nan => (f.nanBits, 0)
  | .inf neg => ((if neg then f.sign else 0) + f.infBits, 0)
  | .fin neg m e => f.round flush neg m e false

/-- A binary32 operand under FTZ. -/
def f32 (ftz : Bool) (w : Word) : FVal := fmt32.decode ftz w.toNat

/-- A binary32 result. -/
def f32out (ftz : Bool) (v : FVal) : Word × Nat := ((fmt32.encode ftz v).map wd id)

/-- The canonical binary32 NaN. -/
abbrev nan32 : Word := 0x7FC00000#32

/-- The exact sum of two values; zeros by R183. -/
def FVal.add : FVal → FVal → FVal × Nat
  | .nan, _ => (.nan, 0)
  | _, .nan => (.nan, 0)
  | .inf a, .inf b => if a == b then (.inf a, 0) else (.nan, fIV)
  | .inf a, .fin .. => (.inf a, 0)
  | .fin .., .inf b => (.inf b, 0)
  | .fin na ma ea, .fin nb mb eb =>
    let e := min ea eb
    let va : Int := (if na then -1 else 1) * ((ma * 2 ^ (ea - e).toNat : Nat) : Int)
    let vb : Int := (if nb then -1 else 1) * ((mb * 2 ^ (eb - e).toNat : Nat) : Int)
    let v := va + vb
    (if v = 0 then .fin (na && nb && ma == 0 && mb == 0) 0 e else .fin (decide (v < 0)) v.natAbs e, 0)

/-- The negated value. -/
def FVal.neg : FVal → FVal
  | .nan => .nan
  | .inf a => .inf (!a)
  | .fin a m e => .fin (!a) m e

/-- The exact product. -/
def FVal.mul : FVal → FVal → FVal × Nat
  | .nan, _ => (.nan, 0)
  | _, .nan => (.nan, 0)
  | .inf a, .inf b => (.inf (a != b), 0)
  | .inf a, .fin b m _ => if m = 0 then (.nan, fIV) else (.inf (a != b), 0)
  | .fin a m _, .inf b => if m = 0 then (.nan, fIV) else (.inf (a != b), 0)
  | .fin a m e, .fin b n g => (.fin (a != b) (m * n) (e + g), 0)

/-- Whether two values are 0 and ∞ in some order. -/
def FVal.zeroInf : FVal → FVal → Bool
  | .inf _, .fin _ m _ => m == 0
  | .fin _ m _, .inf _ => m == 0
  | _, _ => false

/-- ADD, rounded (Table 4.7 FN 1). -/
def fAdd (ftz : Bool) (a b : Word) : Word × Nat :=
  let r := (f32 ftz a).add (f32 ftz b)
  let o := f32out ftz r.1
  (o.1, r.2 ||| o.2)

/-- SUB (FN 2). -/
def fSub (ftz : Bool) (a b : Word) : Word × Nat :=
  let r := (f32 ftz a).add (f32 ftz b).neg
  let o := f32out ftz r.1
  (o.1, r.2 ||| o.2)

/-- MUL (FN 3). -/
def fMul (ftz : Bool) (a b : Word) : Word × Nat :=
  let r := (f32 ftz a).mul (f32 ftz b)
  let o := f32out ftz r.1
  (o.1, r.2 ||| o.2)

/-- FMA, one rounding (FN 4): 0 × ∞ + C is invalid even with C a NaN. -/
def fFma (ftz : Bool) (a b c : Word) : Word × Nat :=
  let x := f32 ftz a
  let y := f32 ftz b
  if x.zeroInf y then (nan32, fIV)
  else
    let r := (x.mul y).1.add (f32 ftz c)
    let o := f32out ftz r.1
    (o.1, r.2 ||| o.2)

/-- An order key of a binary32 pattern that is no NaN: −0 lies below +0. -/
def f32key (w : Word) : Int := if wbit w 31 then -(w.toNat % 2 ^ 31 : Nat) - 1 else (w.toNat : Int)

/-- Whether a pattern is a NaN. -/
def f32isNan (w : Word) : Bool := decide (w.toNat % 2 ^ 31 > 0x7F800000)

/-- A pattern with a subnormal flushed under FTZ. -/
def f32flush (ftz : Bool) (w : Word) : Word :=
  if ftz && decide (w.toNat % 2 ^ 31 < 0x00800000) then wd (w.toNat / 2 ^ 31 * 2 ^ 31) else w

/-- minimumNumber (FN 5). -/
def fMin (ftz : Bool) (a b : Word) : Word :=
  let a := f32flush ftz a
  let b := f32flush ftz b
  if f32isNan a then (if f32isNan b then nan32 else b) else if f32isNan b then a else if f32key a ≤ f32key b then a else b

/-- maximumNumber (FN 6). -/
def fMax (ftz : Bool) (a b : Word) : Word :=
  let a := f32flush ftz a
  let b := f32flush ftz b
  if f32isNan a then (if f32isNan b then nan32 else b) else if f32isNan b then a else if f32key b ≤ f32key a then a else b

/-- ln 2 in units of 2^−256. -/
def ln2Fix : Int := 80260960185991308862233904206310070533990667611589946606122867505419956976171

/-- Terms of the exponential series of r (units of 2^−256), each the one before times r / i. -/
def expTerms (r : Int) : Nat → Int → Nat → Int → Int
  | 0, _, _, acc => acc
  | n + 1, t, i, acc =>
    let t' := t * r / ((2 ^ 256 * i : Nat) : Int)
    expTerms r n t' (i + 1) (acc + t')

/-- e^x for an exact x in units of 2^−256: a magnitude and the power of two it stands over, to more than 200 bits. -/
def expFix (x : Int) : Nat × Int :=
  let k := (2 * x + ln2Fix) / (2 * ln2Fix)
  let r := x - k * ln2Fix
  let one : Int := (2 ^ 256 : Nat)
  ((expTerms r 60 one 1 one).toNat, k - 256)

/-- A finite value in units of 2^−256 (its exponent is at least −256). -/
def FVal.fix : FVal → Int
  | .fin neg m e => (if neg then -1 else 1) * ((m * 2 ^ (e + 256).toNat : Nat) : Int)
  | _ => 0

/-- EXP (FN 9), correctly rounded: an argument beyond ±200 overflows or underflows, another is computed to over 200 bits. -/
def fExp (ftz : Bool) (a : Word) : Word × Nat :=
  match f32 ftz a with
  | .nan => (nan32, 0)
  | .inf neg => (if neg then 0 else 0x7F800000#32, 0)
  | .fin neg m e =>
    if m = 0 then (0x3F800000#32, 0)
    else
      let x := (FVal.fin neg m e).fix
      let lim : Int := ((200 * 2 ^ 256 : Nat) : Int)
      let r : Nat × Int := if x > lim then (1, 300) else if x < -lim then (1, -300) else expFix x
      (fmt32.round ftz false r.1 r.2 true).map wd id

/-- SIGMOID (FN 7). -/
def fSigmoid (ftz : Bool) (a : Word) : Word × Nat :=
  match f32 ftz a with
  | .nan => (nan32, 0)
  | .inf neg => (if neg then 0 else 0x3F800000#32, 0)
  | .fin neg m e =>
    if m = 0 then (0x3F000000#32, 0)
    else
      let x := (FVal.fin neg m e).fix
      let lim : Int := ((200 * 2 ^ 256 : Nat) : Int)
      if !neg && decide (x ≥ ((18 * 2 ^ 256 : Nat) : Int)) then (0x3F800000#32, fIX)
      else if x < -lim then (fmt32.round ftz false 1 (-300) true).map wd id
      else
        let r := expFix (-(x.natAbs : Int))
        let one := 2 ^ (-r.2).toNat
        let num := if neg then r.1 else one
        (fmt32.round ftz false (num * 2 ^ 600 / (one + r.1)) (-600) true).map wd id

/-- TANH (FN 8): below 2^−13 the result lies just below its argument. -/
def fTanh (ftz : Bool) (a : Word) : Word × Nat :=
  match f32 ftz a with
  | .nan => (nan32, 0)
  | .inf neg => (if neg then 0xBF800000#32 else 0x3F800000#32, 0)
  | .fin neg m e =>
    if m = 0 then (if neg then 0x80000000#32 else 0, 0)
    else
      let x := ((FVal.fin neg m e).fix).natAbs
      if 19 * 2 ^ 255 ≤ x then (if neg then 0xBF800000#32 else 0x3F800000#32, fIX)
      else if x < 2 ^ 243 then (fmt32.round ftz neg (m * 2 ^ 40 - 1) (e - 40) true).map wd id
      else
        let r := expFix (-((2 * x : Nat) : Int))
        let one := 2 ^ (-r.2).toNat
        (fmt32.round ftz neg ((one - r.1) * 2 ^ 400 / (one + r.1)) (-400) true).map wd id

/-- RECIP (FN 10). -/
def fRecip (ftz : Bool) (a : Word) : Word × Nat :=
  match f32 ftz a with
  | .nan => (nan32, 0)
  | .inf neg => (if neg then 0x80000000#32 else 0, 0)
  | .fin neg m e =>
    if m = 0 then (if neg then 0xFF800000#32 else 0x7F800000#32, fDZ)
    else (fmt32.round ftz neg (2 ^ 100 / m) (-100 - e) (decide (2 ^ 100 % m ≠ 0))).map wd id

/-- The integer square root, bit by bit from bit n − 1. -/
def isqrtFrom : Nat → Nat → Nat → Nat
  | 0, _, r => r
  | n + 1, v, r => isqrtFrom n v (if (r + 2 ^ n) * (r + 2 ^ n) ≤ v then r + 2 ^ n else r)

/-- RSQRT (FN 11). -/
def fRsqrt (ftz : Bool) (a : Word) : Word × Nat :=
  match f32 ftz a with
  | .nan => (nan32, 0)
  | .inf neg => if neg then (nan32, fIV) else (0, 0)
  | .fin neg m e =>
    if m = 0 then (if neg then 0xFF800000#32 else 0x7F800000#32, fDZ)
    else if neg then (nan32, fIV)
    else
      let m' := if e % 2 = 0 then m else 2 * m
      let e' := if e % 2 = 0 then e else e - 1
      let r := isqrtFrom 80 (2 ^ 160 / m') 0
      (fmt32.round ftz false r (-80 - e' / 2) (decide (r * r * m' ≠ 2 ^ 160))).map wd id

/-- SELECT A > 0 ? B : C (FN 12); a NaN passed on becomes canonical. -/
def fSelect (ftz : Bool) (a b c : Word) : Word :=
  let a := f32flush ftz a
  let v := f32flush ftz (if f32isNan a || wbit a 31 || a == 0 then c else b)
  if f32isNan v then nan32 else v

/-- ABS and NEG (FN 14, 15). -/
def fAbs (ftz : Bool) (a : Word) : Word := if f32isNan a then nan32 else wd ((f32flush ftz a).toNat % 2 ^ 31)
def fNeg (ftz : Bool) (a : Word) : Word := if f32isNan a then nan32 else f32flush ftz a ^^^ 0x80000000#32

/-! ### Conversions -/

/-- binary16 to binary32, exact (R163). -/
def f16to32 (b : Nat) : Word := (f32out false (fmt16.decode false b)).1

/-- bf16 to binary32 (R163); under FTZ a subnormal reads as zero. -/
def bfTo32 (ftz : Bool) (b : Nat) : Word := (f32out false (fmtBf.decode ftz b)).1

/-- binary32 to a narrower format (R194), with the operand flushed under FTZ. -/
def f32to (f : Fmt) (ftz : Bool) (w : Word) : Nat × Nat := f.encode ftz (f32 ftz w)

/-- An integer to binary32, rounded (R196). -/
def intTo32 (i : Int) : Word × Nat := f32out false (.fin (decide (i < 0)) i.natAbs 0)

/-- binary32 to an integer range (R195): the integer and the flags. -/
def f32toInt (ftz : Bool) (lo hi : Int) (w : Word) : Int × Nat :=
  match f32 ftz w with
  | .nan => (0, fIV)
  | .inf neg => (if neg then lo else hi, fIV)
  | .fin neg m e =>
    let r := roundAt m e false 0
    let v : Int := if neg then -(r.1 : Int) else (r.1 : Int)
    if v < lo then (lo, fIV) else if v > hi then (hi, fIV) else (v, if r.2 then fIX else 0)

/-- The exact product of an integer and a binary32 scale, rounded once (R193). -/
def scaleInt (ftz : Bool) (acc : Int) (scale : Word) : Word × Nat :=
  let r := (FVal.fin (decide (acc < 0)) acc.natAbs 0).mul (f32 ftz scale)
  let o := f32out ftz r.1
  (o.1, r.2 ||| o.2)

/-! ### Element types (R162, Table 4.1) -/

/-- Bytes of an element type code. -/
def elemSize (ty : Nat) : Nat := if ty = 0 ∨ ty = 1 then 1 else if ty = 3 ∨ ty = 6 then 4 else 2

/-- The 32-bit lane value of an element as a LDST load places it. -/
def loadElem (ftz : Bool) (ty : Nat) (v : Nat) : Word :=
  if ty = 0 then wi (sext 8 v) else if ty = 1 then wd (v % 256) else if ty = 2 then wi (sext 16 v)
  else if ty = 4 then bfTo32 ftz v else if ty = 5 then f16to32 v else wd v

/-- The element a LDST store writes, and its flags (R174, R188, R194). -/
def storeElem (ftz : Bool) (ty : Nat) (w : Word) : Nat × Nat :=
  if ty = 4 then f32to fmtBf ftz w else if ty = 5 then f32to fmt16 ftz w else (w.toNat % 2 ^ (8 * elemSize ty), 0)

/-- A job operand as binary32, and its flags (R196, R163, R188): a binary32 operand keeps no NaN payload (R181) and is flushed under FTZ. -/
def jobOperand (ftz : Bool) (ty : Nat) (v : Nat) : Word × Nat :=
  if ty = 0 then intTo32 (sext 8 v) else if ty = 1 then intTo32 (v % 256 : Nat) else if ty = 2 then intTo32 (sext 16 v)
  else if ty = 3 then intTo32 (sext 32 v) else if ty = 4 then (bfTo32 ftz v, 0) else if ty = 5 then (f16to32 v, 0)
  else (if f32isNan (wd v) then nan32 else f32flush ftz (wd v), 0)

/-- A binary32 job result as an element of a type, and its flags (R194, R195). -/
def jobResult (ftz : Bool) (ty : Nat) (w : Word) : Nat × Nat :=
  let int (n : Nat) (lo hi : Int) : Nat × Nat :=
    let r := f32toInt ftz lo hi w
    ((r.1 % (2 ^ n : Nat)).toNat, r.2)
  if ty = 0 then int 8 (-128) 127 else if ty = 1 then int 8 0 255 else if ty = 2 then int 16 (-32768) 32767
  else if ty = 3 then int 32 (-2147483648) 2147483647
  else if ty = 4 then f32to fmtBf ftz w else if ty = 5 then f32to fmt16 ftz w else (w.toNat, 0)

end Sys2Proof.Machine
end

