-- ==== Sys2Proof/Machine/Engines.lean ====
section
/-! DEFINITION. Engine jobs: the checks of their descriptors and what a matrix, gate and scan job computes (R116, R125 to R131, R164
to R172, R175, R177 to R179, R186, R188, R193, R239 to R249, R432). -/

namespace Sys2Proof.Machine

/-! ### Accumulators -/

/-- Read accumulator entry e, checked as any read of it (R442). -/
def State.accRead (s : State) (l e : Nat) : State × Int := ((s.accCheck l e).1, ((s.ltile l).rd (Reg.ACC 0 e)).toInt)

/-- Write accumulator entry e. -/
def Tile.accWrite (t : Tile) (e : Nat) (v : Int) : Tile :=
  { t.wr (Reg.ACC 0 e) (wi v) with accErr := spSet (fun _ => 0) t.accErr e 0 }

/-! ### Descriptor checks -/

/-- A field of the descriptor word at byte o. -/
def df (d : List Byte) (o hi lo : Nat) : Nat := wfld (wordAt d o) hi lo

/-- Whether a descriptor has a bit set outside the listed fields: the masks of its words in order. -/
def reservedSet (d : List Byte) (masks : List Nat) : Bool :=
  (masks.zip (List.range 16)).any (fun mk => decide ((wordAt d (4 * mk.2)).toNat &&& (0xFFFFFFFF - mk.1) ≠ 0))

/-- Whether entries first to first + n − 1 lie in the banks, and no pinned bank is named by a class other than 0 (R126, R128, R241). -/
def Tile.entriesOk (t : Tile) (cls first n : Nat) : Bool :=
  decide (n ≤ 4096) && decide (first + n ≤ 4096) &&
  (cls == 0 || (List.range 8).all (fun b => !(t.bit Reg.MM_CFG b && decide (first < 512 * b + 512) && decide (512 * b < first + n))))

/-- The steps of gate program p before END. -/
def Tile.gateSteps (t : Tile) (p : Nat) : List Word :=
  ((List.range 16).map (fun k => t.rd (Reg.GATE_PROG p k))).takeWhile (fun w => wfld w 4 0 != 0)

/-- Whether a gate program may run: no reserved function, exactly one EMIT (R130, Table 3.8), among the steps before END; what END and the steps after it
hold does not count (DESIGN CHOICE, log entry 84). -/
def Tile.gateOk (t : Tile) (p : Nat) : Bool :=
  (t.gateSteps p).all (fun w => decide (wfld w 4 0 < 16)) && (t.gateSteps p).countP (fun w => wbit w 7) == 1

/-- A vector of a descriptor: first address, element type, bytes between vectors. -/
structure Strm where
  addr : Nat
  type : Nat
  step : Nat
deriving DecidableEq, Repr

/-- Whether a vector's type and alignment are valid for v vectors (R162, R241). -/
def Strm.ok (x : Strm) (v : Nat) : Bool :=
  x.type != 7 && decide (x.addr % elemSize x.type = 0) && (v == 1 || decide (x.step % elemSize x.type = 0))

/-- Whether v vectors of n elements lie in SRAM. -/
def Strm.inside (x : Strm) (v n : Nat) : Bool := inSram (x.addr + (v - 1) * x.step) (n * elemSize x.type)

/-- The address of element n of vector v. -/
def Strm.at (x : Strm) (v n : Nat) : Nat := x.addr + v * x.step + n * elemSize x.type

/-- A gate job's parameters, from its descriptor or, in a forwarded pair, with N, V and the program of the matrix job (R239, R243). -/
structure Gate where
  n     : Nat
  v     : Nat
  prog  : Nat
  xsrc  : Nat
  x     : Strm
  first : Nat
  scale : Nat
  yzw   : List (Bool × Strm)
  out   : Option Strm
  q     : Option Strm
  qscale : Word
deriving DecidableEq, Repr

/-- An input field of a gate descriptor at byte o. -/
def gateIn (d : List Byte) (o : Nat) : Bool × Strm :=
  (df d o 21 21 == 1, { addr := df d o 17 0, type := df d o 20 18, step := df d (o + 4) 17 0 })

/-- The address fields of a gate descriptor that are not ignored, with their types, whether their input or output is enabled or not: code 7 and an
address that is not aligned fault in each of them (R162, R241). In a pair X and its scale are ignored (R243). -/
def gateFields (d : List Byte) (pair : Bool) : List Strm :=
  (if pair then [] else [{ addr := df d 0 17 0, type := df d 0 20 18, step := 0 }, { addr := df d 0x0C 17 0, type := 6, step := 0 }]) ++
  [(gateIn d 0x14).2, (gateIn d 0x1C).2, (gateIn d 0x24).2, (gateIn d 0x2C).2]

/-- The parameters of a standalone gate job (X_SRC of the descriptor). -/
def gateOf (d : List Byte) : Gate :=
  { n := df d 0x10 11 0 + 1, v := df d 0x10 19 12 + 1, prog := df d 0x10 23 20, xsrc := df d 0 22 21,
    x := { addr := df d 0 17 0, type := df d 0 20 18, step := df d 4 17 0 },
    first := 512 * df d 8 2 0 + df d 8 11 3, scale := df d 0x0C 17 0,
    yzw := [gateIn d 0x14, gateIn d 0x1C, gateIn d 0x24],
    out := if df d 0x2C 21 21 = 1 then some { addr := df d 0x2C 17 0, type := df d 0x2C 20 18, step := df d 0x30 17 0 } else none,
    q := if df d 0x34 18 18 = 1 then some { addr := df d 0x34 17 0, type := 0, step := df d 0x38 17 0 } else none,
    qscale := wordAt d 0x3C }

/-- The parameters of the gate half of a forwarded pair (R243). -/
def gateFwd (d g : List Byte) : Gate :=
  { gateOf g with n := mmN d, v := mmV d, prog := df d 0x18 4 1, xsrc := 1, first := 512 * df d 0x14 2 0 + df d 0x14 11 3,
                  scale := df d 0x24 17 0 }

/-- The vectors a gate job reads and writes in SRAM. -/
def Gate.streams (g : Gate) : List Strm :=
  (if g.xsrc = 0 then [g.x] else []) ++ (g.yzw.filter (·.1)).map (·.2) ++ g.out.toList ++ g.q.toList

/-- Why a gate job's parameters fault its thread, if they do (R116, R130, R241). -/
def Gate.fault (g : Gate) (t : Tile) (cls : Nat) : Option Nat :=
  if g.xsrc > 1 ∨ (g.out = none ∧ g.q = none) ∨ !(g.streams.all (·.ok g.v)) ∨ !t.gateOk g.prog ∨
     (g.xsrc = 1 ∧ (g.scale % 4 ≠ 0 ∨ !t.entriesOk cls g.first (g.n * g.v))) then some ftEngine
  else if !(g.streams.all (·.inside g.v g.n)) ∨ (g.xsrc = 1 ∧ !inSram g.scale (4 * g.n)) then some ftAddr
  else none

/-- The bits that a gate descriptor's words may set (Table 6.1). -/
def gateMasks : List Nat :=
  [0x7FFFFF, 0x3FFFF, 0xFFF, 0x3FFFF, 0xFFFFFF, 0x3FFFFF, 0x3FFFF, 0x3FFFFF, 0x3FFFF, 0x3FFFFF, 0x3FFFF, 0x3FFFFF, 0x3FFFF, 0x7FFFF, 0x3FFFF, 0xFFFFFFFF]

/-- Why a standalone gate descriptor faults its thread, if it does. -/
def gateFault (t : Tile) (cls : Nat) (d : List Byte) : Option Nat :=
  if reservedSet d gateMasks ∨ !((gateFields d false).all (·.ok 1)) then some ftEngine else (gateOf d).fault t cls

/-- The bits that a matrix descriptor's words may set (Table 3.7). -/
def mmMasks : List Nat :=
  [0x3FFFF, 0x3FFFF, 0x3FFFF, 0xFFFFFF, 0xFFFF0F, 0x1FFF, 0x3F, 0x3FFFF, 0x3FFFF, 0x3FFFF, 0, 0, 0, 0, 0, 0]

/-- Input blocks, inputs K, weight block bytes, and the first accumulator entry of a matrix descriptor. -/
def mmKB (d : List Byte) : Nat := df d 0x0C 7 0 + 1
def mmBlock (d : List Byte) : Nat := if df d 0x10 3 2 = 2 then 64 else 128
def mmFirst (d : List Byte) : Nat := 512 * df d 0x14 2 0 + df d 0x14 11 3

/-- Whether the descriptor requantises, and whether it feeds a gate program. -/
def mmReq (d : List Byte) : Bool := df d 0x18 5 5 == 1
def mmFwd (d : List Byte) : Bool := df d 0x18 0 0 == 1

/-- Why a matrix descriptor faults its thread, if it does (R116, R125, R126, R128, R165, R170, R243); `g` is the line after it. -/
def mmFault (t : Tile) (cls : Nat) (d g : List Byte) : Option Nat :=
  if reservedSet d mmMasks ∨ df d 0x10 1 0 > 1 ∨ df d 0x10 3 2 = 3 ∨ df d 0 17 0 % 16 ≠ 0 ∨ df d 4 17 0 % 16 ≠ 0 ∨ df d 8 17 0 % 64 ≠ 0 ∨
     df d 0x20 17 0 % 8 ≠ 0 ∨ df d 0x24 17 0 % 4 ≠ 0 ∨ !t.entriesOk cls (mmFirst d) (mmN d * mmV d) ∨
     (mmFwd d ∧ (reservedSet g gateMasks ∨ !((gateFields g true).all (·.ok 1)))) then some ftEngine
  else if !inSram (df d 0 17 0 + (mmV d - 1) * df d 4 17 0) (16 * mmKB d) ∨
     !inSram (df d 8 17 0) (mmBlock d * mmKB d * (mmN d / 8)) ∨
     (mmReq d ∧ (!inSram (df d 0x1C 17 0) (mmN d * mmV d) ∨ !inSram (df d 0x20 17 0) (8 * mmN d))) then some ftAddr
  else if mmFwd d then (gateFwd d g).fault t cls
  else none

/-- The bits that a scan descriptor's words may set (Table 6.2). -/
def scMasks : List Nat :=
  [0x1FFFFF, 0x3FFFF, 0x1FFFFF, 0x3FFFF, 0x3FFFFF, 0x1FFFFF, 0x3FFFF, 0x7FFFF, 0x3FFFF, 0x3FFFF, 0, 0, 0, 0, 0, 0]

/-- Frames, channels and mode of a scan descriptor; whether it uses an initial state. -/
def scT (d : List Byte) : Nat := df d 0x1C 7 0 + 1
def scD (d : List Byte) : Nat := 16 * (df d 0x1C 15 8 + 1)
def scMode (d : List Byte) : Nat := df d 0x1C 17 16
def scLast (d : List Byte) : Bool := df d 0x1C 18 18 == 1
def scH0 (d : List Byte) : Bool := df d 0x10 21 21 == 1 && scMode d != 1

/-- The sequences of a scan descriptor: a, b, h0, out, the prefix coefficients. -/
def scA (d : List Byte) : Strm := { addr := df d 0 17 0, type := df d 0 20 18, step := df d 4 17 0 }
def scB (d : List Byte) : Strm := { addr := df d 8 17 0, type := df d 8 20 18, step := df d 0x0C 17 0 }
def scH (d : List Byte) : Strm := { addr := df d 0x10 17 0, type := df d 0x10 20 18, step := 0 }
def scOut (d : List Byte) : Strm := { addr := df d 0x14 17 0, type := df d 0x14 20 18, step := df d 0x18 17 0 }
def scPA (d : List Byte) : Strm := { addr := df d 0x20 17 0, type := 6, step := df d 0x24 17 0 }

/-- Frames written. -/
def scFrames (d : List Byte) : Nat := if scLast d then 1 else scT d

/-- Why a scan descriptor faults its thread, if it does (R116, R162, R247): H0 and PA are checked for their type and alignment also where the job
does not use them. -/
def scFault (d : List Byte) : Option Nat :=
  let st : List (Strm × Nat) := [(scA d, scT d), (scB d, scT d), (scOut d, scFrames d)] ++ (if scH0 d then [(scH d, 1)] else []) ++
    (if scMode d = 1 then [(scPA d, scFrames d)] else [])
  if reservedSet d scMasks ∨ scMode d = 3 ∨ (scMode d = 1 ∧ (scOut d).type ≠ 6) ∨ !(st.all (fun x => x.1.ok x.2)) ∨ !(scH d).ok 1 ∨ !(scPA d).ok 1 then some ftEngine
  else if !(st.all (fun x => x.1.inside x.2 (scD d))) then some ftAddr
  else none

/-! ### What a job carries while it runs -/

/-- A job's run: the state, the fault it met, its float flags, and the last emitted group. -/
structure Run where
  s     : State
  fault : Option Nat
  flags : Nat
  last  : List Word

/-- Go on only while no fault was met. -/
def Run.bind (r : Run) (f : Run → Run) : Run := if r.fault.isSome then r else f r

/-- Check that a job can read a range: the checks of a read, or its fault. -/
def Run.check (r : Run) (l o n : Nat) : Run :=
  r.bind (fun r => let x := r.s.loadSram l o n; { r with s := x.1, fault := x.2.1 })

/-- Store a job's output, or fault (R136, R431). -/
def Run.store (r : Run) (l o : Nat) (bs : List Byte) : Run :=
  r.bind (fun r => let x := r.s.storeSram l o bs; { r with s := x.1, fault := x.2 })

/-- The number of n bytes stored at an SRAM offset, after its line was checked. -/
def State.peek (s : State) (l o n : Nat) : Nat := ofBytes (s.mem.bytes false (sramKey (s.physOf l) o) n)

/-- An element of a job operand as binary32 with its flags. -/
def State.elem (s : State) (l : Nat) (ftz : Bool) (x : Strm) (v n : Nat) : Word × Nat :=
  jobOperand ftz x.type (s.peek l (x.at v n) (elemSize x.type))

/-! ### Matrix unit -/

/-- 32-bit saturation. -/
def sat32 (v : Int) : Int := clampI (-2147483648) 2147483647 v

/-- The value of an element byte with its zero point subtracted (R164): int8 or uint8. -/
def byteLess (uns : Bool) (v zp : Nat) : Int :=
  if uns then ((v % 256 : Nat) : Int) - ((zp % 256 : Nat) : Int) else sext 8 v - sext 8 zp

/-- x′ of input k of vector v. -/
def State.mmIn (s : State) (l : Nat) (d : List Byte) (v k : Nat) : Int :=
  byteLess (df d 0x10 1 0 == 1) (s.peek l (df d 0 17 0 + v * df d 4 17 0 + k) 1) (df d 0x10 15 8)

/-- w′ of input k and output n (R164, R166 to R168). -/
def State.mmWeight (s : State) (l : Nat) (d : List Byte) (k n : Nat) : Int :=
  let blk := df d 8 17 0 + mmBlock d * (n / 8 * mmKB d + k / 16)
  let e := 8 * (k % 16) + n % 8
  if df d 0x10 3 2 = 2 then sext 4 (s.peek l (blk + e / 2) 1 / 2 ^ (4 * (e % 2))) - sext 4 (df d 0x10 23 16)
  else byteLess (df d 0x10 3 2 == 1) (s.peek l (blk + e) 1) (df d 0x10 23 16)

/-- The accumulator of output n of vector v from a start value: one exact sum of 16 products per input block, in rising order, each
addition saturating (R169): the value and how many saturated. `w` is the state in which the weight blocks were read. -/
def State.mmAcc (s w : State) (l : Nat) (d : List Byte) (v n : Nat) (start : Int) : Int × Nat :=
  overBelow (mmKB d) (fun kb (a : Int × Nat) =>
    let sum := overBelow 16 (fun k (x : Int) => x + s.mmIn l d v (16 * kb + k) * w.mmWeight l d (16 * kb + k) n) 0
    let t := sat32 (a.1 + sum)
    (t, if t = a.1 + sum then a.2 else a.2 + 1)) (start, 0)

/-- The requantiser (R171): a, r, the output, and whether the bias addition and the clamp saturated. -/
def requant (acc : Int) (e : Nat) : Int × Int × Int × Bool × Bool :=
  let bias := sext 32 e
  let mult := sext 16 (e / 2 ^ 32)
  let sh := e / 2 ^ 48 % 32
  let uns := e / 2 ^ 53 % 2 == 1
  let relu := e / 2 ^ 54 % 2 == 1
  let zp : Int := if uns then ((e / 2 ^ 56 % 256 : Nat) : Int) else sext 8 (e / 2 ^ 56)
  let a := sat32 (acc + bias)
  let r := rneShift (a * mult) (15 + sh)
  let q := if relu && decide (r < 0) then zp else r + zp
  let out := if uns then clampI 0 255 q else clampI (-128) 127 q
  (a, r, out, a != acc + bias, out != q)

/-- One output of a matrix job, with its accumulator written, its saturations counted and its probes fed. -/
def Run.mmOut (l i : Nat) (d : List Byte) (w : State) (v n : Nat) (r : State × List Byte) : State × List Byte :=
  let e := mmFirst d + v * mmN d + n
  let idx := v * mmN d + n
  let s0 := r.1
  let st : State × Int := if df d 0x14 12 12 = 1 then s0.accRead l e else (s0, 0)
  let a := st.1.mmAcc w l d v n st.2
  let s := st.1.onL l (fun t => (t.accWrite e a.1).saturate i a.2)
  if mmReq d then
    let q := requant a.1 (s.peek l (df d 0x20 17 0 + 8 * n) 8)
    (s.onL l (fun t =>
      let t := t.probe 1 idx (some q.1.natAbs) (a.2 + q.2.2.2.1.toNat)
      let t := t.probe 2 idx (some q.2.1.natAbs) q.2.2.2.2.toNat
      t.saturate i (q.2.2.2.1.toNat + q.2.2.2.2.toNat)), r.2 ++ toBytes 1 (q.2.2.1 % 256).toNat)
  else (s.onL l (·.probe 1 idx (some a.1.natAbs) a.2), r.2)

/-- The 8 outputs of one vector that a column of weight blocks gives, the blocks read in state w: nothing of a vector that meets a fault is
written (R432). -/
def Run.mmVector (l i : Nat) (d : List Byte) (w : State) (nb v : Nat) (r : Run) : Run :=
  (r.check l (df d 0 17 0 + v * df d 4 17 0) (16 * mmKB d)).bind (fun r =>
    let x := overBelow 8 (fun k => Run.mmOut l i d w v (8 * nb + k)) (r.s, [])
    if mmReq d then
      let y := x.1.storeSram l (df d 0x1C 17 0 + v * mmN d + 8 * nb) x.2
      match y.2 with
      | some c => { r with fault := some c }
      | none => { r with s := y.1 }
    else { r with s := x.1 })

/-- The blocks of 8 outputs: read once, and applied to all V vectors (R127). -/
def Run.mmColumn (l i : Nat) (d : List Byte) (nb : Nat) (r : Run) : Run :=
  overBelow (mmV d) (fun v q => q.bind (Run.mmVector l i d r.s nb v)) r

/-- The matrix half of a job: the columns of weight blocks in rising order (DESIGN CHOICE, log entry 74: the spec does not say how outputs that
fall on operands not yet read take part). -/
def Run.matrix (l i : Nat) (d : List Byte) (r : Run) : Run :=
  let r := r.check l (df d 8 17 0) (mmBlock d * mmKB d * (mmN d / 8))
  let r := if mmReq d then r.check l (df d 0x20 17 0) (8 * mmN d) else r
  overBelow (mmN d / 8) (fun nb r => r.bind (Run.mmColumn l i d nb)) r

/-! ### Gate pipeline -/

/-- One gate function (Table 4.7). -/
def gateFn (ftz : Bool) (fn : Nat) (a b c : Word) : Word × Nat :=
  match fn with
  | 1 => fAdd ftz a b
  | 2 => fSub ftz a b
  | 3 => fMul ftz a b
  | 4 => fFma ftz a b c
  | 5 => (fMin ftz a b, 0)
  | 6 => (fMax ftz a b, 0)
  | 7 => fSigmoid ftz a
  | 8 => fTanh ftz a
  | 9 => fExp ftz a
  | 10 => fRecip ftz a
  | 11 => fRsqrt ftz a
  | 12 => (fSelect ftz a b c, 0)
  | 13 => fSub ftz 0x3F800000#32 a
  | 14 => (fAbs ftz a, 0)
  | _ => (fNeg ftz a, 0)

/-- Run a program's steps for one element: X, Y, Z, W, t0 to t3; the emitted value and the flags (R130). -/
def gateRun (ftz : Bool) : List Word → List Word → Word → Nat → Word × Nat
  | [], _, out, fl => (out, fl)
  | w :: r, regs, out, fl =>
    let v := gateFn ftz (wfld w 4 0) (regs.getD (wfld w 10 8) 0) (regs.getD (wfld w 13 11) 0) (regs.getD (wfld w 16 14) 0)
    gateRun ftz r (regs.set (4 + wfld w 6 5) v.1) (if wbit w 7 then v.1 else out) (fl ||| v.2)

/-- The inputs of element e: read checks, then the values with their flags. -/
def Gate.inputs (g : Gate) (l : Nat) (ftz : Bool) (e : Nat) (r : Run) : Run × List Word :=
  let v := e / g.n
  let n := e % g.n
  let r := if g.xsrc = 0 then r.check l (g.x.at v n) (elemSize g.x.type) else r.check l (g.scale + 4 * n) 4
  let r := g.yzw.foldl (fun (r : Run) y => if y.1 then r.check l (y.2.at v n) (elemSize y.2.type) else r) r
  if r.fault.isSome then (r, [])
  else
    let st : State × Int := if g.xsrc = 0 then (r.s, 0) else r.s.accRead l (g.first + e)
    let s := st.1
    let x : Word × Nat := if g.xsrc = 0 then s.elem l ftz g.x v n else scaleInt ftz st.2 (wd (s.peek l (g.scale + 4 * n) 4))
    let ys := g.yzw.map (fun y => if y.1 then s.elem l ftz y.2 v n else ((0 : Word), 0))
    ({ r with s := s, flags := ys.foldl (fun a y => a ||| y.2) (r.flags ||| x.2) }, x.1 :: ys.map (·.1))

/-- Write one emitted value (R242), and show it to the probes of tap 3. -/
def Gate.emit (g : Gate) (l : Nat) (ftz : Bool) (r : Run) (e : Nat) (w : Word) : Run :=
  let v := e / g.n
  let n := e % g.n
  let mag := floatMag w
  let r := { r with s := r.s.onL l (·.probe 3 e mag.1 mag.2.toNat) }
  let r := match g.out with
    | some o =>
      let x := jobResult ftz o.type w
      ({ r with flags := r.flags ||| x.2 }).store l (o.at v n) (toBytes (elemSize o.type) x.1)
    | none => r
  match g.q with
  | some o =>
    let p := fMul ftz w g.qscale
    let x := jobResult ftz 0 p.1
    ({ r with flags := r.flags ||| p.2 ||| x.2 }).store l (o.at v n) (toBytes 1 x.1)
  | none => r

/-- One group of 16 elements: every input is read before any output is written (R244); a group that meets a poisoned line writes
nothing (R432). -/
def Gate.group (g : Gate) (l : Nat) (ftz : Bool) (steps : List Word) (k : Nat) (r : Run) : Run :=
  r.bind (fun r =>
    let es := ((List.range 16).map (16 * k + ·)).filter (fun e => decide (e < g.n * g.v))
    let ins := es.foldl (fun (a : Run × List (List Word)) e => let x := g.inputs l ftz e a.1; (x.1, a.2 ++ [x.2])) (r, [])
    ins.1.bind (fun r =>
      let outs := ins.2.map (fun regs => gateRun ftz steps (regs ++ [0, 0, 0, 0]) 0 0)
      let r := { r with flags := outs.foldl (fun a o => a ||| o.2) r.flags, last := outs.map (·.1) }
      (es.zip (outs.map (·.1))).foldl (fun r ew => r.bind (fun r => g.emit l ftz r ew.1 ew.2)) r))

/-- A whole gate job. -/
def Gate.run (g : Gate) (l : Nat) (ftz : Bool) (steps : List Word) (r : Run) : Run :=
  overBelow ((g.n * g.v + 15) / 16) (g.group l ftz steps) r

/-! ### Scan unit -/

/-- The pair operator (R197): (A, B) ∘ (A′, B′), with the flags. -/
def pairOp (ftz : Bool) (p q : Word × Word) : (Word × Word) × Nat :=
  let a := fMul ftz p.1 q.1
  let b := fFma ftz q.1 p.2 q.2
  ((a.1, b.1), a.2 ||| b.2)

/-- One level of recursive doubling with distance d: every pair reads the previous level (R248). -/
def scanLevel (ftz : Bool) (d : Nat) (ps : List (Word × Word)) : List (Word × Word) × Nat :=
  let x := (List.range ps.length).map (fun i =>
    if i < d then (ps.getD i (0, 0), 0) else pairOp ftz (ps.getD (i - d) (0, 0)) (ps.getD i (0, 0)))
  (x.map (·.1), x.foldl (fun a e => a ||| e.2) 0)

/-- The levels s = 1, 2, 4, … while s < T; 8 levels reach T = 256. -/
def scanLevels (ftz : Bool) : Nat → Nat → List (Word × Word) × Nat → List (Word × Word) × Nat
  | 0, _, p => p
  | k + 1, d, p =>
    if d < p.1.length then
      let x := scanLevel ftz d p.1
      scanLevels ftz k (2 * d) (x.1, p.2 ||| x.2)
    else p

/-- One channel: the values to write and the flags of every frame (R186, R248). The values are (frame row, prefix row): h or B, and A. -/
def State.scanChannel (s : State) (l : Nat) (ftz : Bool) (d : List Byte) (ch : Nat) : List (Word × Word) × Nat :=
  let rd := (List.range (scT d)).map (fun i => (s.elem l ftz (scA d) i ch, s.elem l ftz (scB d) i ch))
  let ps := rd.map (fun x => (x.1.1, x.2.1))
  let f0 := rd.foldl (fun a x => a ||| x.1.2 ||| x.2.2) 0
  let p := if scMode d = 2 then (ps, f0) else scanLevels ftz 8 1 (ps, f0)
  let r : List (Word × Word) × Nat :=
    if scH0 d then
      let h0 := s.elem l ftz (scH d) 0 ch
      let x := p.1.map (fun ab => (ab.1, fFma ftz ab.1 h0.1 ab.2))
      (x.map (fun e => (e.2.1, e.1)), x.foldl (fun a e => a ||| e.2.2) (p.2 ||| h0.2))
    else (p.1.map (fun ab => (ab.2, ab.1)), p.2)
  (if scLast d then r.1.drop (scT d - 1) else r.1, r.2)

/-- Check every line that channels of a group read. -/
def Run.scanCheck (l : Nat) (d : List Byte) (g : Nat) (r : Run) : Run :=
  let ck (x : Strm) (r : Run) (i : Nat) : Run := r.check l (x.at i (16 * g)) (16 * elemSize x.type)
  let r := (List.range (scT d)).foldl (fun r i => ck (scB d) (ck (scA d) r i) i) r
  if scH0 d then ck (scH d) r 0 else r

/-- Write one row of one channel. With LAST_ONLY = 1 a probe on tap 4 sees the one row that is written (DESIGN CHOICE, log entry 84). -/
def Run.scanPut (l : Nat) (ftz : Bool) (d : List Byte) (ch : Nat) (r : Run) (i : Nat) (hv : Word × Word) : Run :=
  if scMode d = 1 then (r.store l ((scOut d).at i ch) (toBytes 4 hv.1.toNat)).store l ((scPA d).at i ch) (toBytes 4 hv.2.toNat)
  else
    let x := jobResult ftz (scOut d).type hv.1
    let m := floatMag hv.1
    ({ r with s := r.s.onL l (·.probe 4 ch m.1 m.2.toNat), flags := r.flags ||| x.2 }).store l ((scOut d).at i ch)
      (toBytes (elemSize (scOut d).type) x.1)

/-- One group of 16 channels (R432). -/
def Run.scanGroup (l : Nat) (ftz : Bool) (d : List Byte) (g : Nat) (r : Run) : Run :=
  (r.bind (Run.scanCheck l d g)).bind (fun r =>
    let chs := (List.range 16).map (16 * g + ·)
    let vals := chs.map (fun ch => (ch, r.s.scanChannel l ftz d ch))
    let r := { r with flags := vals.foldl (fun a x => a ||| x.2.2) r.flags }
    vals.foldl (fun r x =>
      (x.2.1.zip (List.range x.2.1.length)).foldl (fun r hi => r.bind (fun r => Run.scanPut l ftz d x.1 r hi.2 hi.1)) r) r)

/-- A whole scan job. -/
def Run.scan (l : Nat) (ftz : Bool) (d : List Byte) (r : Run) : Run := overBelow (scD d / 16) (Run.scanGroup l ftz d) r

/-! ### Running and finishing a job -/

/-- What a job does from its inputs to its last output. -/
def State.runJob (s : State) (l : Nat) (j : Job) : Run :=
  let t := s.ltile l
  let r : Run := { s := s, fault := none, flags := 0, last := [] }
  match j.engine with
  | .matrix =>
    let r := r.matrix l j.thread j.desc
    if mmFwd j.desc then
      let g := gateFwd j.desc j.gdesc
      g.run l j.ftz (t.gateSteps g.prog) r
    else r
  | .gate =>
    let g := gateOf j.desc
    g.run l j.ftz (t.gateSteps g.prog) r
  | .scan => r.scan l j.ftz j.desc

/-- Whether two jobs need an engine in common; a forwarded pair needs the matrix unit and the gate pipeline. -/
def Job.clash (j k : Job) : Bool := j.engine == k.engine || (j.program.isSome && k.program.isSome)

/-- The next job of thread i on an engine, if it may begin: queued, and no earlier job of the thread is unfinished (R245). -/
def Tile.nextJob (t : Tile) (e : Engine) (i : Nat) : Option Job :=
  t.jobs.find? (fun j => j.engine == e && j.thread == i && !j.running && !t.jobs.any (fun k => k.thread == i && decide (k.seq < j.seq)))

/-- Whether a job may begin or take over at a boundary: no running job that shares an engine is of its class or a lower one, and no
waiting job that shares an engine and may begin is of a lower class (R123). -/
def Tile.mayBegin (t : Tile) (j : Job) : Bool :=
  t.jobs.all (fun k => !(k.running && j.clash k) || decide (j.cls < k.cls)) &&
  (List.range 4).all (fun i => [Engine.matrix, Engine.gate, Engine.scan].all (fun e =>
    match t.nextJob e i with
    | some k => !(k.clash j) || decide (j.cls ≤ k.cls)
    | none => true))

/-- Begin a job. -/
def State.startJob (s : State) (l : Nat) (e : Engine) (i : Nat) : State :=
  let t := s.ltile l
  match t.nextJob e i with
  | some j => if t.mayBegin j then s.onL l (fun t => { t with jobs := t.jobs.map (fun k => if k == j then { k with running := true } else k) }) else s
  | none => s

/-- The running job of thread i on an engine that is not interrupted by one of a lower class (R123). -/
def Tile.runningJob (t : Tile) (e : Engine) (i : Nat) : Option Job :=
  t.jobs.find? (fun j => j.engine == e && j.thread == i && j.running && t.jobs.all (fun k => !(k.running && j.clash k && decide (k.cls < j.cls))))

/-- A job completes: its outputs are written, its flags merge into T_FLAGS (R186), GP_LANE's group is kept (R701); a fault it met
faults its thread, one that is in FAULT already too: the code is the new one and it is reported (DESIGN CHOICE, log entry 84). -/
def State.finishJob (s : State) (l : Nat) (e : Engine) (i : Nat) : State :=
  match (s.ltile l).runningJob e i with
  | none => s
  | some j =>
    let r := s.runJob l j
    let s := r.s.onL l (fun t => { t with jobs := t.jobs.filter (· != j) })
    match r.fault with
    | some c => s.faultThread l i c
    | none =>
      s.onL l (fun t =>
        let t := t.mergeFlags i r.flags
        if j.program.isSome then t.onThread i (fun h => { h with lastGate := r.last }) else t)

/-- ENGINE_JOB_START. -/
def execEngineJobStart (l : Fin 256) (e : Engine) (i : Fin 4) (s : State) : Host.Outcome State Fault Refusal := .next (s.startJob l e i)
/-- MATRIX_JOB_DONE. -/
def execMatrixJobDone (l : Fin 256) (i : Fin 4) (s : State) : Host.Outcome State Fault Refusal := .next (s.finishJob l .matrix i)
/-- GATE_JOB_DONE. -/
def execGateJobDone (l : Fin 256) (i : Fin 4) (s : State) : Host.Outcome State Fault Refusal := .next (s.finishJob l .gate i)
/-- SCAN_JOB_DONE. -/
def execScanJobDone (l : Fin 256) (i : Fin 4) (s : State) : Host.Outcome State Fault Refusal := .next (s.finishJob l .scan i)

end Sys2Proof.Machine
end

