-- ==== Sys2Proof/Machine/Ldst.lean ====
section
/-! DEFINITION. The LDST class (Table 3.6 class 3; R116, R162, R163, R174, R186, R188, R699). -/

namespace Sys2Proof.Machine

/-- The element type IMM[20:18]. -/
def elemType (u : UInsn) : Nat := uimm u 20 18

/-- The SRAM address s[SRCA] + IMM[17:0], a 32-bit sum. -/
def State.ldstBase (s : State) (l i : Nat) (u : UInsn) : Nat := (s.sget l i u.srca + wd (uimm u 17 0)).toNat

/-- T_CONFIG.FTZ of thread i. -/
def Tile.ftz (t : Tile) (i : Nat) : Bool := t.bit (Reg.T_CONFIG i) 14

/-- The addresses of the 16 elements an indexed operation names: base + index × size. -/
def State.laneAddrs (s : State) (l i : Nat) (u : UInsn) : List Nat :=
  (List.range 16).map (fun j => s.ldstBase l i u + ((s.ltile l).lane i u.srcb.toNat j).toNat * elemSize (elemType u))

/-- Read elements at several addresses: all must lie in SRAM; a poisoned line faults. -/
def State.loadElems (s : State) (l : Nat) (addrs : List Nat) (n : Nat) : State × Option Nat × List Nat :=
  if addrs.all (fun a => inSram a n) then
    addrs.foldl (fun (r : State × Option Nat × List Nat) a =>
      let x := r.1.loadSram l a n
      (x.1, r.2.1.or x.2.1, r.2.2 ++ [ofBytes x.2.2])) (s, none, [])
  else (s, some ftAddr, [])

/-- Store elements at several addresses in order, once every address has been checked: none is stored when one fails. -/
def State.storeElems (s : State) (l : Nat) (kvs : List (Nat × List Byte)) : State × Option Nat :=
  if kvs.any (fun kv => !inSram kv.1 kv.2.length || (s.ltile l).touchesRing kv.1 kv.2.length) then (s, some ftAddr)
  else
    let c := kvs.foldl (fun (r : State × Bool) kv =>
      let x := r.1.partialWrite l false kv.1 kv.2.length
      (x.1, r.2 || x.2)) (s, false)
    if c.2 then (c.1, some ftPoison) else (kvs.foldl (fun s kv => s.storeMem l false kv.1 kv.2) c.1, none)

/-- An operation with an element type: type code 7 faults ILLEGAL (R162). -/
def withType (u : UInsn) (s : State) (f : State × After) : State × After := if elemType u = 7 then (s, .fault ftIllegal) else f

/-- The bytes and flags of a stored lane. -/
def laneBytes (ftz : Bool) (u : UInsn) (w : Word) : List Byte × Nat :=
  let r := storeElem ftz (elemType u) w
  (toBytes (elemSize (elemType u)) r.1, r.2)

/-- Finish a store: the fault, or the conversion's flags merged. -/
def storeDone (l i : Nat) (flags : Nat) (r : State × Option Nat) : State × After :=
  match r.2 with
  | some c => (r.1, .fault c)
  | none => (r.1.onL l (·.mergeFlags i flags), .next)

def uLd : UOp :=
  { cls := 3, op := 0, uses := fun _ => { dst := .sc, a := .sc, b := .no },
    eff := fun l i u s => withType u s (
      let r := s.loadSram l (s.ldstBase l i u) (elemSize (elemType u))
      match r.2.1 with
      | some c => (r.1, .fault c)
      | none => (r.1.sput l i u.dst (loadElem ((s.ltile l).ftz i) (elemType u) (ofBytes r.2.2)), .next)) }

def uSt : UOp :=
  { cls := 3, op := 1, uses := fun _ => { dst := .sc, a := .sc, b := .no },
    eff := fun l i u s => withType u s (
      let x := laneBytes ((s.ltile l).ftz i) u (s.sget l i u.dst)
      storeDone l i x.2 (s.storeSram l (s.ldstBase l i u) x.1)) }

def uVld : UOp :=
  { cls := 3, op := 2, uses := fun _ => { dst := .vec, a := .sc, b := .no },
    eff := fun l i u s => withType u s (
      let n := elemSize (elemType u)
      let r := s.loadSram l (s.ldstBase l i u) (16 * n)
      match r.2.1 with
      | some c => (r.1, .fault c)
      | none => (r.1.onL l (·.putVec i u.dst.toNat (fun j => loadElem ((s.ltile l).ftz i) (elemType u) (natAt r.2.2 (n * j) n))), .next)) }

def uVst : UOp :=
  { cls := 3, op := 3, uses := fun _ => { dst := .vec, a := .sc, b := .no },
    eff := fun l i u s => withType u s (
      let x := (List.range 16).map (fun j => laneBytes ((s.ltile l).ftz i) u ((s.ltile l).lane i u.dst.toNat j))
      storeDone l i (x.foldl (fun a e => a ||| e.2) 0) (s.storeSram l (s.ldstBase l i u) (x.flatMap (·.1)))) }

def uVldx : UOp :=
  { cls := 3, op := 4, uses := fun _ => { dst := .vec, a := .sc, b := .vec },
    eff := fun l i u s => withType u s (
      let r := s.loadElems l (s.laneAddrs l i u) (elemSize (elemType u))
      match r.2.1 with
      | some c => (r.1, .fault c)
      | none => (r.1.onL l (·.putVec i u.dst.toNat (fun j => loadElem ((s.ltile l).ftz i) (elemType u) (r.2.2.getD j 0))), .next)) }

def uVstx : UOp :=
  { cls := 3, op := 5, uses := fun _ => { dst := .vec, a := .sc, b := .vec },
    eff := fun l i u s => withType u s (
      let x := (List.range 16).map (fun j => laneBytes ((s.ltile l).ftz i) u ((s.ltile l).lane i u.dst.toNat j))
      storeDone l i (x.foldl (fun a e => a ||| e.2) 0) (s.storeElems l ((s.laneAddrs l i u).zip (x.map (·.1))))) }

/-- LD. -/
def execLd (l : Fin 256) (i : Fin 4) (u : UInsn) (s : State) : Host.Outcome State Fault Refusal := .next (s.issueInsn l i uLd u)
/-- ST. -/
def execSt (l : Fin 256) (i : Fin 4) (u : UInsn) (s : State) : Host.Outcome State Fault Refusal := .next (s.issueInsn l i uSt u)
/-- VLD. -/
def execVld (l : Fin 256) (i : Fin 4) (u : UInsn) (s : State) : Host.Outcome State Fault Refusal := .next (s.issueInsn l i uVld u)
/-- VST. -/
def execVst (l : Fin 256) (i : Fin 4) (u : UInsn) (s : State) : Host.Outcome State Fault Refusal := .next (s.issueInsn l i uVst u)
/-- VLDX. -/
def execVldx (l : Fin 256) (i : Fin 4) (u : UInsn) (s : State) : Host.Outcome State Fault Refusal := .next (s.issueInsn l i uVldx u)
/-- VSTX: of two lanes that name one element the higher remains. -/
def execVstx (l : Fin 256) (i : Fin 4) (u : UInsn) (s : State) : Host.Outcome State Fault Refusal := .next (s.issueInsn l i uVstx u)

end Sys2Proof.Machine
end

