-- ==== Sys2Proof/Machine/EngineInsn.lean ====
section
/-! DEFINITION. The MATRIX, GATE and SCAN classes (Table 3.6 classes 5 to 7; R123, R187, R189, R245, R700, R701). -/

namespace Sys2Proof.Machine

/-- Whether a thread has a job of an engine queued or running. -/
def Tile.hasJob (t : Tile) (e : Engine) (i : Nat) : Bool := t.jobs.any (fun j => j.engine == e && j.thread == i)

/-- Descriptors of a thread waiting in an engine's queue. -/
def Tile.queuedJobs (t : Tile) (e : Engine) (i : Nat) : Nat := t.jobs.countP (fun j => j.engine == e && j.thread == i && !j.running)

/-- Queue a job (R116, R123, R125, R189): the descriptor line is read and checked at the start instruction; a full queue stalls. -/
def State.queueJob (s : State) (l i : Nat) (e : Engine) (a : Nat) (check : Tile → Nat → List Byte → List Byte → Option Nat) (fwd : List Byte → Bool) :
    State × After :=
  if 4 ≤ (s.ltile l).queuedJobs e i then (s, .stall)
  else if !inSram a 64 then (s, .fault ftAddr)
  else if a % 64 ≠ 0 then (s, .fault ftEngine)
  else
    let r := s.loadSram l a 64
    match r.2.1 with
    | some c => (r.1, .fault c)
    | none =>
      if fwd r.2.2 && !inSram (a + 64) 64 then (r.1, .fault ftAddr)
      else
        let g := if fwd r.2.2 then r.1.loadSram l (a + 64) 64 else (r.1, none, [])
        let t := g.1.ltile l
        match g.2.1.or (check t (t.tclass i) r.2.2 g.2.2) with
        | some c => (g.1, .fault c)
        | none =>
          (g.1.onL l (fun t => { t with seq := t.seq + 1, jobs := t.jobs ++
            [{ engine := e, thread := i, desc := r.2.2, gdesc := g.2.2, cls := t.tclass i, ftz := t.ftz i, seq := t.seq, running := false }] }), .next)

/-- A start instruction: the descriptor address is the scalar SRCA. -/
def uStart (cls : Nat) (e : Engine) (check : Tile → Nat → List Byte → List Byte → Option Nat) (fwd : List Byte → Bool) : UOp :=
  { cls := cls, op := 0, uses := fun _ => { dst := .no, a := .sc, b := .no },
    eff := fun l i u s => s.queueJob l i e (s.sget l i u.srca).toNat check fwd }

/-- A wait instruction: it stalls while the thread has a job of the engine. -/
def uWaitJob (cls : Nat) (e : Engine) : UOp :=
  { cls := cls, op := 1, uses := fun _ => { dst := .no, a := .no, b := .no },
    eff := fun l i _ s => if (s.ltile l).hasJob e i then (s, .stall) else (s, .next) }

def uMmStart : UOp := uStart 5 .matrix mmFault mmFwd
def uMmWait : UOp := uWaitJob 5 .matrix

/-- Entries E to E + 15 (R700): beyond the banks the thread faults, a bank in use stalls it. E = s[SRCA] + IMM[11:0] is taken as the exact sum, so one
past 2^32 faults too: R700 does not say that it wraps (DESIGN CHOICE, log entry 74). -/
def withEntries (l : Nat) (s : State) (e : Nat) (f : State × After) : State × After :=
  if 4096 < e + 16 then (s, .fault ftEngine)
  else if (s.ltile l).bankUsed (e / 512) || (s.ltile l).bankUsed ((e + 15) / 512) then (s, .stall)
  else f

def uAccRd : UOp :=
  { cls := 5, op := 2, uses := fun _ => { dst := .vec, a := .sc, b := .no },
    eff := fun l i u s =>
      let e := (s.sget l i u.srca).toNat + uimm u 11 0
      withEntries l s e (
        let r := (List.range 16).foldl (fun (a : State × List Word) j => let x := a.1.accRead l (e + j); (x.1, a.2 ++ [wi x.2])) (s, [])
        (r.1.onL l (·.putVec i u.dst.toNat (fun j => r.2.getD j 0)), .next)) }

def uAccWr : UOp :=
  { cls := 5, op := 3, uses := fun _ => { dst := .no, a := .sc, b := .vec },
    eff := fun l i u s =>
      let e := (s.sget l i u.srca).toNat + uimm u 11 0
      withEntries l s e (s.onL l (fun t => overBelow 16 (fun j x => x.accWrite (e + j) (t.lane i u.srcb.toNat j).toInt) t), .next) }

def uAccClr : UOp :=
  { cls := 5, op := 4, uses := fun _ => { dst := .no, a := .no, b := .no },
    eff := fun l _ u s =>
      let b := uimm u 2 0
      if (s.ltile l).bankUsed b then (s, .stall)
      else (s.onL l (fun t => overBelow 512 (fun e x => x.accWrite (512 * b + e) 0) t), .next) }

def uGpStart : UOp := uStart 6 .gate (fun t c d _ => gateFault t c d) (fun _ => false)

/-- Whether the thread has a gate job, standalone or forwarded, queued or running. -/
def Tile.hasGate (t : Tile) (i : Nat) : Bool := t.jobs.any (fun j => j.thread == i && j.program.isSome)

/-- GP_WAIT: it stalls while the thread has a gate job, that of a forwarded pair too (R187). -/
def uGpWait : UOp :=
  { cls := 6, op := 1, uses := fun _ => { dst := .no, a := .no, b := .no },
    eff := fun l i _ s => if (s.ltile l).hasGate i then (s, .stall) else (s, .next) }

def uGpLane : UOp :=
  { cls := 6, op := 2, uses := fun _ => { dst := .sc, a := .no, b := .no },
    eff := fun l i u s =>
      if (s.ltile l).hasGate i then (s, .stall)
      else (s.sput l i u.dst (((s.ltile l).thread i).lastGate.getD (uimm u 3 0) 0), .next) }

def uScStart : UOp := uStart 7 .scan (fun _ _ d _ => scFault d) (fun _ => false)
def uScWait : UOp := uWaitJob 7 .scan

/-- MM_START. -/
def execMmStart (l : Fin 256) (i : Fin 4) (u : UInsn) (s : State) : Host.Outcome State Fault Refusal := .next (s.issueInsn l i uMmStart u)
/-- MM_WAIT. -/
def execMmWait (l : Fin 256) (i : Fin 4) (u : UInsn) (s : State) : Host.Outcome State Fault Refusal := .next (s.issueInsn l i uMmWait u)
/-- ACC_RD. -/
def execAccRd (l : Fin 256) (i : Fin 4) (u : UInsn) (s : State) : Host.Outcome State Fault Refusal := .next (s.issueInsn l i uAccRd u)
/-- ACC_WR. -/
def execAccWr (l : Fin 256) (i : Fin 4) (u : UInsn) (s : State) : Host.Outcome State Fault Refusal := .next (s.issueInsn l i uAccWr u)
/-- ACC_CLR. -/
def execAccClr (l : Fin 256) (i : Fin 4) (u : UInsn) (s : State) : Host.Outcome State Fault Refusal := .next (s.issueInsn l i uAccClr u)
/-- GP_START. -/
def execGpStart (l : Fin 256) (i : Fin 4) (u : UInsn) (s : State) : Host.Outcome State Fault Refusal := .next (s.issueInsn l i uGpStart u)
/-- GP_WAIT. -/
def execGpWait (l : Fin 256) (i : Fin 4) (u : UInsn) (s : State) : Host.Outcome State Fault Refusal := .next (s.issueInsn l i uGpWait u)
/-- GP_LANE. -/
def execGpLane (l : Fin 256) (i : Fin 4) (u : UInsn) (s : State) : Host.Outcome State Fault Refusal := .next (s.issueInsn l i uGpLane u)
/-- SC_START. -/
def execScStart (l : Fin 256) (i : Fin 4) (u : UInsn) (s : State) : Host.Outcome State Fault Refusal := .next (s.issueInsn l i uScStart u)
/-- SC_WAIT. -/
def execScWait (l : Fin 256) (i : Fin 4) (u : UInsn) (s : State) : Host.Outcome State Fault Refusal := .next (s.issueInsn l i uScWait u)

end Sys2Proof.Machine
end

