-- ==== Sys2Proof/Machine/Neuron.lean ====
section
/-! DEFINITION. Event neurons: synaptic rows, slot arithmetic, and the NEURON class (Table 3.6 class 4; R204 to R225, Tables 5.2
to 5.6). -/

namespace Sys2Proof.Machine

/-- The priority of a thread's requests (R118): urgent for class 0, normal for 1 and 2, bulk for 3. -/
def classPrio (c : Nat) : Nat := if c = 0 then 0 else if c = 3 then 2 else 1

/-! ### Slots -/

/-- Add a weight into the slot of a neuron for a beat, modulo 2^32 (R211), and the completion code: the header line of an enabled ring refuses it
with ERR_PROTECT (R136), a poisoned slot line with ERR_POISON, and one that reads in error with ERR_UNWRITTEN. -/
def State.slotAdd (s : State) (l n b : Nat) (w : Word) : State × Nat :=
  let a := (s.ltile l).slotAddr n b
  if (s.ltile l).touchesRing a 4 then (s, cProtect)
  else
    let r := s.readMem l false a 4 1
    if r.2.1.poisoned then (r.1, cPoison)
    else if r.2.1.unwrErr then (r.1, cUnwritten)
    else (r.1.storeMem l false a (toBytes 4 (wd (ofBytes r.2.2) + w).toNat), cOK)

/-- The window check of R224: the beat s when the event may be applied. -/
def Tile.eventBeat (t : Tile) (index : Nat) (b : Int) : Option Nat :=
  let e : Int := ((t.rd Reg.EV_BEAT).toNat : Int)
  if t.fld Reg.EV_NEURON_COUNT 16 0 ≤ index ∨ b < e ∨ b > e + (t.evSlots : Int) - 1 then none else some b.toNat

/-- The signed 10-bit difference of a stamp and EV_BEAT. -/
def Tile.stampDiff (t : Tile) (stamp : Nat) : Int :=
  sext 10 ((stamp + 1024 - (t.rd Reg.EV_BEAT).toNat % 1024) % 1024)

/-! ### Synaptic rows (Tables 5.3 to 5.5) -/

/-- A segment of a synaptic row. -/
structure Segment where
  delay : Nat
  loc   : Bool
  chip  : Nat
  tile  : Nat
  count : Nat
  first : Nat
deriving DecidableEq, Repr

/-- A segment descriptor word; `first` is the SRAM offset of its first entry. -/
def segmentOf (w : Word) (first : Nat) : Segment :=
  { delay := wfld w 3 0, loc := wbit w 4, chip := wfld w 11 8, tile := wfld w 19 12, count := wfld w 31 20, first := first }

/-- Segments from descriptor words, their entries packed from an offset. -/
def segmentsFrom (o : Nat) : List Word → List Segment
  | [] => []
  | w :: r => segmentOf w o :: segmentsFrom (o + 3 * wfld w 31 20) r

/-- What a neuron's row is: no synapses, invalid, or its segments (R218, R219). -/
inductive Row where
  | empty
  | bad
  | segs (r : List Segment)
deriving DecidableEq, Repr

/-- The directory entry and descriptors of neuron n's row, as stored. -/
def State.rowOf (s : State) (l n : Nat) : Row :=
  let t := s.ltile l
  let word (o : Nat) : Word := wd (ofBytes (s.mem.bytes false (sramKey (s.physOf l) o) 4))
  let d := word (t.fld Reg.EV_SYN_BASE 17 6 * 64 + 4 * n)
  if !wbit d 14 then .empty
  else
    let row := wfld d 13 0 * 16
    let n := wfld (word row) 3 0 + 1
    let ds := (List.range n).map (fun k => word (row + 4 + 4 * k))
    let sg := segmentsFrom (row + 4 + 4 * n) ds
    if wfld d 31 15 ≠ 0 ∨ 0x40000 < row + 4 ∨ wfld (word row) 31 4 ≠ 0 ∨ 0x40000 < row + 4 + 4 * n ∨ ds.any (fun w => wfld w 7 5 != 0) ∨
       0x40000 < row + 4 + 4 * n + 3 * (sg.foldl (fun a g => a + g.count) 0) ∨ sg.any (fun g => g.loc && decide (t.evSlots ≤ g.delay))
    then .bad else .segs sg

/-- The SRAM range of the directory entry and of the descriptors of neuron n's row. -/
def State.rowHead (s : State) (l n : Nat) : List (Nat × Nat) :=
  let t := s.ltile l
  let word (o : Nat) : Word := wd (ofBytes (s.mem.bytes false (sramKey (s.physOf l) o) 4))
  let de := t.fld Reg.EV_SYN_BASE 17 6 * 64 + 4 * n
  if !wbit (word de) 14 then [(de, 4)]
  else
    let row := wfld (word de) 13 0 * 16
    [(de, 4), (row, 4 + 4 * (wfld (word row) 3 0 + 1))]

/-- Whether a spike still has local entries to apply from a segment on (R214). -/
def State.localLeft (s : State) (l neuron seg : Nat) : Bool :=
  match s.rowOf l neuron with
  | .segs r => (r.drop seg).any (fun g => g.loc && decide (0 < g.count))
  | _ => false

/-- Whether every local entry of every spike handed over has been applied. -/
def State.localsDone (s : State) (l : Nat) : Bool :=
  (s.ltile l).spikes.all (fun k => !s.localLeft l k.neuron 0) && (s.ltile l).cursors.all (fun c => !s.localLeft l c.spike.neuron c.seg)

/-! ### The spike queue (R217) -/

/-- Whether k more spikes of a thread of a class fit. Spikes of class 0 take the 256 reserved entries first (DESIGN CHOICE, log entry 84). -/
def Tile.spikesFit (t : Tile) (c k : Nat) : Bool :=
  let c0 := t.spikes.countP (·.class0)
  let other := t.spikes.length - c0
  if c = 0 then decide (t.spikes.length + k ≤ 1024) else decide (other + (c0 - 256) + k ≤ 768)

/-- Hand neurons over, in order, each stamped with EV_BEAT; `locals` says which rows have local entries. -/
def Tile.handOver (t : Tile) (i : Nat) (neg : Bool) (locals : Nat → Bool) (ns : List Nat) : Tile :=
  let e := (t.rd Reg.EV_BEAT).toNat
  { t with seq := t.seq + 1,
           spikes := t.spikes ++ ns.map (fun n => { neuron := n, neg := neg, stamp := e, thread := i, class0 := t.tclass i == 0,
                                                    prio := BitVec.ofNat 2 (classPrio (t.tclass i)), seq := t.seq, locals := locals n }) }

/-- A NEURON instruction: with ENABLE = 0 the thread faults ENGINE (R210), during the slot clear it stalls (R208). -/
def withEvents (l : Nat) (s : State) (f : State × After) : State × After :=
  if !(s.ltile l).bit Reg.EV_CFG 0 then (s, .fault ftEngine) else if (s.ltile l).evClear then (s, .stall) else f

/-- Hand over, fault on a neuron beyond the count (R213), or stall until all fit (R217). Whether a spike has local entries, for which a FENCE waits, is
decided here, from its row as it stands (R222; DESIGN CHOICE, log entry 84). -/
def State.spike (s : State) (l i : Nat) (neg : Bool) (ns : List Nat) : State × After :=
  let t := s.ltile l
  if ns.any (fun n => decide (t.fld Reg.EV_NEURON_COUNT 16 0 ≤ n)) then (s, .fault ftEngine)
  else if !t.spikesFit (t.tclass i) ns.length then (s, .stall)
  else (s.onL l (·.handOver i neg (fun n => s.localLeft l n 0) ns), .next)

def uSlotTake : UOp :=
  { cls := 4, op := 0, uses := fun _ => { dst := .vec, a := .sc, b := .no },
    eff := fun l i u s => withEvents l s (
      let t := s.ltile l
      let n := (s.sget l i u.srca).toNat
      if n % 16 ≠ 0 then (s, .fault ftAddr)
      else if !s.localsDone l then (s, .stall)
      else if t.npad ≤ n then (s.onL l (·.putVec i u.dst.toNat (fun _ => 0)), .next)
      else
        let a := t.slotAddr n (t.rd Reg.EV_BEAT).toNat
        let r := s.loadSram l a 64
        match (if t.touchesRing a 64 then some ftAddr else r.2.1) with
        | some c => (r.1, .fault c)
        | none =>
          let s := r.1.storeMem l false a (List.replicate 64 0)
          (s.onL l (·.putVec i u.dst.toNat (fun j =>
            if n + j < t.fld Reg.EV_NEURON_COUNT 16 0 then wordAt r.2.2 (4 * j) else 0)), .next)) }

def uSlotAdd : UOp :=
  { cls := 4, op := 1, uses := fun _ => { dst := .no, a := .sc, b := .vec },
    eff := fun l i u s => withEvents l s (
      let t := s.ltile l
      let n := (s.sget l i u.srca).toNat
      let d := uimm u 5 0
      if n % 16 ≠ 0 ∨ t.evSlots ≤ d then (s, .fault ftAddr)
      else if t.npad ≤ n then (s, .next)
      else
        let a := t.slotAddr n ((t.rd Reg.EV_BEAT).toNat + d)
        let r := s.loadSram l a 64
        match (if t.touchesRing a 64 then some ftAddr else r.2.1) with
        | some c => (r.1, .fault c)
        | none =>
          let lane (j : Nat) : Word :=
            if n + j < t.fld Reg.EV_NEURON_COUNT 16 0 then wordAt r.2.2 (4 * j) + t.lane i u.srcb.toNat j else wordAt r.2.2 (4 * j)
          (r.1.storeMem l false a ((List.range 16).flatMap (fun j => toBytes 4 (lane j).toNat)), .next)) }

/-- SPIKE. The neuron numbers s[SRCA] + j are exact sums, so that one above EV_NEURON_COUNT never wraps to a valid one (DESIGN CHOICE, log entry 84). -/
def uSpike : UOp :=
  { cls := 4, op := 2, uses := fun _ => { dst := .no, a := .sc, b := .vec },
    eff := fun l i u s => withEvents l s (
      let n := (s.sget l i u.srca).toNat
      s.spike l i (ubit u 0) (((List.range 16).filter (fun j => (s.ltile l).lane i u.srcb.toNat j != 0)).map (n + ·))) }

def uSpike1 : UOp :=
  { cls := 4, op := 3, uses := fun _ => { dst := .no, a := .sc, b := .no },
    eff := fun l i u s => withEvents l s (s.spike l i (ubit u 0) [(s.sget l i u.srca).toNat]) }

def uBeatRead : UOp :=
  { cls := 4, op := 4, uses := fun _ => { dst := .sc, a := .no, b := .no },
    eff := fun l i u s => withEvents l s (
      let e := (s.ltile l).rd Reg.EV_BEAT
      let s := s.sput l i u.dst e
      (if ubit u 0 then s.onL l (·.wr Reg.EV_BEAT (e + 1)) else s, .next)) }

/-- SLOT_TAKE. -/
def execSlotTake (l : Fin 256) (i : Fin 4) (u : UInsn) (s : State) : Host.Outcome State Fault Refusal := .next (s.issueInsn l i uSlotTake u)
/-- SLOT_ADD. -/
def execSlotAdd (l : Fin 256) (i : Fin 4) (u : UInsn) (s : State) : Host.Outcome State Fault Refusal := .next (s.issueInsn l i uSlotAdd u)
/-- SPIKE. -/
def execSpike (l : Fin 256) (i : Fin 4) (u : UInsn) (s : State) : Host.Outcome State Fault Refusal := .next (s.issueInsn l i uSpike u)
/-- SPIKE1. -/
def execSpike1 (l : Fin 256) (i : Fin 4) (u : UInsn) (s : State) : Host.Outcome State Fault Refusal := .next (s.issueInsn l i uSpike1 u)
/-- BEAT_READ. -/
def execBeatRead (l : Fin 256) (i : Fin 4) (u : UInsn) (s : State) : Host.Outcome State Fault Refusal := .next (s.issueInsn l i uBeatRead u)

end Sys2Proof.Machine
end

