-- ==== Sys2Proof/Machine/RemoteInsn.lean ====
section
/-! DEFINITION. The REMOTE class (Table 3.6 class 8; R62, R63, R66, R67, R117 to R119, R223), and the completion of what a tile has
issued: responses and reports of posted operations (R70, R73, R81). -/

namespace Sys2Proof.Machine

/-! ### FENCE (R62, R63, R222) -/

/-- Whether a FENCE mask selects a priority; a mask of 0 selects all three. -/
def maskHas (m : BitVec 3) (prio : BitVec 2) : Bool := m == 0 || m.getLsbD prio.toNat

/-- Whether everything before a FENCE of thread i is complete: operations and spikes handed over at the masked priorities, and the local entries of
spikes whatever the mask (R222). -/
def Tile.fenceDone (t : Tile) (i : Nat) (f : FenceWait) : Bool :=
  t.out.all (fun o => !(o.owner == i && o.unit != 5 && decide (o.seq < f.seq) && maskHas f.mask o.prio)) &&
  t.spikes.all (fun k => !(k.thread == i && decide (k.seq < f.seq) && (k.locals || maskHas f.mask k.prio))) &&
  t.cursors.all (fun c => !(c.spike.thread == i && decide (c.spike.seq < f.seq) && (c.spike.locals || maskHas f.mask c.spike.prio)))

/-- Complete the oldest FENCEs of thread i that are done: each writes the failures counted since the one before, at most 0xFFFF. -/
def Tile.settleFences (i : Nat) : Nat → Tile → Tile
  | 0, t => t
  | k + 1, t =>
    match (t.thread i).fences with
    | [] => t
    | f :: r =>
      if t.fenceDone i f then
        let v := wd (min 0xFFFF (t.thread i).failed)
        Tile.settleFences i k ((t.onThread i (fun h => { h with fences := r, failed := 0 })).sput i f.dst v)
      else t

/-- Settle the FENCEs of every thread. -/
def Tile.settleAll (t : Tile) : Tile := overBelow 4 (fun i t => t.settleFences i (t.thread i).fences.length) t

/-! ### Issue -/

/-- The operand width of a TYPE code (Table 2.12); a code without a meaning counts as 4. -/
def typeWidth (op ty : Nat) : Nat :=
  if op = 3 ∧ ty = 1 then 8 else if op = 4 ∧ (ty = 3 ∨ ty = 4) then 8 else if (op = 5 ∨ op = 6) ∧ ty = 1 then 8 else 4

/-- SIZE in bytes; a reserved code counts as 4. -/
def sizeBytes (c : Nat) : Nat := if c ≤ 8 then 2 ^ c else 4

/-- Operand bytes of a REMOTE instruction. -/
def remoteWidth (op : Nat) (u : UInsn) : Nat := if op ≤ 2 then sizeBytes (uimm u 3 0) else typeWidth op (uimm u 6 4)

/-- The fields of a REMOTE instruction (R117): ACK, NOTICE, the result's SRAM address. -/
def remoteAck (u : UInsn) : Bool := ubit u 7
def remoteNotice (u : UInsn) : Bool := ubit u 8
def remoteResult (u : UInsn) : Nat := uimm u 35 18

/-- Whether the operation reads s[SRCB]: every one but GET. The response of an acknowledged operation writes s[DST] (R119), also that of a POST,
which is an error. -/
def remoteUses (op : Nat) (u : UInsn) : Uses :=
  { dst := if remoteAck u && !(op != 2 && op != 7 && decide (4 < remoteWidth op u)) && op != 7 then .sc else .no,
    a := .sc, b := if op = 1 then .no else .sc }

/-- The lowest TAG that no outstanding acknowledged operation of the tile carries and that no operation failed within the last 1 ms
carried (R548): none while every one is in use. -/
def Tile.tagFor (t : Tile) (now : Nat) : Option Nat :=
  lowestBelow 1024 (fun k => !t.out.any (fun o => o.acked && o.tag.toNat == k) && !t.late.any (fun e => e.1 == k && decide (now < e.2)))

/-- The TAG that the next acknowledged operation gets. -/
def Tile.freeTag (t : Tile) (now : Nat) : Nat := (t.tagFor now).getD 0

/-- Whether the tile may issue (R66, R67, R235): an injection credit for the priority, which an operation on the tile itself does not need,
and for an acknowledged operation fewer than 128 of the thread and 1,024 of the tile outstanding, and a TAG (R548). The spec gives the receive buffer
of R66 no size: the model's is large enough for every operation these counts allow (DESIGN CHOICE, log entry 73). -/
def Tile.mayIssue (t : Tile) (now i : Nat) (prio : BitVec 2) (ack self : Bool) : Bool :=
  (self || t.canInject prio) &&
  (!ack || (decide (t.out.countP (fun o => o.acked && o.unit == i) < 128) && decide (t.out.countP (·.acked) < 1024) && (t.tagFor now).isSome))

/-- Record an issued operation and send it. -/
def State.sendRemote (s : State) (l i : Nat) (r : ReqFlit) (size : Nat) (dst : ResultTo) : State :=
  let t := s.ltile l
  let o : Outst := { seq := t.seq, unit := i, owner := i, acked := r.ack, prio := r.prio, tag := r.tag, target := targetKey r.addr,
                     size := size, dst := dst, since := s.now }
  (s.onL l (fun t => { t with seq := t.seq + 1, out := t.out ++ [o] })).issueTile l r

/-- The address of a REMOTE instruction (R117). -/
def State.remoteAddr (s : State) (l i : Nat) (u : UInsn) : Addr :=
  BitVec.ofNat 40 ((s.sget l i u.srca).toNat + 2 ^ 32 * ((s.sget l i (u.srca + 1)).toNat % 256))

/-- A REMOTE instruction of opcode op with operands in ARG0 and payload and a result of n bytes: the result goes to s[DST], or to the
SRAM address IMM[35:18] when it is larger than 4 bytes. -/
def State.remote (s : State) (l i op : Nat) (u : UInsn) (arg0 : Word) (payload : List Byte) (n : Nat) : State × After :=
  let t := s.ltile l
  let prio := classPrio (t.tclass i)
  let ack := remoteAck u
  if ack && decide (4 < n) && !inSram (remoteResult u) n then (s, .fault ftAddr)
  else if !t.mayIssue s.now i (BitVec.ofNat 2 prio) ack (s.selfServed l (s.remoteAddr l i u)) then (s, .stall)
  else
    let a := s.remoteAddr l i u
    let r := mkReq s op ack prio a (uimm u 3 0) (uimm u 6 4) l i arg0 payload
    let tag := if op = 8 then (t.rd Reg.EV_BEAT).toNat % 1024 else t.freeTag s.now
    let r := { r with tag := BitVec.ofNat 10 tag, notice := remoteNotice u, owner := BitVec.ofNat 2 i }
    let dst : ResultTo := if !ack then .nowhere else if 4 < n then .sram (remoteResult u) else if u.dst.toNat < 16 then .reg u.dst.toNat else .nowhere
    let s := if op = 8 then s.onL l (·.countBy Reg.POSTS_OUT 1) else s
    (s.sendRemote l i r n dst, .next)

/-- SRCA must name one of s0 to s14, and neither it nor the next scalar may await a response (R117, R119). -/
def withAddress (l i : Nat) (u : UInsn) (s : State) (f : State × After) : State × After :=
  if 15 ≤ u.srca.toNat then (s, .fault ftIllegal)
  else if (s.ltile l).awaits i (u.srca.toNat + 1) then (s, .stall)
  else f

/-- Operand data from SRAM at s[SRCB]: n bytes, or the fault. -/
def withData (l i : Nat) (u : UInsn) (s : State) (n : Nat) (f : State → List Byte → State × After) : State × After :=
  let r := s.loadSram l (s.sget l i u.srcb).toNat n
  match r.2.1 with
  | some c => (r.1, .fault c)
  | none => f r.1 r.2.2

def uRemoteGet : UOp :=
  { cls := 8, op := 0, uses := remoteUses 1,
    eff := fun l i u s => withAddress l i u s (s.remote l i 1 u 0 [] (remoteWidth 1 u)) }

/-- An operation whose operand is s[SRCB] when it has 4 bytes or fewer and SRAM data when it is larger. -/
def remoteOperand (op l i : Nat) (u : UInsn) (s : State) (n : Nat) : State × After :=
  if remoteWidth op u ≤ 4 then s.remote l i op u (s.sget l i u.srcb) [] n
  else withData l i u s (remoteWidth op u) (fun s d => s.remote l i op u 0 d n)

def uRemotePut : UOp :=
  { cls := 8, op := 1, uses := remoteUses 2, eff := fun l i u s => withAddress l i u s (remoteOperand 2 l i u s 4) }
def uRemoteAdd : UOp :=
  { cls := 8, op := 2, uses := remoteUses 3, eff := fun l i u s => withAddress l i u s (remoteOperand 3 l i u s (remoteWidth 3 u)) }
def uRemoteMax : UOp :=
  { cls := 8, op := 3, uses := remoteUses 4, eff := fun l i u s => withAddress l i u s (remoteOperand 4 l i u s (remoteWidth 4 u)) }
def uRemoteSwap : UOp :=
  { cls := 8, op := 4, uses := remoteUses 5, eff := fun l i u s => withAddress l i u s (remoteOperand 5 l i u s (remoteWidth 5 u)) }
def uRemoteCas : UOp :=
  { cls := 8, op := 5, uses := remoteUses 6,
    eff := fun l i u s => withAddress l i u s (
      let n := remoteWidth 6 u
      withData l i u s (2 * n) (fun s d => if n = 4 then s.remote l i 6 u (wordAt d 0) (takeBytes 4 (d.drop 4)) n else s.remote l i 6 u 0 d n)) }

/-- GSUM: 3 payload flits, or 5 with WEIGHTED (Table 2.14); the result has ELEM_COUNT words, at most 256. -/
def uGsum : UOp :=
  { cls := 8, op := 6, uses := remoteUses 7,
    eff := fun l i u s => withAddress l i u s (
      withData l i u s 16 (fun s h =>
        withData l i u s (if wbit (wordAt h 0) 9 then 80 else 48) (fun s d =>
          let n := 4 * min 256 (natAt d 0 8 / 2 ^ 26 % 2 ^ 9)
          if remoteAck u && decide (n ≤ 4) && !isScalar u.dst.toNat then (s, .fault ftIllegal)
          else if remoteAck u && decide (n ≤ 4) && (s.ltile l).awaits i u.dst.toNat then (s, .stall)
          else s.remote l i 7 u 0 d n))) }

def uRemotePost : UOp :=
  { cls := 8, op := 7, uses := remoteUses 8, eff := fun l i u s => withAddress l i u s (s.remote l i 8 u (s.sget l i u.srcb) [] 0) }

def uRemoteFence : UOp :=
  { cls := 8, op := 8, uses := fun _ => { dst := .sc, a := .no, b := .no },
    eff := fun l i u s =>
      (s.onL l (fun t =>
        (({ t with seq := t.seq + 1 } : Tile).onThread i (fun h => { h with fences := h.fences ++ [{ seq := t.seq, mask := BitVec.ofNat 3 (uimm u 2 0), dst := u.dst.toNat }] })).settleAll),
       .next) }

/-- REMOTE_GET. -/
def execRemoteGet (l : Fin 256) (i : Fin 4) (u : UInsn) (s : State) : Host.Outcome State Fault Refusal := .next (s.issueInsn l i uRemoteGet u)
/-- REMOTE_PUT. -/
def execRemotePut (l : Fin 256) (i : Fin 4) (u : UInsn) (s : State) : Host.Outcome State Fault Refusal := .next (s.issueInsn l i uRemotePut u)
/-- REMOTE_ADD. -/
def execRemoteAdd (l : Fin 256) (i : Fin 4) (u : UInsn) (s : State) : Host.Outcome State Fault Refusal := .next (s.issueInsn l i uRemoteAdd u)
/-- REMOTE_MAX. -/
def execRemoteMax (l : Fin 256) (i : Fin 4) (u : UInsn) (s : State) : Host.Outcome State Fault Refusal := .next (s.issueInsn l i uRemoteMax u)
/-- REMOTE_SWAP. -/
def execRemoteSwap (l : Fin 256) (i : Fin 4) (u : UInsn) (s : State) : Host.Outcome State Fault Refusal := .next (s.issueInsn l i uRemoteSwap u)
/-- REMOTE_CAS. -/
def execRemoteCas (l : Fin 256) (i : Fin 4) (u : UInsn) (s : State) : Host.Outcome State Fault Refusal := .next (s.issueInsn l i uRemoteCas u)
/-- GSUM. -/
def execGsum (l : Fin 256) (i : Fin 4) (u : UInsn) (s : State) : Host.Outcome State Fault Refusal := .next (s.issueInsn l i uGsum u)
/-- REMOTE_POST. -/
def execRemotePost (l : Fin 256) (i : Fin 4) (u : UInsn) (s : State) : Host.Outcome State Fault Refusal := .next (s.issueInsn l i uRemotePost u)
/-- REMOTE_FENCE. -/
def execRemoteFence (l : Fin 256) (i : Fin 4) (u : UInsn) (s : State) : Host.Outcome State Fault Refusal := .next (s.issueInsn l i uRemoteFence u)

/-! ### Completion at the tile -/

/-- A result for SRAM arrives (R117): each line is written as it is reached, but a poisoned line covered in part and the header line of an enabled
ring are left as they were; the answer is the fault of the first such line (R136; ADDR as for a store, DEDUCED, log entry 73). -/
def State.resultToSram (s : State) (l o : Nat) (bs : List Byte) : State × Option Nat :=
  (linesOf o bs.length).foldl (fun (a : State × Option Nat) line =>
    let lo := max o (64 * line)
    let hi := min (o + bs.length) (64 * line + 64)
    let part := (bs.drop (lo - o)).take (hi - lo)
    if (a.1.ltile l).touchesRing lo part.length then (a.1, a.2.orElse (fun _ => some ftAddr))
    else
      let w := a.1.partialWrite l false lo part.length
      if w.2 then (w.1, a.2.orElse (fun _ => some ftPoison)) else (w.1.storeMem l false lo part, a.2)) (s, none)

/-- A response reaches the interface of logical tile l: it is matched by TAG among its unit's acknowledged operations. -/
def State.tileResponse (s : State) (l : Nat) (r : RespFlit) : State :=
  match (s.ltile l).out.find? (fun o => o.acked && o.tag == r.tag && o.unit == r.dstUnit.toNat) with
  | none => s
  | some o =>
    let s := s.onL l (fun t => ({ t with out := t.out.erase o } : Tile).wake)
    let data := if o.size ≤ 4 then toBytes 4 r.data0.toNat else takeBytes o.size r.payload
    match o.dst with
    | .reg k => s.onL l (fun t => (t.sput o.owner k (wordAt data 0)).settleAll)
    | .nowhere => s.onL l Tile.settleAll
    | .sram a =>
      let w := s.resultToSram l a data
      let s := w.1.onL l Tile.settleAll
      match w.2 with
      | some c => if (s.ltile l).tstate o.owner != tFault then s.faultThread l o.owner c else s
      | none => s

/-- A report of posted operations reaches the interface of logical tile l: the oldest ones of that unit, owner, priority and target
are complete, and failures of a thread's operations, those of its spikes among them, are counted for it (R63, R222); the ring engine and the
state mover issue no FENCE. -/
def State.tileCredit (s : State) (l : Nat) (c : CreditFlit) : State :=
  let hit : Outst → Bool := fun o => !o.acked && o.unit == c.issuer.unit.toNat && o.owner == c.issuer.owner.toNat && o.prio == c.issuer.prio && o.target == c.target
  s.onL l (fun t =>
    let kept := t.out.foldl (fun (a : List Outst × Nat) o => if hit o && decide (0 < a.2) then (a.1, a.2 - 1) else (a.1 ++ [o], a.2)) ([], c.applied + c.failed)
    (({ t with out := kept.1 } : Tile).wake.onThread c.issuer.owner.toNat (fun h => if c.issuer.unit.toNat ≤ 4 then { h with failed := h.failed + c.failed } else h)).settleAll)

end Sys2Proof.Machine
end

