-- ==== Sys2Proof/Machine/EventEngine.lean ====
section
/-! DEFINITION. The event engine: one queued spike and its synaptic row (R132, R133, R214, R218 to R225, R236). -/

namespace Sys2Proof.Machine

/-- The weight of an entry (R220). -/
def State.entryWeight (s : State) (l : Nat) (neg : Bool) (b : Nat) : Int :=
  let w := sext 8 b * ((2 ^ (s.ltile l).fld Reg.EV_CFG 6 4 : Nat) : Int)
  if neg then -w else w

/-- A LOCAL entry (R220, R224, R225): added into its slot, or counted in POSTED_ERRORS. -/
def State.localEntry (s : State) (l : Nat) (k : Spike) (delay index : Nat) (w : Int) : State :=
  let t := s.ltile l
  let e : Int := ((t.rd Reg.EV_BEAT).toNat : Int)
  match t.eventBeat index (e + t.stampDiff (k.stamp % 1024) + (delay : Int)) with
  | none => s.onL l (·.countBy Reg.POSTED_ERRORS 1)
  | some b =>
    let r := s.slotAdd l index b (wi w)
    if r.2 = cOK then r.1 else r.1.onL l (·.countBy Reg.POSTED_ERRORS 1)

/-- The POST made from an entry (Table 5.6), which counts for the FENCEs of the handing thread (R222). -/
def State.entryPost (s : State) (l : Nat) (k : Spike) (g : Segment) (index : Nat) (w : Int) : State :=
  let t := s.ltile l
  let r := mkReq s 8 false k.prio.toNat (mkAddr g.chip 0 g.tile index) 0 0 l 4 (wd (g.delay + 2 ^ 16 * (w % 65536).toNat)) []
  let r := { r with tag := BitVec.ofNat 10 (k.stamp % 1024), notice := t.bit Reg.EV_CFG 7, owner := BitVec.ofNat 2 k.thread }
  let o : Outst := { seq := k.seq, unit := 4, owner := k.thread, acked := false, prio := k.prio, tag := r.tag, target := targetKey r.addr,
                     size := 0, dst := .nowhere, since := s.now }
  (s.onL l (fun t => { t.countBy Reg.POSTS_OUT 1 with out := t.out ++ [o] })).issueTile l r

/-- How the walk of a row stands: done, held at an entry, or faulted. -/
inductive Walk where
  | done
  | held (seg entry : Nat)
  | bad (code : Nat)
deriving DecidableEq, Repr

/-- Process the entries of one segment from an index on. -/
def State.walkSegment (l : Nat) (k : Spike) (gi : Nat) (g : Segment) : Nat → Nat → State → State × Walk
  | 0, _, s => (s, .done)
  | n + 1, j, s =>
    if !g.loc && !s.selfServed l (mkAddr g.chip 0 g.tile 0) && !(s.ltile l).canInject k.prio then (s, .held gi j)
    else
      let r := s.loadSram l (g.first + 3 * j) 3
      match r.2.1 with
      | some c => (r.1, .bad c)
      | none =>
        let w := r.1.entryWeight l k.neg (natAt r.2.2 2 1)
        let s := if g.loc then r.1.localEntry l k g.delay (natAt r.2.2 0 2) w else r.1.entryPost l k g (natAt r.2.2 0 2) w
        State.walkSegment l k gi g n (j + 1) s

/-- Process segments in order from a place on. -/
def State.walkRow (l : Nat) (k : Spike) : List (Nat × Segment) → Nat → State → State × Walk
  | [], _, s => (s, .done)
  | (gi, g) :: r, j, s =>
    let x := State.walkSegment l k gi g (g.count - j) j s
    match x.2 with
    | .done => State.walkRow l k r 0 x.1
    | w => (x.1, w)

/-- Put a spike back as held, or finish it: a fault faults the handing thread and discards the rest. -/
def State.walked (l : Nat) (k : Spike) (x : State × Walk) : State :=
  match x.2 with
  | .done => x.1.onL l Tile.settleAll
  | .held gi j =>
    x.1.onL l (fun t =>
      ({ t with cursors := t.cursors ++ [{ spike := { k with locals := x.1.localLeft l k.neuron gi }, seg := gi, entry := j }] } : Tile).settleAll)
  | .bad c => (x.1.faultThread l k.thread c).onL l Tile.settleAll

/-- Go on with a spike from a segment and entry. One that was held at a POST has its row read again and its form checked, not its head for poison (DESIGN
CHOICE, log entry 84). -/
def State.runSpike (s : State) (l : Nat) (k : Spike) (seg entry : Nat) : State :=
  match s.rowOf l k.neuron with
  | .segs r => State.walked l k (State.walkRow l k (((List.range r.length).zip r).drop seg) entry s)
  | .empty => s.onL l Tile.settleAll
  | .bad => State.walked l k (s, .bad ftEngine)

/-- Take a spike: its directory entry, row word and descriptors are checked before any entry (R219), for poison first, then for their form (DESIGN
CHOICE, log entry 84). -/
def State.takeSpike (s : State) (l : Nat) (k : Spike) : State :=
  let s := s.onL l (fun t => { t with spikes := t.spikes.erase k })
  let r := (s.rowHead l k.neuron).foldl (fun (a : State × Option Nat) on =>
    if a.2.isSome then a
    else if !inSram on.1 on.2 then (a.1, some ftEngine)
    else let x := a.1.loadSram l on.1 on.2; (x.1, x.2.1)) (s, none)
  match r.2 with
  | some c => State.walked l k (r.1, .bad c)
  | none => r.1.runSpike l k 0 0

/-- One turn of the event engine for a part of the queue: a held POST first, then the oldest spike. -/
def State.eventPart (s : State) (l : Nat) (c0 : Bool) : Option State :=
  let t := s.ltile l
  match t.cursors.find? (fun c => c.spike.class0 == c0) with
  | some c =>
    if t.canInject c.spike.prio then
      some ((s.onL l (fun t => { t with cursors := t.cursors.erase c })).runSpike l c.spike c.seg c.entry)
    else none
  | none =>
    match t.spikes.find? (fun k => k.class0 == c0) with
    | some k => some (s.takeSpike l k)
    | none => none

/-- The event engine's turn: the class-0 part ahead of the other (R236). -/
def State.eventTurn (s : State) (l : Nat) : State :=
  match s.eventPart l true with
  | some s' => s'
  | none => (s.eventPart l false).getD s

/-- EVENT_ENGINE_SPIKE. -/
def execEventEngineSpike (l : Fin 256) (s : State) : Host.Outcome State Fault Refusal := .next (s.eventTurn l)

end Sys2Proof.Machine
end

