-- ==== Sys2Proof/Machine/Chains.lean ====
section
/-! DEFINITION. Decimation chains: clocks that feed them, validity, stage arithmetic, starts and stops, presets (R337 to R343, R366 to R392). -/

namespace Sys2Proof.Machine

/-! ### Groups, chains and clocks -/

/-- A group of the front end. -/
def State.grp (s : State) (g : Nat) : FeGroup := spGet (fun _ => FeGroup.reset) s.fe.groups g

/-- The state with a group changed. -/
def State.onGrp (s : State) (g : Nat) (f : FeGroup → FeGroup) : State :=
  { s with fe := { s.fe with groups := spSet (fun _ => FeGroup.reset) s.fe.groups g (f (s.grp g)) } }

/-- A chain: 0 to 63 coarse, 64 to 71 fine. -/
def State.path (s : State) (k : Nat) : DcPath := spGet (fun _ => DcPath.reset) s.fe.paths k

/-- The state with a chain's state replaced. -/
def State.setPath (s : State) (k : Nat) (p : DcPath) : State := { s with fe := { s.fe with paths := spSet (fun _ => DcPath.reset) s.fe.paths k p } }

/-- The state with a chain's state changed. -/
def State.onPath (s : State) (k : Nat) (f : DcPath → DcPath) : State := s.setPath k (f (s.path k))

/-- The key of a chain. -/
def chainKey : ChainSel → Nat
  | .coarse c => c.val
  | .fine f => 64 + f.val

/-- FE_CTRL.MATCHED. -/
def State.matched (s : State) : Bool := s.bit Reg.FE_CTRL 0

/-- The listening channel of a group (R339). -/
def State.listenChannel (s : State) (g : Nat) : Nat := 16 * g + (s.bit (Reg.FE_CLK g) 9).toNat

/-- Whether a channel is on its group's listening wire (R338). -/
def onListenWire (c : Nat) : Bool := decide (c % 16 < 2)

/-- FE_STATUS.L_RUN and A_RUN of a group (R341, Table 9.4). -/
def State.lRun (s : State) (g : Nat) : Bool := s.bit (Reg.FE_CLK g) 3
def State.aRun (s : State) (g : Nat) : Bool := !s.fe.listen && s.bit (Reg.FE_CLK g) 7

/-- Whether a channel's bits are captured: its clock runs, and in LISTEN it is the listening channel (Table 9.4). -/
def State.captured (s : State) (c : Nat) : Bool :=
  if onListenWire c then s.lRun (c / 16) && (!s.fe.listen || c == s.listenChannel (c / 16)) else s.aRun (c / 16)

/-- FE_STATUS.SETTLING of a group. -/
def State.settling (s : State) (g : Nat) : Bool := (s.grp g).settle.isSome

/-- Whether a fast path of a channel has bits: array data are discarded while the group settles (R343). -/
def State.fastLive (s : State) (c : Nat) : Bool := s.captured c && (onListenWire c || !s.settling (c / 16))

/-- PDM rate codes in Hz (Table 9.2); 0 for the reserved code. -/
def pdmRate (code : Nat) : Nat := [768000, 1024000, 1536000, 2048000, 2400000, 3072000, 4096000].getD code 0

/-- Output rate codes in Hz (R367); 0 for the reserved codes. -/
def outRate (code : Nat) : Nat := [8000, 16000, 24000, 32000, 48000].getD code 0

/-- f_pdm of a channel (R368). -/
def State.pdmOf (s : State) (c : Nat) : Nat :=
  pdmRate (if s.matched then s.fld (Reg.FE_CLK 0) 6 4
           else if onListenWire c && !s.bit (Reg.FE_CLK (c / 16)) 8 then s.fld (Reg.FE_CLK (c / 16)) 2 0
           else s.fld (Reg.FE_CLK (c / 16)) 6 4)

/-- The channel a chain draws on. -/
def State.chanOf (s : State) (k : Nat) : Nat := if k < 64 then k else (s.path k).src

/-- A chain's CFG0 and CFG1 words. -/
def cfg0Key (k : Nat) : Nat := if k < 64 then Reg.CH_CFG0 k else Reg.FINE_CFG0 (k - 64)
def cfg1Key (k : Nat) : Nat := if k < 64 then Reg.CH_CFG1 k else Reg.FINE_CFG1 (k - 64)

/-- A chain's output rate in Hz. -/
def State.rateOf (s : State) (k : Nat) : Nat := outRate (if k < 64 then s.fld (Reg.CH_CFG0 k) 5 3 else s.fld (Reg.FINE_CFG0 (k - 64)) 13 11)

/-- FAST_EN of a chain. -/
def State.fastEn (s : State) (k : Nat) : Bool := if k < 64 then s.bit (Reg.CH_CFG1 k) 15 else s.bit (Reg.FINE_CFG1 (k - 64)) 30

/-- The chain that supplies a channel's pair (R366): the fine chain with EN = 1 on that channel, or its coarse chain. -/
def State.pairOf (s : State) (c : Nat) : Nat :=
  match lowestBelow 8 (fun f => s.bit (Reg.FINE_CFG0 f) 6 && (s.path (64 + f)).src == c) with
  | some f => 64 + f
  | none => c

/-- Whether the CFG0 word of a chain is valid on a channel's clock (R368). -/
def coarseValid (w : Word) (f : Nat) : Bool :=
  let r := wfld w 19 12
  decide (outRate (wfld w 5 3) ≠ 0) && decide (f = 2 * r * outRate (wfld w 5 3)) && decide (8 ≤ r) && decide (r ≤ 128) &&
  decide (3 ≤ wfld w 10 8) && decide (wfld w 10 8 ≤ 5) && decide (wfld w 22 20 ≤ 3)
def fineValid (w : Word) (f : Nat) : Bool :=
  decide (outRate (wfld w 13 11) ≠ 0) && decide (f = 8 * 2 ^ wfld w 15 14 * (wfld w 18 16 + 1) * outRate (wfld w 13 11))
def State.chainValid (s : State) (k : Nat) : Bool :=
  if k < 64 then coarseValid (s.rd (cfg0Key k)) (s.pdmOf k) else fineValid (s.rd (cfg0Key k)) (s.pdmOf (s.chanOf k))

/-- R_F of a chain (R368); 0 when its rates do not divide. -/
def State.fastRatio (s : State) (k : Nat) : Nat :=
  let f := s.pdmOf (s.chanOf k)
  let r := s.rateOf k
  if r = 0 then 0 else if f % r = 0 then f / r else 0

/-- Whether a chain counts as running for R342 and R354 (R381). -/
def State.chainRuns (s : State) (k : Nat) : Bool := (s.path k).st != 0 || s.fastEn k

/-! ### Starts and stops -/

/-- A main path with its state cleared (R382). -/
def DcPath.cleared (p : DcPath) : DcPath := { p with integ := [], comb := [], hist := [], count := 0, settled := false, gap := false }

/-- A fast path at its start (R379). -/
def DcPath.fastStart (p : DcPath) : DcPath := { p with fastOn := true, fInteg := [], fComb := [], fCount := 0 }

/-- A fast path that does not run. -/
def DcPath.fastStop (p : DcPath) : DcPath := { p with fastOn := false, fInteg := [], fComb := [], fCount := 0 }

/-- WARMUP of a chain. -/
def State.warmup (s : State) (k : Nat) : Nat := if k < 64 then s.fld (Reg.CH_CFG1 k) 27 16 else s.fld (Reg.FINE_CFG2 (k - 64)) 27 16

/-- Start a chain's main path now. -/
def State.runPath (s : State) (k : Nat) : State :=
  let w := s.warmup k
  let v := s.rd (cfg1Key k)
  let t := s.now
  let c := s.chanOf k
  let s := s.onPath k (fun p => { p.cleared with st := 2, startAt := t, warm := w, shifts := v })
  if s.pairOf c = k then
    { s with fe := { s.fe with align := spSet (fun _ => []) s.fe.align c [] } }
  else s

/-- Channels of a group whose pair's main path runs. -/
def State.runningChannels (s : State) (g : Nat) : List Nat := (List.range 16).filter (fun j => (s.path (s.pairOf (16 * g + j))).st == 2)

/-- Whether any channel of a group has a RUNNING main path. -/
def State.groupRuns (s : State) (g : Nat) : Bool := !(s.runningChannels g).isEmpty

/-- A group none of whose main paths runs has no delivery under way, and the frames of its next start count from there (R350, R385). -/
def State.groupCheck (s : State) (g : Nat) : State :=
  if s.groupRuns g then s else s.onGrp g (fun x => { x with begun := false, queues := [], counts := [], marked := false })

/-- A fine chain whose main path no longer runs draws on the channel that FINE_CFG0.SRC names, its fast path not yet started there (R366, R379). -/
def State.adoptSrc (s : State) (k : Nat) : State :=
  let src := s.fld (Reg.FINE_CFG0 (k - 64)) 5 0
  if k < 64 ∨ (s.path k).st = 2 ∨ (s.path k).src = src then s else s.onPath k (fun p => { p.fastStop with src := src })

/-- Whether the start of a chain must wait for a settle: of its group, and in matched mode, where every chain starts on one common edge, of any
group (R343, R353, R382). -/
def State.startWaits (s : State) (c : Nat) : Bool := if s.matched then (List.range 4).any s.settling else s.settling (c / 16)

/-- Start an ARMED path: it runs where it is valid, else it stops with CFG_ERR (R369). -/
def State.releasePath (s : State) (k : Nat) : State :=
  if s.chainValid k then
    (s.runPath k).onGrp (s.chanOf k / 16) (fun g => { g with begun := false, queues := [], counts := [] })
  else s.onPath k (fun p => { p.cleared with st := 0, cfgErr := true })

/-- Bring one chain in line with its clock: a RUNNING path whose channel is not captured returns to ARMED (R388), an ARMED one whose
channel is captured and whose start need not wait is started (R343, R382), and the fast path runs when FAST_EN and the clock do (R379). -/
def State.syncPath (s : State) (k : Nat) : State :=
  let s := if (s.path k).st = 2 ∧ !s.captured (s.chanOf k) then (s.onPath k (fun p => { p.cleared with st := 1 })).adoptSrc k else s
  let c := s.chanOf k
  let s := if (s.path k).st = 1 ∧ s.captured c ∧ !s.startWaits c then s.releasePath k else s
  let p := s.path k
  let want := s.fastEn k && s.fastLive c && s.fastRatio k != 0
  if want && !p.fastOn then s.onPath k (·.fastStart) else if !want && p.fastOn then s.onPath k (·.fastStop) else s

/-- Bring every chain in line with the clocks, on one common edge (R383). -/
def State.syncPaths (s : State) : State :=
  let s := (List.range 72).foldl (fun s k => s.syncPath k) s
  (List.range 4).foldl (fun s g => s.groupCheck g) s

/-- A start of one main path (R369, R382): ARMED where valid, and left to syncPath to run. -/
def State.armPath (s : State) (k : Nat) : State :=
  if (s.path k).st ≠ 0 ∨ (64 ≤ k ∧ !s.bit (cfg0Key k) 6) then s
  else if s.chainValid k then s.onPath k (fun p => { p.cleared with st := 1, cfgErr := false })
  else s.onPath k (fun p => { p with cfgErr := true })

/-- A stop of one main path (R386). -/
def State.stopPath (s : State) (k : Nat) : State :=
  if (s.path k).st = 0 then s else ((s.onPath k (fun p => { p.cleared with st := 0 })).adoptSrc k).syncPath k

/-- The chains that a DC_START or DC_STOP word names: LO, HI, FINE. -/
def dcChains (r : Fin 3) (v : Word) : List Nat :=
  if r = 2 then ((List.range 8).filter (wbit v)).map (64 + ·) else ((List.range 32).filter (wbit v)).map (32 * r.val + ·)

/-- What chains do leaves the delivery of the groups that ran before under way: the state s after it, in which some may have been started anew. -/
def State.keepDelivery (old s : State) : State :=
  ((List.range 4).filter (fun g => old.groupRuns g)).foldl (fun s g =>
    let o := old.grp g
    s.onGrp g (fun x => { x with begun := o.begun, queues := o.queues, counts := o.counts })) s

/-- DC_START: the paths of one write start together; a path whose clock stands still, or whose group settles, is ARMED (R382, R383). -/
def State.dcStart (s : State) (r : Fin 3) (v : Word) : State :=
  let ks := (dcChains r v).filter (fun k => (s.path k).st == 0)
  s.keepDelivery (ks.foldl (fun s k => s.syncPath k) (ks.foldl (fun s k => s.armPath k) s))

/-- DC_STOP. -/
def State.dcStop (s : State) (r : Fin 3) (v : Word) : State :=
  let s := (dcChains r v).foldl (fun s k => s.stopPath k) s
  (List.range 4).foldl (fun s g => s.groupCheck g) s

/-! ### Stage arithmetic (R370 to R374) -/

/-- One input of a CIC's integrators: each adds the one before it, modulo 2^40. -/
def cicIn : BitVec 40 → List (BitVec 40) → List (BitVec 40)
  | _, [] => []
  | x, i :: r => (i + x) :: cicIn (i + x) r

/-- The combs at f_pdm / R: the new delays and the output. -/
def cicComb : BitVec 40 → List (BitVec 40) → List (BitVec 40) × BitVec 40
  | v, [] => ([], v)
  | v, z :: r => let y := cicComb (v - z) r; (v :: y.1, y.2)

/-- A CIC's state, filled with zeros to its order. -/
def cicFill (n : Nat) (l : List (BitVec 40)) : List (BitVec 40) := (l ++ List.replicate n 0).take n

/-- Run a CIC of an order and ratio over bits: integrators, combs, and one output per ratio bits. -/
def cicRun (n r : Nat) : Nat → List Bool → List (BitVec 40) → List (BitVec 40) → List (BitVec 40) × List (BitVec 40) × List Int
  | 0, _, i, c => (cicFill n i, cicFill n c, [])
  | m + 1, bits, i, c =>
    let i' := (bits.take r).foldl (fun i b => cicIn (if b then 1 else -1) i) (cicFill n i)
    let y := cicComb (i'.getLastD 0) (cicFill n c)
    let z := cicRun n r m (bits.drop r) i' y.1
    (z.1, z.2.1, y.2.toInt :: z.2.2)

/-- The end of a stage (R371): shifted, rounded and clamped to a width; the answer is whether the clamp changed it. -/
def stageEnd (width sh : Nat) (v : Int) : Int × Nat :=
  let a := rneShift v sh
  let y := clampI (-(2 ^ (width - 1))) (2 ^ (width - 1) - 1) a
  (y, if y = a then 0 else 1)

/-- The ends of a stage for a run of samples, with the clamps. -/
def stageEnds (sh : Nat) (vs : List Int) : List Int × Nat := (vs.map (fun v => (stageEnd 24 sh v).1), (vs.map (fun v => (stageEnd 24 sh v).2)).sum)

/-- A filter's sum: coefficient k times the k-th newest sample, for k below t. -/
def firSum (t : Nat) (coef : Nat → Int) (hist : List Int) : Int := ((List.range t).map (fun k => coef k * hist.getD k 0)).sum

/-- Put samples into a history, the newest first, and keep n. -/
def pushHist (n : Nat) (h : List Int) (xs : List Int) : List Int := (xs.reverse ++ h).take n

/-- Run a filter that decimates by d and takes the sum after pre of every d inputs (the rest follow it): the history and the sums. -/
def firRun (keep d pre t : Nat) (coef : Nat → Int) : Nat → List Int → List Int → List Int × List Int
  | 0, _, h => (h, [])
  | m + 1, xs, h =>
    let h1 := pushHist keep h (xs.take pre)
    let y := firSum t coef h1
    let h2 := pushHist keep h1 ((xs.take d).drop pre)
    let z := firRun keep d pre t coef m (xs.drop d) h2
    (z.1, y :: z.2)

/-- A coefficient word: a signed 20-bit integer (R375). -/
def coefOf (w : Word) : Int := sext 20 w.toNat

/-- h[k] of a half-band filter with bank b (R373). -/
def State.hbCoef (s : State) (b k : Nat) : Int :=
  if k = 15 then 2 ^ 17
  else
    let d := if k < 15 then 15 - k else k - 15
    if d % 2 = 1 then coefOf (s.rd (Reg.HB_COEF b ((d - 1) / 2))) else 0

/-- What one output interval of a main path gives: the path, the sample and the clamps. -/
def State.coarseSample (s : State) (k : Nat) (p : DcPath) (bits : List Bool) : DcPath × Int × Nat :=
  let w := s.rd (Reg.CH_CFG0 k)
  let c := cicRun (wfld w 10 8) (wfld w 19 12) 2 bits p.integ p.comb
  let x := stageEnds (wfld p.shifts 4 0) c.2.2
  let f := firRun 32 2 2 (wfld w 28 24 + 1) (fun j => coefOf (s.rd (Reg.COMP_COEF (wfld w 22 20) j))) 1 x.1 (p.hist.getD 0 [])
  let y := stageEnds (wfld p.shifts 9 5) f.2
  ({ p with integ := c.1, comb := c.2.1, hist := [f.1] }, y.1.headD 0, x.2 + y.2)

/-- The half-band stages of a fine chain, from stage i. -/
def State.halfBands (s : State) (f : Nat) (p : DcPath) : Nat → Nat → List Int → List (List Int) × List Int × Nat
  | 0, _, xs => ([], xs, 0)
  | n + 1, i, xs =>
    let b := wfld (s.rd (Reg.FINE_CFG2 f)) (2 * i + 1) (2 * i)
    let r := firRun 31 2 1 31 (fun k => s.hbCoef b k) (xs.length / 2) xs (p.hist.getD i [])
    let y := stageEnds (wfld p.shifts (5 * i + 9) (5 * i + 5)) r.2
    let z := s.halfBands f p n (i + 1) y.1
    (r.1 :: z.1, z.2.1, y.2 + z.2.2)

/-- The same of a fine chain: its histories are those of the half-bands, then the FIR's. -/
def State.fineSample (s : State) (k : Nat) (p : DcPath) (bits : List Bool) : DcPath × Int × Nat :=
  let w := s.rd (Reg.FINE_CFG0 (k - 64))
  let hb := wfld w 15 14
  let d := wfld w 18 16 + 1
  let c := cicRun 4 8 (2 ^ hb * d) bits p.integ p.comb
  let x := stageEnds (wfld p.shifts 4 0) c.2.2
  let h := s.halfBands (k - 64) p hb 0 x.1
  let f := firRun 64 d d (wfld w 24 19 + 1) (fun j => coefOf (s.rd (Reg.FIR_COEF (wfld w 25 25) j))) 1 h.2.1 (p.hist.getD hb [])
  let y := stageEnds (wfld p.shifts 24 20) f.2
  ({ p with integ := c.1, comb := c.2.1, hist := h.1 ++ [f.1] }, y.1.headD 0, x.2 + h.2.2 + y.2)

/-- SH_FAST of a chain's shift word. -/
def fastShift (k : Nat) (w : Word) : Nat := if k < 64 then wfld w 14 10 else wfld w 29 25

/-- One output interval of a fast path (R379): its first sample reads 0. -/
def fastSample (k r : Nat) (p : DcPath) (bits : List Bool) : DcPath × Int × Nat :=
  let c := cicRun 2 r 1 bits p.fInteg p.fComb
  let y := stageEnd 16 (fastShift k p.shifts) (c.2.2.headD 0)
  ({ p with fInteg := c.1, fComb := c.2.1, fCount := min 2 (p.fCount + 1) }, if p.fCount = 0 then 0 else y.1, y.2)

/-! ### Presets and configuration (R366, R375 to R377, R390) -/

/-- bitlen of R377. -/
def bitlen (n : Nat) : Nat := if n = 0 then 0 else n.log2 + 1

/-- A preset's structure: order, compensator taps minus 1, bank, and group delay at 16 kHz in µs (Table 10.4). -/
def presetOf (code : Nat) : Nat × Nat × Nat × Nat := if code = 0 then (3, 7, 0, 250) else if code = 1 then (4, 31, 1, 900) else (5, 31, 2, 1600)

/-- WARMUP of a preset at an output rate in Hz. -/
def presetWarmup (g f : Nat) : Nat := (g * 16000 + f - 1) / f

/-- SH_FAST of a preset. -/
def presetFast (rf : Nat) : Nat := bitlen (rf * rf) - 15

/-- Bits of CH_CFG0, CH_CFG1, FINE_CFG0, FINE_CFG1 and FINE_CFG2 that are not reserved. -/
abbrev chCfg0Mask : Word := 0x1F7FF73F#32
abbrev chCfg1Mask : Word := 0x0FFFFFFF#32
abbrev fineCfg0Mask : Word := 0x03FFFF7F#32
abbrev fineCfg1Mask : Word := 0x7FFFFFFF#32
abbrev fineCfg2Mask : Word := 0x0FFF003F#32

/-- CH_CFG0 of channel c written with v: the completion code is ERR_BUSY while its chain is ARMED or RUNNING and for a preset that is
not valid at the current clock; a code that is not accepted is ignored. -/
def State.chCfg0 (s : State) (c : Nat) (v : Word) : State × Nat :=
  let pr := wfld v 2 0
  if (s.path c).st ≠ 0 then (s, 0x0B)
  else if 3 ≤ pr ∧ pr ≤ 6 then (s, 0)
  else if pr = 7 then ((s.wr (Reg.CH_CFG0 c) (v &&& chCfg0Mask)), 0)
  else
    let f := outRate (wfld v 5 3)
    let x := presetOf pr
    let r := if f = 0 then 0 else s.pdmOf c / (2 * f)
    let w := wd (pr + 2 ^ 3 * wfld v 5 3 + 2 ^ 8 * x.1 + 2 ^ 12 * (r % 256) + 2 ^ 20 * x.2.2.1 + 2 ^ 24 * x.2.1)
    if r < 256 ∧ coarseValid w (s.pdmOf c) then
      let b := bitlen (r ^ x.1)
      let s := s.wr (Reg.CH_CFG0 c) w
      (s.upd (Reg.CH_CFG1 c) (fun o =>
        wSetFld (wSetFld (wSetFld (wSetFld o 4 0 (b - 23)) 9 5 (if 23 ≤ b then 18 else b - 5)) 14 10 (presetFast (2 * r))) 27 16 (presetWarmup x.2.2.2 f)), 0)
    else (s, 0x0B)

/-- After a change of a chain's configuration its fast path restarts when RATE has changed, and follows FAST_EN. -/
def State.fastFollow (s : State) (k oldRate : Nat) : State :=
  let s := if s.rateOf k ≠ oldRate ∧ (s.path k).fastOn then s.onPath k (·.fastStop) else s
  s.syncPath k

/-- What FINE_CFG0 of a fine chain would hold after a write of v: none when the preset is not valid, with the shifts and CFG2 of FINE. -/
def State.fineFill (s : State) (v : Word) : Option (Word × Bool) :=
  if wfld v 10 8 = 7 then some (v &&& fineCfg0Mask, false)
  else
    let f := outRate (wfld v 13 11)
    let d := if f = 0 then 0 else s.pdmOf (wfld v 5 0) / (64 * f)
    let w := wd (wfld v 6 0 + 2 ^ 8 * 3 + 2 ^ 11 * wfld v 13 11 + 2 ^ 14 * 3 + 2 ^ 16 * ((d - 1) % 8) + 2 ^ 19 * 63)
    if 1 ≤ d ∧ d ≤ 8 ∧ fineValid w (s.pdmOf (wfld v 5 0)) then some (w, true) else none

/-- A preset's WARMUP as the 12-bit field takes it; the spec states no value where it does not fit, and a free value stands there. -/
def State.warmupField (s : State) (w : Nat) : State × Nat :=
  if w < 4096 then (s, w) else let d := s.draw; (d.1, d.2 % 4096)

/-- FINE_CFG0 of fine chain f written with v (R366, R376, R387): while the chain is ARMED or RUNNING a write is taken only if the word it leaves
differs from the old one in SRC alone. -/
def State.fineCfg0 (s : State) (f : Nat) (v : Word) : State × Nat :=
  let k := 64 + f
  let o := s.rd (Reg.FINE_CFG0 f)
  let st := (s.path k).st
  if wfld v 10 8 ≠ 3 ∧ wfld v 10 8 ≠ 7 then (s, if st = 0 then 0 else 0x0B)
  else
    match s.fineFill v with
    | none => (s, 0x0B)
    | some (w, preset) =>
      let src := wfld w 5 0
      if wbit w 6 && (List.range 8).any (fun j => j != f && s.bit (Reg.FINE_CFG0 j) 6 && s.fld (Reg.FINE_CFG0 j) 5 0 == src) then (s, 0x0B)
      else if st ≠ 0 ∧ ¬ (wSetFld w 5 0 0 = wSetFld o 5 0 0 ∧ src ≠ wfld o 5 0) then (s, 0x0B)
      else if st = 2 then (s.wr (Reg.FINE_CFG0 f) w, 0)
      else
        let rate := s.rateOf k
        let s := s.wr (Reg.FINE_CFG0 f) w
        let moved := (s.path k).src != src
        let s := s.onPath k (fun p => if moved then { p.fastStop with src := src } else p)
        let x : State := if preset && st == 0 then
            let y := s.warmupField (presetWarmup 2400 (outRate (wfld w 13 11)))
            let s := y.1.upd (Reg.FINE_CFG1 f) (fun a =>
              wSetFld (wSetFld a 24 0 (15 * 2 ^ 5 + 15 * 2 ^ 10 + 15 * 2 ^ 15 + 17 * 2 ^ 20)) 29 25 (presetFast (64 * (wfld w 18 16 + 1))))
            s.wr (Reg.FINE_CFG2 f) (wd (0 + 1 * 2 ^ 2 + 2 * 2 ^ 4 + 2 ^ 16 * y.2))
          else s
        (x.fastFollow k rate, 0)

/-- The main shifts of a CFG1 word. -/
def mainShifts (k : Nat) (w : Word) : Nat := if k < 64 then wfld w 9 0 else wfld w 24 0

/-- The next output-sample boundary of a chain (R387, R390, R391): a switch of SRC restarts a RUNNING chain on the new channel, whose group goes on
with its delivery and its count of frames where it runs (R350), and changed shifts come into effect; the answer is whether this is a step sample. -/
def State.boundary (s : State) (k : Nat) : State × Bool :=
  let p := s.path k
  if 64 ≤ k ∧ p.st = 2 ∧ s.fld (Reg.FINE_CFG0 (k - 64)) 5 0 ≠ p.src then
    let t := s.setPath k { p.cleared.fastStop with st := 0, src := s.fld (Reg.FINE_CFG0 (k - 64)) 5 0 }
    ((List.range 4).foldl (fun s g => s.groupCheck g) (s.keepDelivery ((t.armPath k).syncPath k)), false)
  else
    let w := s.rd (cfg1Key k)
    let step := p.st == 2 && mainShifts k p.shifts != mainShifts k w
    (s.setPath k { p with shifts := w }, step)

/-! ### Status words -/

/-- The STATUS word of a chain (Table 10.12). -/
def DcPath.status (p : DcPath) : Nat :=
  p.st + 4 * (p.st == 2).toNat + 8 * p.settled.toNat + 16 * (p.fastOn && decide (2 ≤ p.fCount)).toNat + 64 * p.step.toNat + 128 * p.cfgErr.toNat

/-- CH_STAT STATUS: STATE and CFG_ERR of the coarse chain, the rest of the pair. -/
def State.chStatus (s : State) (c : Nat) : Word :=
  let k := s.pairOf c
  let a := (s.path k).status
  let b := (s.path c).status
  wd (b % 4 + (a / 4 % 8) * 4 + 32 * (decide (64 ≤ k)).toNat + (a / 64 % 2) * 64 + (b / 128) * 128)

/-- Clear RANGE_STEP. -/
def DcPath.clearStep (p : DcPath) : DcPath := { p with step := false }

/-- MAXABS of a chain, read: it restarts at 0 (R392). -/
def State.maxabsRead (s : State) (k : Nat) : State × Word := (s.onPath k (fun p => { p with maxabs := 0 }), wd (s.path k).maxabs)

/-! ### Coefficients (R375) -/

/-- Whether an ARMED or RUNNING chain selects a bank: 0 compensator, 1 half-band, 2 FIR. -/
def State.bankUsed (s : State) (kind b : Nat) : Bool :=
  (List.range 72).any (fun k => (s.path k).st != 0 &&
    (if kind = 0 then decide (k < 64) && s.fld (Reg.CH_CFG0 k) 22 20 == b
     else if kind = 1 then decide (64 ≤ k) && (List.range (s.fld (Reg.FINE_CFG0 (k - 64)) 15 14)).any (fun i => s.fld (Reg.FINE_CFG2 (k - 64)) (2 * i + 1) (2 * i) == b)
     else decide (64 ≤ k) && s.fld (Reg.FINE_CFG0 (k - 64)) 25 25 == b))

/-- A coefficient word of a bank written: ERR_BUSY while a chain in ARMED or RUNNING selects the bank. -/
def State.coefWrite (s : State) (kind b key : Nat) (v : Word) : State × Nat :=
  if s.bankUsed kind b then (s, 0x0B) else (s.wr key (wd (wfld v 19 0)), 0)

/-! ### Guarded writes -/

/-- A guarded write: its completion code stands in lastStatus. -/
def State.closeWrite (x : State × Nat) : State := { x.1 with lastStatus := BitVec.ofNat 8 x.2 }

/-- CH_CFG0 written. -/
def State.chCfg0Write (s : State) (c : Nat) (v : Word) : State × Nat :=
  let rate := s.rateOf c
  let x := s.chCfg0 c v
  (x.1.fastFollow c rate, x.2)

/-- CH_CFG1 or FINE_CFG1 written: shifts wait for the boundary, FAST_EN acts at once (R379, R390). -/
def State.shiftWrite (s : State) (k : Nat) (v : Word) : State := (s.wr (cfg1Key k) (v &&& (if k < 64 then chCfg1Mask else fineCfg1Mask))).syncPath k

end Sys2Proof.Machine
end

