-- ==== Sys2Proof/Machine/Mailbox.lean ====
section
/-! DEFINITION. The mailbox's command table, and which work of the management core goes before which (R657, R658, R661). -/

namespace Sys2Proof.Machine

/-! ### Commands of the mailbox (Table 20.2) -/

/-- A row of Table 20.2: the code, the most urgent priority it runs at, and whether it is audited. -/
structure CmdRow where
  code    : Nat
  least   : Nat
  audited : Bool
deriving DecidableEq, Repr

/-- Table 20.2. -/
def cmdRows : List CmdRow :=
  [⟨0x01, 0, false⟩, ⟨0x02, 0, false⟩, ⟨0x03, 1, false⟩, ⟨0x04, 2, false⟩, ⟨0x10, 1, true⟩, ⟨0x11, 1, false⟩, ⟨0x12, 1, true⟩, ⟨0x13, 0, true⟩,
   ⟨0x20, 0, true⟩, ⟨0x21, 0, false⟩, ⟨0x22, 1, true⟩, ⟨0x23, 1, true⟩, ⟨0x24, 1, true⟩, ⟨0x30, 1, true⟩, ⟨0x31, 2, false⟩]

/-- The row of a code. -/
def cmdRow (code : Nat) : Option CmdRow := cmdRows.find? (fun r => r.code == code)

/-- Fields of a command word (Table 14.21). -/
def MailCmd.code (c : MailCmd) : Nat := wfld c.word 7 0
def MailCmd.tag (c : MailCmd) : Nat := wfld c.word 15 10
def MailCmd.arg (c : MailCmd) : Nat := wfld c.word 31 16

/-- The priority a command runs at (R661). -/
def MailCmd.prio (c : MailCmd) : Nat := match cmdRow c.code with | some r => max r.least (wfld c.word 9 8) | none => wfld c.word 9 8

/-! ### The order of the core's work (Table 20.1) -/

/-- Whether the core runs: READY, and out of reset. -/
def State.coreUp (s : State) : Bool := s.ready && s.fld Reg.MB_STATUS 1 0 != 0

/-- Whether the core takes commands: no reply is held (R661). -/
def State.coreTakes (s : State) : Bool := s.coreUp && s.mgmt.heldReplies.isEmpty

/-- Whether a command that awaits no answer runs. -/
def Mgmt.working (m : Mgmt) : Bool := match m.job with | some j => !j.waits | none => false

/-- Whether mailbox work goes before compaction and log appends (rows 2 and 4 of Table 20.1). -/
def State.mailBusy (s : State) : Bool := s.mgmt.run.isSome || s.mgmt.working || (s.coreTakes && !s.mgmt.queue.isEmpty)

/-- Whether a command at priority 0 goes before the appends (row 2). -/
def State.mailUrgent (s : State) : Bool := s.coreTakes && s.mgmt.job.isNone && s.mgmt.queue.any (fun c => c.prio == 0)

end Sys2Proof.Machine
end

