-- ==== Sys2Proof/Machine/Flash.lean ====
section
/-! DEFINITION. The flash die and the records on it: bytes and spares, circular regions, records, the power-up scan, compaction,
tallies, and the acts of the die that each of these takes (R455 to R488). -/

namespace Sys2Proof.Machine

/-! ### CRC-32 (Table 0.1) -/

/-- Eight shifts of the reflected polynomial 0x04C1_1DB7. -/
def crcShift : Nat → BitVec 32 → BitVec 32
  | 0, c => c
  | n + 1, c => crcShift n (if c.getLsbD 0 then (c >>> 1) ^^^ 0xEDB88320#32 else c >>> 1)

/-- CRC-32: reflected, initial value and final XOR 0xFFFF_FFFF. -/
def crc32 (bs : List Byte) : Word := ~~~ (bs.foldl (fun c b => crcShift 8 (c ^^^ b.setWidth 32)) 0xFFFFFFFF#32)

/-! ### The array -/

/-- An erased byte. -/
def nvBlank : Nat → Byte := fun _ => 0xFF

/-- The physical place of a logical die offset: the spare that replaces its sector, if one does (R487). -/
def Nv.phys (v : Nv) (o : Nat) : Nat :=
  match v.info.find? (fun e => e.2.replaces == some (o / 4096) && !e.2.retired) with
  | some e => e.1 * 4096 + o % 4096
  | none => o

/-- The byte at a logical offset. -/
def Nv.byte (v : Nv) (o : Nat) : Byte := spGet nvBlank v.die (v.phys o)

/-- n bytes from a logical offset. -/
def Nv.bytes (v : Nv) (o n : Nat) : List Byte := (List.range n).map (fun i => v.byte (o + i))

/-- Program one byte: bits only fall (R464). -/
def Nv.programByte (v : Nv) (o : Nat) (b : Byte) : Nv :=
  let k := v.phys o
  { v with die := spSet nvBlank v.die k (spGet nvBlank v.die k &&& b), weak := v.weak.filter (· != k / 16) }

/-- Program bytes from an offset, in rising order. -/
def Nv.program (v : Nv) (o : Nat) (bs : List Byte) : Nv :=
  ((List.range bs.length).zip bs).foldl (fun v ib => v.programByte (o + ib.1) ib.2) v

/-- The information row of a sector. -/
def Nv.row (v : Nv) (sec : Nat) : NvInfo := spGet (fun _ => NvInfo.reset) v.info sec

/-- Change an information row. -/
def Nv.onRow (v : Nv) (sec : Nat) (f : NvInfo → NvInfo) : Nv := { v with info := spSet (fun _ => NvInfo.reset) v.info sec (f (v.row sec)) }

/-- Whether every byte of a logical sector is erased. -/
def Nv.sectorBlank (v : Nv) (sec : Nat) : Bool :=
  let lo := v.phys (4096 * sec)
  v.die.all (fun e => decide (e.1 < lo) || decide (lo + 4096 ≤ e.1))

/-- Erase a logical sector, uncounted. -/
def Nv.eraseRaw (v : Nv) (sec : Nat) : Nv :=
  let lo := v.phys (4096 * sec)
  { v with die := v.die.filter (fun e => decide (e.1 < lo) || decide (lo + 4096 ≤ e.1)),
           weak := v.weak.filter (fun g => decide (16 * g < lo) || decide (lo + 4096 ≤ 16 * g)) }

/-! ### Tallies (R481 to R485) -/

/-- The header of a tally's sector: SEQ and BASE, when it is valid. -/
def Nv.tallyHdr (v : Nv) (sec : Nat) : Option (Nat × Nat) :=
  let h := v.bytes (4096 * sec) 20
  if natAt h 0 1 = 0xA5 ∧ natAt h 1 1 = (sec - 2304) / 2 ∧ (crc32 (h.take 16)).toNat = natAt h 16 4 then some (natAt h 4 4, natAt h 8 8) else none

/-- The active sector of tally n, with its SEQ and BASE. -/
def Nv.tallyActive (v : Nv) (n : Nat) : Option (Nat × Nat × Nat) :=
  match v.tallyHdr (2304 + 2 * n), v.tallyHdr (2305 + 2 * n) with
  | some a, some b => if a.1 < b.1 then some (2305 + 2 * n, b) else some (2304 + 2 * n, a)
  | some a, none => some (2304 + 2 * n, a)
  | none, some b => some (2305 + 2 * n, b)
  | none, none => none

/-- The number of the first bit that reads 1 from byte o of a bit area with k bytes left. -/
def Nv.firstOne (v : Nv) : Nat → Nat → Nat
  | 0, _ => 0
  | k + 1, o =>
    match lowestBelow 8 (fun b => (v.byte o).getLsbD b) with
    | some b => b
    | none => 8 + v.firstOne k (o + 1)

/-- p of R482: the first bit that reads 1 in a tally sector. -/
def Nv.tallyP (v : Nv) (sec : Nat) : Nat := v.firstOne 4064 (4096 * sec + 32)

/-- The value of tally n. -/
def Nv.tally (v : Nv) (n : Nat) : Nat :=
  match v.tallyActive n with
  | some a => a.2.2 + v.tallyP a.1
  | none => 0

/-- Program bit p of a tally sector. -/
def Nv.tallyBit (v : Nv) (sec p : Nat) : Nv :=
  v.programByte (4096 * sec + 32 + p / 8) (~~~ (BitVec.ofNat 8 (2 ^ (p % 8))))

/-- Start a tally's other sector with a header and program its bit 0 (R484); the answer is whether a sector was erased. -/
def Nv.tallyRoll (v : Nv) (n sec seq base : Nat) : Nv × Bool :=
  let er := !v.sectorBlank sec
  let v := if er then v.eraseRaw sec else v
  let h := toBytes 1 0xA5 ++ toBytes 1 n ++ toBytes 2 0 ++ toBytes 4 seq ++ toBytes 8 base
  let v := v.program (4096 * sec) (h ++ toBytes 4 (crc32 h).toNat ++ toBytes 12 0)
  (v.tallyBit sec 0, er)

/-- Add 1 to tally n, with no count of the erase that a rollover makes. -/
def Nv.tallyStep (v : Nv) (n : Nat) : Nv × Bool :=
  match v.tallyActive n with
  | none => v.tallyRoll n (2304 + 2 * n) 1 0
  | some a =>
    let p := v.tallyP a.1
    if p < 32512 then (v.tallyBit a.1 p, false)
    else v.tallyRoll n (if a.1 = 2304 + 2 * n then a.1 + 1 else a.1 - 1) (a.2.1 + 1) (a.2.2 + 32512)

/-- Whether tally n is read-only (R488). -/
def Nv.tallyRo (v : Nv) (n : Nat) : Bool := (v.row (2304 + 2 * n)).readOnly || (v.row (2305 + 2 * n)).readOnly

/-- An increment of a tally that goes to a read-only one is lost (R488). -/
def Nv.tallyTry (v : Nv) (n : Nat) : Nv × Bool := if v.tallyRo n then ({ v with lost := v.lost + 1 }, false) else v.tallyStep n

/-- Add 1 to tally n; a sector it erases adds 1 to tally 63. The increments the layer makes for itself pass their verifies at once (DESIGN CHOICE,
log entry 77). -/
def Nv.tallyInc (v : Nv) (n : Nat) : Nv :=
  let x := v.tallyTry n
  if x.2 then
    let y := x.1.tallyTry 63
    if y.2 then (y.1.tallyTry 63).1 else y.1
  else x.1

/-- Add k to tally n. -/
def Nv.tallyAdd (v : Nv) (n k : Nat) : Nv := overBelow k (fun _ v => v.tallyInc n) v

/-- Erase a logical sector; tally 63 counts it. -/
def Nv.erase (v : Nv) (sec : Nat) : Nv := (v.eraseRaw sec).tallyInc 63

/-! ### Circular regions (R466, R467) -/

/-- First sector and number of sectors (Table 13.2). -/
def Region.base : Region → Nat
  | .enroll => 256
  | .log => 1792
  | .journal => 2048
def Region.size : Region → Nat
  | .enroll => 1536
  | .log => 256
  | .journal => 256

/-- The REGION code of a sector header (Table 13.10). -/
def Region.code : Region → Nat
  | .enroll => 1
  | .log => 2
  | .journal => 3

/-- Where the layer stands in a region. -/
def Nv.circ (v : Nv) : Region → Circ
  | .enroll => v.enroll
  | .log => v.log
  | .journal => v.journal

/-- Move where the layer stands. -/
def Nv.setCirc (v : Nv) (r : Region) (c : Circ) : Nv :=
  match r with
  | .enroll => { v with enroll := c }
  | .log => { v with log := c }
  | .journal => { v with journal := c }

/-- Whether a region is read-only. -/
def Nv.ro (v : Nv) (r : Region) : Bool := v.sectorsRo r.base r.size

/-- A valid sector header: FIRST and SSEQ. -/
def Nv.hdr (v : Nv) (r : Region) (sec : Nat) : Option (Nat × Nat) :=
  if v.byte (4096 * sec) = 0xA5 then
    let h := v.bytes (4096 * sec) 16
    if natAt h 1 1 = r.code ∧ (crc32 (h.take 12)).toNat = natAt h 12 4 then some (natAt h 2 2, natAt h 4 4) else none
  else none

/-- The sectors of a region in use: number, FIRST and SSEQ. -/
def Nv.inUse (v : Nv) (r : Region) : List (Nat × Nat × Nat) :=
  (List.range r.size).filterMap (fun i => (v.hdr r (r.base + i)).map (fun h => (r.base + i, h)))

/-- The tail: the lowest SSEQ. -/
def Nv.tail (v : Nv) (r : Region) : Option (Nat × Nat × Nat) :=
  (v.inUse r).foldl (fun a x => match a with | none => some x | some y => if x.2.2 < y.2.2 then some x else some y) none

/-- The head: the highest SSEQ. -/
def Nv.head (v : Nv) (r : Region) : Option (Nat × Nat × Nat) :=
  (v.inUse r).foldl (fun a x => match a with | none => some x | some y => if y.2.2 < x.2.2 then some x else some y) none

/-- Used sectors, from tail to head inclusive. -/
def Nv.used (v : Nv) (r : Region) : Nat :=
  match v.tail r, v.head r with
  | some t, some h => (h.1 + r.size - t.1) % r.size + 1
  | _, _ => 0

/-- A record granule's number along a region: 255 to a sector, its header passed over. -/
def Region.lin (r : Region) (o : Nat) : Nat := (o / 4096 - r.base) % r.size * 255 + (o % 4096 / 16 - 1)

/-- The die offset of a granule number. -/
def Region.unlin (r : Region) (l : Nat) : Nat := (r.base + l % (r.size * 255) / 255) * 4096 + 16 * (l % (r.size * 255) % 255 + 1)

/-- The offset k granules on from an offset. -/
def Region.adv (r : Region) (o k : Nat) : Nat := r.unlin (r.lin o + k)

/-- The first page boundary at or after the end of the granule at an offset. -/
def pageAfter (o : Nat) : Nat := (o + 16 + 255) / 256 * 256

/-! ### Records (R468 to R471) -/

/-- A record that a scan has found: its offset and its fields. -/
structure Rec where
  off     : Nat
  type    : Nat
  key     : Word
  seq     : Word
  tx      : Nat
  payload : List Byte
deriving DecidableEq, Repr

/-- Whether a TYPE is listed for a region (Table 13.12). -/
def Region.hasType : Region → Nat → Bool
  | .journal, t => t == 1 || t == 2 || t == 3 || t == 0x10 || t == 0x11
  | .enroll, t => t == 3 || t == 0x20 || t == 0x21
  | .log, t => t == 0x30

/-- The granules of a record: header, payload, CRC and commit (Table 13.11). -/
def recBytes (type : Nat) (key seq : Word) (tx : Nat) (payload : List Byte) : List Byte :=
  let h := toBytes 1 0x5D ++ toBytes 1 type ++ toBytes 2 payload.length ++ toBytes 4 key.toNat ++ toBytes 4 seq.toNat ++ toBytes 2 tx
  let h := h ++ toBytes 2 ((crc32 h).toNat % 65536)
  let p := takeBytes ((payload.length + 15) / 16 * 16) payload
  h ++ p ++ toBytes 4 (crc32 (h ++ p)).toNat ++ toBytes 12 0 ++ (0x3C :: List.replicate 15 0xFF)

/-- k granules of a region from an offset, in stream order. -/
def Nv.granules (v : Nv) (r : Region) (o k : Nat) : List Byte := (List.range k).flatMap (fun i => v.bytes (r.adv o i) 16)

/-- What the scan finds at an offset (R479): nothing, garbage, or a sound header that declares k granules, with the record when it is
valid. -/
inductive Found where
  | blank
  | garbage
  | header (k : Nat) (found : Option Rec)
deriving DecidableEq, Repr

/-- Read a header granule and the record behind it. -/
def Nv.look (v : Nv) (r : Region) (o : Nat) : Found :=
  let h := v.bytes o 16
  if h.all (· == 0xFF) then .blank
  else
    let len := natAt h 2 2
    if natAt h 0 1 = 0x5D ∧ r.hasType (natAt h 1 1) ∧ len ≤ 1024 ∧ natAt h 14 2 = (crc32 (h.take 14)).toNat % 65536 then
      let k := (len + 15) / 16 + 3
      let bs := v.granules r o k
      let body := bs.take (16 * (k - 2))
      let good := (crc32 body).toNat == natAt bs (16 * (k - 2)) 4 && natAt bs (16 * (k - 1)) 1 == 0x3C
      let x : Rec :=
        { off := o, type := natAt h 1 1, key := wordAt h 4, seq := wordAt h 8, tx := natAt h 12 2, payload := (bs.drop 16).take len }
      .header k (if good then some x else none)
    else .garbage

/-- What a scan leaves: valid records in order, invalid ones skipped, and the last granule of the last record found. -/
structure Scan where
  recs : List Rec
  torn : Nat
  last : Option Nat
deriving DecidableEq, Repr

/-- Whether the second of two sectors was opened before the first: a scan that comes to it has closed on the tail. -/
def Nv.older (v : Nv) (r : Region) (a b : Nat) : Bool :=
  a != b && (match v.hdr r a, v.hdr r b with | some x, some y => decide (y.2 ≤ x.2) | _, _ => false)

/-- Scan on from an offset with at most `left` granules of the region before it closes on itself. It ends at a header granule that is blank; but
where that one does not begin a page, an append that was resumed after it begins at the next page boundary (R479), and the records there are
found as R471 has them (DEDUCED, log entry 77). -/
def Nv.scanFrom (v : Nv) (r : Region) : Nat → Nat → Nat → Scan → Scan
  | 0, _, _, a => a
  | fuel + 1, left, o, a =>
    if left = 0 ∨ (v.hdr r (o / 4096)).isNone then a
    else
      let go (next : Nat) (a : Scan) : Scan :=
        let n := (r.lin next + r.size * 255 - r.lin o) % (r.size * 255)
        if n = 0 ∨ v.older r (o / 4096) (r.adv next 0 / 4096) then a else v.scanFrom r fuel (left - n) (r.adv next 0) a
      match v.look r o with
      | .blank => if o % 256 = 0 ∨ o % 4096 = 16 then a else go ((o / 256 + 1) * 256) a
      | .garbage => go ((o / 256 + 1) * 256) { a with torn := a.torn + 1 }
      | .header k found =>
        let end_ := r.adv o (k - 1)
        match found with
        | some x => go (r.adv o k) { a with recs := a.recs ++ [x], last := some end_ }
        | none => go (pageAfter end_) { a with torn := a.torn + 1, last := some end_ }

/-- The scan of a region from the FIRST of its tail sector (R479). -/
def Nv.scan (v : Nv) (r : Region) : Scan :=
  match v.tail r with
  | none => { recs := [], torn := 0, last := none }
  | some t =>
    let o := if t.2.1 = 0xFFFF then 4096 * (t.1 + 1) else 4096 * t.1 + t.2.1
    v.scanFrom r (r.size * 255) (r.size * 255) (r.adv o 0) { recs := [], torn := 0, last := none }

/-- a later than b, as a signed 32-bit difference. -/
def seqLater (a b : Word) : Bool := a != b && !(a - b).msb

/-- The valid records of a region that count: members of discarded transactions are dead (R479). -/
def Nv.records (v : Nv) (r : Region) : List Rec := (v.scan r).recs.filter (fun x => !v.dead.contains (r, x.seq) || x.type == 3 || x.tx == 0)

/-- Whether a record's transaction is committed: none, or a TXEND names it (R471). -/
def committed (rs : List Rec) (x : Rec) : Bool :=
  x.tx == 0 || rs.any (fun t => t.type == 3 && natAt t.payload 0 2 == x.tx)

/-- The last committed record of a key (R471). -/
def lastOf (rs : List Rec) (key : Word) : Option Rec :=
  (rs.filter (fun x => x.type != 3 && x.key == key && committed rs x)).foldl
    (fun a x => match a with | none => some x | some y => if seqLater y.seq x.seq then some y else some x) none

/-- The value of a JOURNAL key: the payload of its last committed record, unless that is a DELETE. -/
def Nv.value (v : Nv) (key : Word) : Option (List Byte) :=
  match lastOf (v.records .journal) key with
  | some x => if x.type = 2 then none else some x.payload
  | none => none

/-! ### Appends (R467, R469, R476, R477) -/

/-- The granule writes that put bytes at the append position, with the header of each sector they open. -/
def Nv.plan (v : Nv) (r : Region) (bs : List Byte) : List (Nat × List Byte) :=
  let c := v.circ r
  let k := bs.length / 16
  let head := (v.head r).map (·.1)
  let final := r.adv c.pos k
  ((List.range k).foldl (fun (a : List (Nat × List Byte) × Option Nat × Nat) i =>
    let o := r.adv c.pos i
    let g := (o, (bs.drop (16 * i)).take 16)
    if a.2.1 = some (o / 4096) then (a.1 ++ [g], a.2.1, a.2.2)
    else
      let first := if i = 0 then o % 4096 else if final / 4096 = o / 4096 then final % 4096 else 0xFFFF
      let h := toBytes 1 0xA5 ++ toBytes 1 r.code ++ toBytes 2 first ++ toBytes 4 a.2.2 ++ toBytes 4 0
      (a.1 ++ [(o / 4096 * 4096, h ++ toBytes 4 (crc32 h).toNat), g], some (o / 4096), a.2.2 + 1)) ([], head, c.sseq)).1

/-- The sectors a plan opens. -/
def planOpens (p : List (Nat × List Byte)) : List Nat := (p.filter (fun w => w.1 % 4096 == 0)).map (fun w => w.1 / 4096)

/-- Whether a plan would enter a sector in use: the tail. -/
def Nv.entersTail (v : Nv) (r : Region) (p : List (Nat × List Byte)) : Bool := (planOpens p).any (fun sec => (v.hdr r sec).isSome)

/-- Blank-check the sectors a plan opens, erasing those that are not blank. -/
def Nv.openSectors (v : Nv) (p : List (Nat × List Byte)) : Nv :=
  (planOpens p).foldl (fun v sec => if v.sectorBlank sec then v else v.erase sec) v

/-- Carry out a plan and step the region's position. -/
def Nv.write (v : Nv) (r : Region) (p : List (Nat × List Byte)) (granules : Nat) : Nv :=
  let v := v.openSectors p
  let v := p.foldl (fun v w => v.program w.1 w.2) v
  let c := v.circ r
  v.setCirc r { c with pos := r.adv c.pos granules, sseq := c.sseq + (planOpens p).length }

/-- What an append comes to. -/
inductive Appended where
  | ok | full | waits | noSpare
deriving DecidableEq, Repr

/-- Place a record's bytes. LOG gives up its tail; the other regions wait for compaction, or are full when it would find nothing. -/
def Nv.place (v : Nv) (r : Region) (bs : List Byte) (canFree : Bool) : Nv × Appended :=
  if v.ro r then (v, .noSpare)
  else
    let p := v.plan r bs
    if v.entersTail r p then
      match r with
      | .log =>
        let v := (planOpens p).foldl (fun v sec => if (v.hdr r sec).isSome then v.erase sec else v) v
        (v.write r p (bs.length / 16), .ok)
      | _ => (v, if canFree then .waits else .full)
    else (v.write r p (bs.length / 16), .ok)

/-! ### Compaction (R474 to R476) -/

/-- The transactions of a region that are open: the host's. -/
def Nv.openTx (v : Nv) (x : Rec) : Bool := match v.hostTx with | some t => x.tx == t.id | none => false

/-- Whether a valid record is live: one of a transaction that is neither committed nor open is dead. -/
def Nv.live (v : Nv) (rs : List Rec) (x : Rec) : Bool :=
  let audits := rs.filter (fun y => y.type == 0x10 && committed rs y)
  (x.type != 3 && (lastOf rs x.key == some x || (lastOf rs x.key).map (fun y => (y.seq, y.key)) == some (x.seq, x.key))) ||
  (x.type == 2 && committed rs x && rs.any (fun y => y.key == x.key && seqLater x.seq y.seq)) ||
  (x.tx != 0 && v.openTx x) ||
  (x.type == 0x10 && committed rs x && decide ((audits.filter (fun y => seqLater y.seq x.seq)).length < 4096)) ||
  (x.type == 3 && rs.any (fun y => y.type != 3 && y.tx == natAt x.payload 0 2))

/-- Whether compaction of a region is due: more than 75 % of its sectors are used. -/
def Nv.compactDue (v : Nv) (r : Region) : Bool := r != .log && !v.ro r && decide (4 * v.used r > 3 * r.size)

/-- The live records whose header begins in the tail sector, and whether one there is dead. -/
def Nv.tailRecs (v : Nv) (r : Region) : List Rec × Bool :=
  match v.tail r with
  | none => ([], false)
  | some t =>
    let rs := v.records r
    let here := (v.scan r).recs.filter (fun x => x.off / 4096 == t.1)
    let live := here.filter (fun x => rs.contains x && v.live rs x)
    (live, live.length != here.length || here == [])

/-- The bytes of a live record's copy: a member of a committed transaction has TX 0, one of an open transaction keeps its own. -/
def Nv.copyBytes (v : Nv) (y : Rec) : List Byte := recBytes y.type y.key y.seq (if v.openTx y then y.tx else 0) y.payload

/-- Copy the tail sector's live records to the head, then erase it (R475); tallies 59 and 63 count. -/
def Nv.compact (v : Nv) (r : Region) : Nv :=
  match v.tail r with
  | none => v
  | some t =>
    if (v.head r).map (·.1) = some t.1 then v else
    let copies := (v.tailRecs r).1
    let x := copies.foldl (fun (a : Nv × Bool) y =>
      if a.2 then
        let w := a.1.place r (a.1.copyBytes y) false
        (w.1, w.2 == .ok)
      else a) (v, true)
    if x.2 then (x.1.erase t.1).tallyInc 59 else x.1

/-- Append a record under the next SEQ of its region. -/
def Nv.append (v : Nv) (r : Region) (type : Nat) (key : Word) (tx : Nat) (payload : List Byte) : Nv × Appended :=
  let c := v.circ r
  let x := v.place r (recBytes type key c.seq tx payload) (v.tailRecs r).2
  if x.2 = .ok then
    let c := x.1.circ r
    (x.1.setCirc r { c with seq := c.seq + 1 }, .ok)
  else x

/-! ### The acts of an operation (R460, R478 to R480, R484) -/

/-- The acts of a plan: a sector that is not blank is erased before its header is programmed (R467). -/
def Nv.planSteps (v : Nv) (p : List (Nat × List Byte)) : List NvStep :=
  p.flatMap (fun w => (if w.1 % 4096 = 0 ∧ !v.sectorBlank (w.1 / 4096) then [NvStep.erase (w.1 / 4096)] else []) ++ [.program w.1 w.2])

/-- The acts that place a record's bytes: none where it cannot be placed yet. -/
def Nv.placeSteps (v : Nv) (r : Region) (bs : List Byte) : List NvStep :=
  let p := v.plan r bs
  if v.ro r || (r != .log && v.entersTail r p) then [] else v.planSteps p

/-- The acts of an increment of tally n, with its rollover (R484). -/
def Nv.tallySteps (v : Nv) (n : Nat) : List NvStep :=
  let roll (sec seq base : Nat) : List NvStep :=
    let h := toBytes 1 0xA5 ++ toBytes 1 n ++ toBytes 2 0 ++ toBytes 4 seq ++ toBytes 8 base
    (if v.sectorBlank sec then [] else [NvStep.erase sec]) ++
      [.program (4096 * sec) h, .program (4096 * sec + 16) (toBytes 4 (crc32 h).toNat ++ toBytes 12 0), .bit sec 0]
  match v.tallyActive n with
  | none => roll (2304 + 2 * n) 1 0
  | some a =>
    if v.tallyP a.1 < 32512 then [.bit a.1 (v.tallyP a.1)]
    else roll (if a.1 = 2304 + 2 * n then a.1 + 1 else a.1 - 1) (a.2.1 + 1) (a.2.2 + 32512)

/-- The acts of a compaction: the copies of live records, then the erase of the tail sector. -/
def Nv.compactSteps (v : Nv) (r : Region) : List NvStep :=
  match v.tail r with
  | none => []
  | some t =>
    if (v.head r).map (·.1) = some t.1 then []
    else
      let x := (v.tailRecs r).1.foldl (fun (a : Nv × List NvStep) y =>
        ((a.1.place r (a.1.copyBytes y) false).1, a.2 ++ a.1.placeSteps r (a.1.copyBytes y))) (v, [])
      x.2 ++ [.erase t.1]

/-- Carry out one act. -/
def Nv.doStep (v : Nv) : NvStep → Nv
  | .erase sec => v.erase sec
  | .program o bs => v.program o bs
  | .bit sec p => v.tallyBit sec p

/-- The logical sector of an act. -/
def NvStep.sector : NvStep → Nat
  | .erase sec => sec
  | .program o _ => o / 4096
  | .bit sec _ => sec

/-- The transaction id after an id: never 0 (R472). -/
def nextTx (n : Nat) : Nat := if n + 1 < 65536 then n + 1 else 1

/-- The TXEND of a transaction. -/
def txEnd (id count : Nat) : List Byte := toBytes 2 id ++ toBytes 2 count ++ toBytes 4 0

/-! ### The completion pass (R479, R480, R490) -/

/-- Whether a granule at a logical offset is programmed or weak. -/
def Nv.touched (v : Nv) (o : Nat) : Bool := !(v.bytes o 16).all (· == 0xFF) || v.weak.any (· == v.phys o / 16)

/-- The last programmed or weak granule of the head sector. -/
def Nv.lastTouched (v : Nv) (r : Region) : Option Nat :=
  match v.head r with
  | none => none
  | some h => ((List.range 255).reverse.find? (fun g => v.touched (4096 * h.1 + 16 * (g + 1)))).map (fun g => 4096 * h.1 + 16 * (g + 1))

/-- Resume a region: append position, sequence numbers, and the interrupted transactions and torn records to count. -/
def Nv.resume (v : Nv) (r : Region) : Nv × Nat × Nat :=
  match v.tail r, v.head r with
  | some t, some h =>
    let sc := v.scan r
    let n := r.size * 255
    let base := r.lin (4096 * t.1 + 16)
    let dist (o : Nat) : Nat := (r.lin o + n - base) % n
    let ends := ((sc.last.toList ++ (v.lastTouched r).toList).map dist)
    let pos :=
      match ends with
      | [] => 4096 * h.1 + 16
      | _ => r.adv (pageAfter (r.unlin (base + ends.foldl max 0))) 0
    let seq := sc.recs.foldl (fun a x => if seqLater x.seq a then x.seq else a) 0
    let rs := v.records r
    let lost := ((rs.filter (fun x => !committed rs x)).map (·.tx)).eraseDups.length
    (v.setCirc r { pos := pos, seq := seq + 1, sseq := h.2.2 + 1 }, lost, sc.torn)
  | _, _ => (v.setCirc r { (v.circ r) with pos := 4096 * r.base + 16 }, 0, 0)

/-- Members of transactions without a TXEND are dead from now on (R479); those that compaction has erased are forgotten. -/
def Nv.bury (v : Nv) (r : Region) : Nv :=
  let all := (v.scan r).recs
  let rs := v.records r
  let new := (rs.filter (fun x => !committed rs x)).map (fun x => (r, x.seq))
  { v with dead := v.dead.filter (fun d => d.1 != r || all.any (fun x => x.seq == d.2)) ++ new }

/-- The scans of the three regions, each transaction discarded counted once in tally 60 and torn records in tally 61, and the power-up counted in
tally 62; no transaction is open. -/
def Nv.completionPass (v : Nv) : Nv :=
  let v := { v with hostTx := none, started := none }
  let v := [Region.enroll, Region.log, Region.journal].foldl (fun v r =>
    let x := v.resume r
    ((x.1.bury r).tallyAdd 60 x.2.1).tallyAdd 61 x.2.2) v
  { v with loaded := true }.tallyInc 62

/-! ### Erasure of KEYS (R618) -/

/-- The marker granule. -/
def keyMarker : Nat := 0xF86000

/-- Step 2 over sectors from a first one: the granules that are programmed. -/
def Nv.zeroSteps (v : Nv) (first n : Nat) : List NvStep :=
  ((List.range (256 * n)).map (fun g => 4096 * first + 16 * g)).filterMap (fun o =>
    if (v.bytes o 16).all (· == 0xFF) then none else some (.program o (List.replicate 16 0)))

/-- The acts of a step: the marker granule is programmed to zero; every programmed granule of the slots becomes zero; the sectors are erased. -/
def Nv.keySteps (v : Nv) : Nat → List NvStep
  | 1 => [.program keyMarker (List.replicate 16 0)]
  | 2 => v.zeroSteps 3968 6
  | _ => (List.range 7).map (fun i => .erase (3968 + i))

/-- Carry out acts in order. -/
def Nv.doSteps (v : Nv) (steps : List NvStep) : Nv := steps.foldl Nv.doStep v

end Sys2Proof.Machine
end

