-- ==== Sys2Proof/Machine/Records.lean ====
section
/-! DEFINITION. Frames and records: accepting frame ends, also those that end with a block's push, submissions and hints, cuts, writing
records to result rings, and the WAKE pins (R316 to R332, R350, R404, R414). -/

namespace Sys2Proof.Machine

/-! ### Accepting frames (R317 to R319) -/

/-- STAT.NEXT_SEQ. -/
def State.nextSeq (s : State) (e : Nat) : Word := s.rd (Reg.STAT e 1)

/-- Whether a frame end at a device time is accepted: the stream accepts, and the time lies at or after fromT, once reached, and before untilT. -/
def State.accepts (s : State) (e : Nat) (t : Word) : Bool :=
  (s.strState e == stActivating || s.strState e == stActive) && !s.cu.asleep && (!(s.run e).waits || reached t (s.run e).fromT) &&
  (match (s.run e).untilT with | some u => !reached t u | none => true)

/-- An event noted for a stream's next frame end becomes due. -/
def AtBoundary.ripen (a : AtBoundary) : AtBoundary := if a = .noted then .ripe else a

/-- Context resets of stream e that wait for its frame end are to be done (R440). -/
def State.ripenDue (s : State) (e : Nat) : State :=
  { s with integ := { s.integ with due := s.integ.due.map (fun d => if d.entry = e then { d with ripe := true } else d) } }

/-- A frame end of stream e at device time t is accepted, or ignored; one of a stream that drains still brings its context resets (R440). -/
def State.acceptFrame (s : State) (e t : Nat) (gap : Bool) : State :=
  if s.accepts e (wd t) then
    let q := s.nextSeq e
    let s := s.wr (Reg.STAT e 1) (q + 1)
    let s := s.onRun e (fun r =>
      { r with frames := r.frames ++ [{ seq := q, ends := t, gap := gap, hint := 0, done := none }], expect := some (t + s.hopUs e), lastEnd := some t,
               waits := false, cover := r.cover.ripen, fallDue := r.fallDue.ripen })
    s.ripenDue e
  else if s.strState e = stDraining ∧ !gap then s.ripenDue e
  else s

/-- A push of a chip block is complete: where it was applied, the frames that end with it end now (R350, R404, R414); one that failed ends none
(DEDUCED, log entry 76). -/
def State.pushDone (s : State) (r : ReqFlit) (ok : Bool) : State :=
  match s.fab.marks.find? (fun m => m.req == r) with
  | none => s
  | some m =>
    let s : State := { s with fab := { s.fab with marks := s.fab.marks.erase m } }
    if ok then m.ends.foldl (fun s e => s.acceptFrame e s.now false) s else s

/-- SOURCE_GAP: no frame end has come within 1,000 µs of the expected one, and a frame without data is accepted there. -/
def State.sourceGap (s : State) (e : Nat) : State :=
  match (s.run e).expect with
  | some x => if x + 1000 ≤ s.now then s.acceptFrame e x true else s
  | none => s

/-- The cut of a frame of classes 0 to 2 (R323): its deadline less 10 µs. -/
def State.cutAt (s : State) (e : Nat) (f : FrameIn) : Option Nat := (s.deadline e).map (fun d => f.ends + d - 10)

/-! ### Writing records (R320, R325 to R328) -/

/-- Flags of Table 8.16 that the unit sets, and those it takes from the commit. -/
abbrev flMiss : Nat := 0x1
abbrev flReset : Nat := 0x2
abbrev flGenAbsent : Nat := 0x10
abbrev flBroken : Nat := 0x20
abbrev flWake : Nat := 0x80
abbrev flLost : Nat := 0x200
abbrev flLibrary : Nat := 0xD4C

/-- A record (Table 8.14) from its status, flags and bytes 20 to 31. -/
def State.record (s : State) (e : Nat) (f : FrameIn) (status flags : Nat) (tail : List Byte) : List Byte :=
  toBytes 2 (s.streamId e) ++ toBytes 2 (s.desc e 0x0C 0 16) ++ toBytes 4 f.seq.toNat ++ toBytes 8 f.ends ++ toBytes 1 (s.strClass e) ++
  toBytes 1 status ++ toBytes 2 flags ++ takeBytes 12 tail

/-- Bytes 20 to 31 of a MISS record. -/
def missTail : List Byte := toBytes 4 0xFFFFFFFF ++ toBytes 4 0 ++ toBytes 4 0xFFFFFFFF

/-- Put a record into the device result ring, when it has space (R326, R327). -/
def State.deviceRing (s : State) (bs : List Byte) : State × Bool :=
  let h := s.rd Reg.RES_HEAD
  if (h - s.rd Reg.RES_TAIL).toNat < 1024 then
    let i := h.toNat % 1024
    (((List.range 8).foldl (fun s j => s.wr (Reg.DEV_RING i j) (wordAt bs (4 * j))) s).wr Reg.RES_HEAD (h + 1), true)
  else (s, false)

/-- Put a record into a tile result ring as a producer does: a claim, the 32 bytes, a PUBLISH (R326, R327, R139), with ANY_EPOCH = 0 as every
operation of the contract unit (R36, R38, R39); a slot in another ring's header line refuses them (R136). The tile's clock restarts (R100). -/
def State.tileRing (s : State) (a : Addr) (urgent : Bool) (bs : List Byte) : State × Bool :=
  let l := Addr.tile a
  let s := s.wakeL l
  let t := s.ltile l
  match lowestBelow 8 (fun n => t.ringOn n && t.ringBase n == Addr.off a) with
  | some n =>
    let c := s.headerCheck l n
    let s := c.1
    if !c.2 ∧ s.tileAnswers a ∧ Addr.space a = 0 ∧ ringSlotSize (t.rd (Reg.RING_CFG n)) = 32 ∧ s.ringAccepts l n 1 urgent ∧
        !t.touchesRing (t.ringSlot n (s.ringWord l n 0).toNat) 32 ∧ !(s.partialWrite l false (t.ringSlot n (s.ringWord l n 0).toNat) 32).2 then
      let h := s.ringWord l n 0
      (((s.setRingWord l n 0 (h + 1)).storeMem l false (t.ringSlot n h.toNat) bs).ringReady l n h.toNat, true)
    else (s, false)
  | none => (s, false)

/-- The FLAGS of a record with more flags set. -/
def addFlags (bs : List Byte) (fl : Nat) : List Byte := bs.take 18 ++ toBytes 2 (natAt bs 18 2 ||| fl) ++ bs.drop 20

/-- Write the record of a frame to its stream's result ring, or lose it (R320, R324, R326, R327). -/
def State.writeRecord (s : State) (e : Nat) (f : FrameIn) (bs0 : List Byte) : State :=
  let r := s.run e
  let bs := addFlags bs0 ((if r.isReset then flReset else 0) + (if r.isLost then flLost else 0))
  let miss := natAt bs 18 2 % 2 == 1
  let x := if s.desc e 0x18 8 1 = 1 then s.deviceRing bs else s.tileRing (s.descAddr e 0x14) (s.strClass e == 0) bs
  if x.2 then
    let s := (x.1.onRun e (fun r => { r with isReset := false, isLost := false, written := some f.seq })).count Reg.RECORDS
    let s := if miss then s.count Reg.MISSES else s.setFld (Reg.STAT e 2) 15 0 0
    let lat := min 0xFFFF (s.now - f.ends)
    s.upd (Reg.STAT e 3) (fun w => wSetFld (wSetFld w 15 0 lat) 31 16 (max lat (wfld w 31 16)))
  else
    let s := (x.1.onRun e (fun r => { r with isLost := true, written := some f.seq })).count Reg.RECORDS_LOST
    s.upd (Reg.STAT e 2) (fun w => wSetFld w 31 16 (min 0xFFFF (wfld w 31 16 + 1)))

/-- Write the records that stand at the front of a stream's frames (R325). -/
def State.flushRecords (e : Nat) : Nat → State → State
  | 0, s => s
  | n + 1, s =>
    match (s.run e).frames with
    | f :: fs =>
      match f.done with
      | some bs => State.flushRecords e n ((s.onRun e (fun r => { r with frames := fs })).writeRecord e f bs)
      | none => s
    | [] => s

/-- Write what may be written, and settle a stream that is draining. -/
def State.flushStream (s : State) (e : Nat) : State := (State.flushRecords e (s.run e).frames.length s).settleStream e

/-- Settle the record of the frame with a sequence number. -/
def State.settleFrame (s : State) (e : Nat) (q : Word) (bs : List Byte) : State :=
  s.onRun e (fun r => { r with frames := r.frames.map (fun f => if f.seq = q then { f with done := some bs } else f) })

/-! ### Commits and hints (R321, R322, R324) -/

/-- Whether a sequence number lies behind the last record written. -/
def StreamRun.behind (r : StreamRun) (q : Word) : Bool :=
  match r.written with | some w => reached w q | none => false

/-- A commit of 32 bytes: accepted for an accepted frame without a record before its cut, discarded otherwise. -/
def State.commit (s : State) (e : Nat) (bs : List Byte) : State :=
  let q := wordAt bs 4
  let fl := natAt bs 18 2 &&& flLibrary
  let free := s.strClass e == 3 || fl.testBit 6
  let r := s.run e
  let f? := (r.frames ++ (if fl.testBit 6 then r.preroll else [])).find? (fun f => f.seq == q && f.done.isNone)
  match f? with
  | none => s.count Reg.LATE_DISCARDS
  | some f =>
    let late := if free then r.behind q else (match s.cutAt e f with | some c => decide (c ≤ s.now) | none => false)
    if s.broken e || late then s.count Reg.LATE_DISCARDS
    else
      let x := if s.wakes e && fl.testBit 8 then s.streamWake e else (s, false)
      let s := x.1
      let rec' := s.record e f 0 (fl + (if x.2 then flWake else 0)) (bs.drop 20)
      if r.frames.any (fun g => g.seq == q) then
        let s := s.settleFrame e q rec'
        let s := if s.strClass e = 3 then
            s.onRun e (fun r => { r with frames := r.frames.filter (fun g => g.done.isSome || !reached q g.seq) }) else s
        s.flushStream e
      else (s.onRun e (fun r => { r with preroll := r.preroll.filter (fun g => g.seq != q) })).writeRecord e f rec'

/-- The submission of one issuer at one priority. -/
def StreamRun.stage (r : StreamRun) (q : ReqFlit) : Stage :=
  (r.stages.find? (fun g => g.unit == q.srcUnit && g.tile == q.srcTile && g.prio == q.prio)).getD
    { unit := q.srcUnit, tile := q.srcTile, prio := q.prio, bytes := List.replicate 32 0, hint := 0 }

/-- Keep a submission. -/
def StreamRun.setStage (r : StreamRun) (g : Stage) : StreamRun :=
  { r with stages := r.stages.filter (fun h => !(h.unit == g.unit && h.tile == g.tile && h.prio == g.prio)) ++ [g] }

/-- Drop a submission. -/
def StreamRun.dropStage (r : StreamRun) (g : Stage) : StreamRun :=
  { r with stages := r.stages.filter (fun h => !(h.unit == g.unit && h.tile == g.tile && h.prio == g.prio)) }

/-- Whether a request comes from a home tile of stream e. -/
def State.fromHome (s : State) (e : Nat) (q : ReqFlit) : Bool :=
  q.srcChip == s.chipId && decide (q.srcUnit.toNat ≤ 5) && s.inHome e q.srcTile.toNat

/-- A 4-byte write of word i of RECORD[e]: word 7 commits. -/
def State.recordWord (s : State) (e i : Nat) (q : ReqFlit) (v : Word) : State :=
  let g := (s.run e).stage q
  let bs := g.bytes.take (4 * i) ++ toBytes 4 v.toNat ++ g.bytes.drop (4 * i + 4)
  if i = 7 then (s.onRun e (fun r => r.dropStage g)).commit e bs else s.onRun e (fun r => r.setStage { g with bytes := bs })

/-- A hint for a frame (R324): kept for an accepted frame without a record, ignored for any other. -/
def State.hintFrame (s : State) (e : Nat) (q : Word) (why : Nat) : State :=
  s.onRun e (fun r => { r with frames := r.frames.map (fun f => if f.seq = q ∧ f.done.isNone then { f with hint := why } else f) })

/-- A 4-byte write of HINT[e]: the low word names the frame, the high word applies the hint. -/
def State.hintWord (s : State) (e : Nat) (high : Bool) (q : ReqFlit) (v : Word) : State :=
  let g := (s.run e).stage q
  if high then s.hintFrame e g.hint (wfld v 7 0) else s.onRun e (fun r => r.setStage { g with hint := v })

/-! ### Cuts (R324) -/

/-- Whether a home tile of stream e has failed and its role is being taken over. -/
def State.takingOver (s : State) (e : Nat) : Bool := s.fab.relocs.any (fun c => c.takeover && s.inHome e c.logical)

/-- The unit's own reason for a MISS of a frame: SWAP_PENDING, SOURCE_GAP, TAKEOVER, or 0. -/
def State.unitReason (s : State) (e : Nat) (f : FrameIn) : Nat :=
  if (s.run e).swap = .inWaiting ∨ (s.run e).swap = .inCopied then 4 else if f.gap then 5 else if s.takingOver e then 8 else 0

/-- The MISS status at a cut. -/
def State.missStatus (s : State) (e : Nat) (f : FrameIn) : Nat :=
  if s.broken e then 9
  else if s.unitReason e f ≠ 0 then s.unitReason e f
  else if f.hint ≠ 0 then f.hint else 1

/-- CUT: a frame without a record gets its MISS record, and a run of them breaks the contract. -/
def State.cut (s : State) (e : Nat) (q : Word) : State :=
  match (s.run e).frames.find? (fun f => f.seq == q && f.done.isNone) with
  | none => s
  | some f =>
    match s.cutAt e f with
    | none => s
    | some c =>
      if s.now < c then s
      else
        let st := s.missStatus e f
        let x := if s.wakes e && s.desc e 0x1C 8 1 == 1 then s.streamWake e else (s, false)
        let fl := flMiss + (if st = 3 then flGenAbsent else 0) + (if s.broken e then flBroken else 0) + (if x.2 then flWake else 0)
        let s := x.1.settleFrame e q (s.record e f st fl missTail)
        let s := s.upd (Reg.STAT e 2) (fun w => wSetFld w 15 0 (min 0xFFFF (wfld w 15 0 + 1)))
        let after := s.fld Reg.CU_CONFIG 23 16
        let s := if after ≠ 0 ∧ after ≤ s.fld (Reg.STAT e 2) 15 0 ∧ !s.broken e then s.breakStream e brRepeatedMiss else s
        s.flushStream e

/-! ### Pins and RES_TAIL -/

/-- WAKE_PULSE_END: a pulse whose time is over ends. -/
def State.wakePulseEnd (s : State) (n : Nat) : State :=
  match spGet (fun _ => none) s.pins.wakeEnd n with
  | some t => if t ≤ s.now then s.releaseWake n else s
  | none => s

/-- A write of WAKE_CTRL: each 1 in ASSERTED releases its pin, ENABLE = 0 releases them all, and a pin that is now latched does not end
by itself. -/
def State.wakeCtrlWrite (s : State) (v : Word) : State :=
  let s := s.upd Reg.WAKE_CTRL (fun w => (w &&& 0xFF00#32) ||| (v &&& 0x1FF00FF#32))
  (List.range 8).foldl (fun s n =>
    if wbit v (8 + n) || !wbit v 20 then s.releaseWake n
    else if wbit v n then { s with pins := { s.pins with wakeEnd := spSet (fun _ => none) s.pins.wakeEnd n none } } else s) s

/-- A write of RES_TAIL (Table 8.17): ignored where HEAD − value is above 1,024. -/
def State.resTailWrite (s : State) (v : Word) : State :=
  if (s.rd Reg.RES_HEAD - v).toNat ≤ 1024 then s.wr Reg.RES_TAIL v else s

/-! ### Commands -/

/-- FRAME_END: stamped with device time. -/
def execFrameEnd (e : Fin 2048) (s : State) : Host.Outcome State Fault Refusal := .next (s.acceptFrame e s.now false)
/-- SOURCE_GAP. -/
def execSourceGap (e : Fin 2048) (s : State) : Host.Outcome State Fault Refusal := .next (s.sourceGap e)
/-- CUT of the frame with a sequence number. -/
def execCut (e : Fin 2048) (seq : Word) (s : State) : Host.Outcome State Fault Refusal := .next (s.cut e seq)
/-- WAKE_PULSE_END. -/
def execWakePulseEnd (n : Fin 8) (s : State) : Host.Outcome State Fault Refusal := .next (s.wakePulseEnd n)
/-- RES_TAIL_WRITE. -/
def execResTailWrite (v : Word) (s : State) : Host.Outcome State Fault Refusal :=
  .next (s.busWrite (fun s => s.slotAt 4 (·.resTailWrite v)))

end Sys2Proof.Machine
end

