-- ==== Sys2Proof/Machine/FrontEnd.lean ====
section
/-! DEFINITION. The front end: alignment, delivery, listen feed, pre-roll, threshold units, wakes, calibration, and its guarded registers
(R337 to R365, R384 to R396). -/

namespace Sys2Proof.Machine

/-- SRC_TILE and SRC_UNIT of the front end's requests. -/
abbrev feTile : Nat := 0xFF
abbrev feUnit : Nat := 10

/-! ### Frames (R350) -/

/-- The samples of a stream's frame at an output rate in Hz. -/
def State.frameLen (s : State) (e rate : Nat) : Nat := s.hopUs e / 1000 * (rate / 1000)

/-- The streams, of those that meet a condition, with frames that end in a push: one for each multiple of the frame length in (lo, hi] that lies
above 0, unless a dropped range (in the same positions) overlaps the frame. -/
def State.frameEnds (s : State) (lo hi : Int) (rate : Nat) (drops : List (Int × Int)) (p : Nat → Bool) : List Nat :=
  (s.liveStreams.filter p).flatMap (fun e =>
    let n : Int := s.frameLen e rate
    (List.range ((hi - lo).toNat)).filterMap (fun (i : Nat) =>
      let m : Int := lo + 1 + i
      if 0 < n ∧ 0 < m ∧ m % n = 0 ∧ !drops.any (fun d => decide (d.1 < m ∧ m - n < d.2)) then some e else none))

/-- Whether the device is in LISTEN: until a wake is done PWR_STATUS.MODE reads so (R647), though the front end's clocks run again. -/
def State.inListen (s : State) : Bool := s.fe.listen || s.fld Reg.PWR_STATUS 1 0 == 0

/-! ### Pushes to rings (R346, R347, R349) -/

/-- The fabric address of a LO and HI register pair. -/
def State.addrAt (s : State) (lo hi : Nat) : Addr := BitVec.ofNat 40 ((s.rd lo).toNat + 2 ^ 32 * wfld (s.rd hi) 7 0)

/-- Pushes of a unit of this chip to an address that are held under R140: those the target tile holds, and those behind one that its VC holds. Of
a ring on another chip, which does not say what it holds, every push that is not complete counts (DESIGN CHOICE, log entry 76). -/
def State.heldPushes (s : State) (unit : Nat) (a : Addr) : Nat :=
  let mine : ReqFlit → Bool := fun r => r.addr == a && r.op == 2 && r.srcUnit == BitVec.ofNat 4 unit && r.srcChip == s.chipId
  if Addr.chip a = s.chipId.toNat then
    let held := (s.ltile (Addr.tile a)).held
    (held.filter mine).length + (s.fab.inflight.filter (fun r => mine r && held.any (fun h => effPrio h.prio == effPrio r.prio))).length
  else (s.fab.marks.filter (fun m => mine m.req)).length

/-- Push a block: dropped where 4 blocks to that ring are already held; the answer is whether it went. The frames that end with it end when it is
complete; one that fails at issue ends none. -/
def State.pushBlock (s : State) (unit : Nat) (a : Addr) (urgent : Bool) (size : Nat) (data : List Byte) (ends : List Nat) : State × Bool :=
  if 4 ≤ s.heldPushes unit a then (s, false)
  else
    let r := s.stampEpoch (mkReq s 2 false (if urgent then 0 else 1) a size 0 feTile unit 0 data)
    let s : State := if (s.issueError a).isSome then s else { s with fab := { s.fab with marks := s.fab.marks ++ [{ req := r, ends := ends }] } }
    (s.issue r, true)

/-- Bytes of a signed sample. -/
def sampleBytes (n : Nat) (v : Int) : List Byte := toBytes n (v % ((2 ^ (8 * n) : Nat) : Int)).toNat

/-- The output rate of a group: that of its lowest running channel. -/
def State.groupRate (s : State) (g : Nat) : Nat :=
  match s.runningChannels g with | j :: _ => s.rateOf (s.pairOf (16 * g + j)) | [] => 0

/-- A delivery block: n sample times of 16 channels in a format (R346). -/
def State.delivBlock (s : State) (g n : Nat) (fmt : Bool) (sh : Nat) : List Byte :=
  let q := (s.grp g).queues
  (List.range n).flatMap (fun t => (List.range 16).flatMap (fun j =>
    let y := (spGet (fun _ => []) q j).getD t 0
    if fmt then sampleBytes 4 y else sampleBytes 2 (clampI (-32768) 32767 (rneShift y sh))))

/-- DELIV_PUSH: a complete block of a group goes to its ring with the frames that end in it, or is dropped. -/
def State.delivPush (s : State) (g : Nat) : State :=
  let hi := s.rd (Reg.FE_DELIV_HI g)
  let x := s.grp g
  let fmt := wbit hi 9
  let n := if fmt then 4 else 8
  let run := s.runningChannels g
  if !wbit hi 8 || s.inListen || !x.begun || run.isEmpty || run.any (fun j => decide ((spGet (fun _ => []) x.queues j).length < n)) then s
  else
    let rate := s.groupRate g
    let lo := x.sent
    let ds : List (Int × Int) := x.drops.map (fun d => ((d.1 : Int), (d.2 : Int)))
    let ends := s.frameEnds lo (lo + n) rate ds (fun e => (s.desc e 0 0 4 == 1 || s.desc e 0 0 4 == 2) && s.sourceGroup e == some g) ++
      (if s.bit (Reg.FE_FEED_HI g) 8 then []
       else s.frameEnds (lo - x.base) (lo + n - x.base) rate (ds.map (fun d => (d.1 - x.base, d.2 - x.base))) (fun e => s.desc e 0 0 4 == 6 && s.sourceGroup e == some g))
    let y := s.pushBlock feUnit (s.addrAt (Reg.FE_DELIV_LO g) (Reg.FE_DELIV_HI g)) (wbit hi 14) 8 (s.delivBlock g n fmt (wfld hi 13 10)) ends
    let s := if y.2 then y.1 else y.1.count (Reg.FE_DELIV_LOST g)
    let drops := (if y.2 then x.drops else x.drops ++ [(lo, lo + n)]).filter (fun d => decide (lo < d.2 + 2000))
    s.onGrp g (fun x => { x with
      sent := lo + n, drops := drops, queues := x.queues.filterMap (fun (j, q) => if (q.drop n).isEmpty then none else some (j, q.drop n)) })

/-- FEED_PUSH: 32 fast samples of the listening channel go to the FEED ring, or are dropped. -/
def State.feedPush (s : State) (g : Nat) : State :=
  let x := s.grp g
  if !s.bit (Reg.FE_FEED_HI g) 8 || decide (x.feedQ.length < 32) then s
  else
    let ends := if x.begun || x.marked then
        s.frameEnds x.feedPos (x.feedPos + 32) (s.rateOf (s.pairOf (s.listenChannel g))) [] (fun e => s.desc e 0 0 4 == 6 && s.sourceGroup e == some g)
      else []
    let y := s.pushBlock feUnit (s.addrAt (Reg.FE_FEED_LO g) (Reg.FE_FEED_HI g)) false 6 ((x.feedQ.take 32).flatMap (sampleBytes 2)) ends
    let s := y.1.onGrp g (fun x => { x with feedQ := x.feedQ.drop 32, feedPos := x.feedPos + 32 })
    if y.2 then s else s.count (Reg.FEED_LOST g)

/-! ### Pre-roll (R357 to R362) -/

/-- STEP8 and ADAPT of SQ4. -/
def sq4Step8 (i : Nat) : Nat := [16, 17, 19, 21, 23, 25, 27, 29].getD (i % 8) 16 * 2 ^ (i / 8)
def sq4Adapt (m : Nat) : Int := [-1, -1, -1, 0, 1, 2, 3, 5].getD m 0

/-- One step of the SQ4 encoder: predictor, index, code. -/
def sq4Encode (p : Int) (i : Nat) (x : Int) : Int × Nat × Nat :=
  let step := sq4Step8 i
  let e := x - p
  let m := min 7 (2 * e.natAbs / step)
  let d : Int := (((2 * m + 1) * step) / 4 : Nat)
  let p' := clampI (-32768) 32767 (if e < 0 then p - d else p + d)
  (p', (clampI 0 87 (i + sq4Adapt m)).toNat, (if e < 0 then 8 else 0) + m)

/-- NB of R357: the pre-roll ring's blocks at an output rate in Hz. -/
def prerollBlocks (cfg : Word) (rate : Nat) : Nat := ((wfld cfg 3 1 + 1) * rate + 255) / 256 + 8

/-- The output rate of a group's listening channel. -/
def State.listenRate (s : State) (g : Nat) : Nat := s.rateOf (s.pairOf (s.listenChannel g))

/-- A write of the pre-roll encoder into tile SRAM at a byte offset, in posted PUTs of 8 B, which every place in the ring is aligned to. -/
def State.prerollPut (s : State) (g off : Nat) (bs : List Byte) : State :=
  let t := s.fld (Reg.PREROLL_CFG g) 23 16
  (List.range (bs.length / 8)).foldl (fun s i =>
    s.issue (mkReq s 2 false 1 (mkAddr s.chipId.toNat 0 t (off + 8 * i)) 3 0 feTile feUnit 0 ((bs.drop (8 * i)).take 8))) s

/-- Byte offset of a group's pre-roll ring. -/
def State.prerollBase (s : State) (g : Nat) : Nat := 64 * s.fld (Reg.PREROLL_BASE g) 17 6

/-- Write the index entry of the block being written (Table 9.10). -/
def State.prerollEntry (s : State) (g : Nat) : State :=
  let x := s.grp g
  let nb := prerollBlocks (s.rd (Reg.PREROLL_CFG g)) (s.listenRate g)
  let b := (s.rd (Reg.PREROLL_HEAD g)).toNat % nb
  s.prerollPut g (s.prerollBase g + 8 * b) (sampleBytes 2 x.blkP ++ toBytes 2 (x.blkI + 128 * x.blkGap.toNat) ++ toBytes 4 x.blkT.toNat)

/-- Write the open code line, its unfilled codes 0. -/
def State.prerollLine (s : State) (g : Nat) : State :=
  let x := s.grp g
  let nb := prerollBlocks (s.rd (Reg.PREROLL_CFG g)) (s.listenRate g)
  let b := (s.rd (Reg.PREROLL_HEAD g)).toNat % nb
  let line := (x.pos - x.codes.length) / 128
  let bytes : List Byte := (List.range 64).map (fun j => BitVec.ofNat 8 (x.codes.getD (2 * j) 0 + 16 * x.codes.getD (2 * j + 1) 0))
  s.prerollPut g (s.prerollBase g + 8 * nb + 128 * b + 64 * line) bytes

/-- The contract unit gives the pre-roll frames of a mark their numbers, and kind-6 streams of the group count their frames from it
(R350, R362); a suspended stream keeps its numbers until its swap-in. -/
def State.markStreams (s : State) (g : Nat) : State :=
  let t := s.now
  (s.liveStreams.filter (fun e => s.desc e 0 0 4 == 6 && s.sourceGroup e == some g && s.strState e != stRegistered)).foldl (fun s e =>
    let n := (s.fld (Reg.PREROLL_CFG g) 3 1 + 1) * 1000000 / s.hopUs e
    let q := s.nextSeq e
    let h := s.hopUs e
    let s := s.wr (Reg.STAT e 1) (q + wd n)
    s.onRun e (fun r => { r with expect := none, preroll := r.preroll ++ (List.range n).map (fun j =>
      { seq := q + wd j, ends := t - (n - 1 - j) * h, gap := false, hint := 0, done := none }) })) s

/-- Latch the mark of a group at the listening channel's next sample (R359). -/
def State.takeMark (s : State) (g : Nat) : State :=
  let x := s.grp g
  if x.mark then
    let h := if x.pos = 256 then s.rd (Reg.PREROLL_HEAD g) + 1 else s.rd (Reg.PREROLL_HEAD g)
    let s := (s.wr (Reg.PREROLL_MARK g) (wd (x.pos % 256 + 2 ^ 8 * (h.toNat % 2 ^ 24)))).wr (Reg.PREROLL_MARK_TIME g) s.now32
    let j := s.listenChannel g % 16
    let s := s.onGrp g (fun x =>
      let b : Int := x.sent + (spGet (fun _ => []) x.queues j).length
      { x with mark := false, marked := true, since := 0, feedPos := -(x.feedQ.length : Int), base := b })
    s.markStreams g
  else s

/-- The pre-roll encoder takes an output of the listening channel. -/
def State.prerollSample (s : State) (g : Nat) (y : Int) (gap : Bool) : State :=
  let cfg := s.rd (Reg.PREROLL_CFG g)
  if !wbit cfg 0 then s
  else
    let s := s.takeMark g
    let x := s.grp g
    let s := if x.pos = 256 then (s.upd (Reg.PREROLL_HEAD g) (· + 1)).onGrp g (fun x => { x with pos := 0 }) else s
    let x := s.grp g
    let t := s.now32
    let s := if x.pos = 0 then (s.onGrp g (fun x => { x with blkP := x.encP, blkI := x.encI, blkT := t, blkGap := gap })).prerollEntry g
             else if gap && !x.blkGap then (s.onGrp g (fun x => { x with blkGap := true })).prerollEntry g else s
    let c := sq4Encode x.encP x.encI (clampI (-32768) 32767 (rneShift y (wfld cfg 7 4)))
    let s := s.onGrp g (fun x => { x with encP := c.1, encI := c.2.1, pos := x.pos + 1, codes := x.codes ++ [c.2.2] })
    if (s.grp g).codes.length = 128 then (s.prerollLine g).onGrp g (fun x => { x with codes := [] }) else s

/-! ### Waking (R359, R360) -/

/-- Whether the device is entering LISTEN. -/
def State.enteringListen (s : State) : Bool := s.pwr.target == some 0

/-- Act on a wake of some groups in LISTEN: partial lines are written, and the power controller is asked to leave LISTEN. -/
def State.wakeNow (s : State) (gs : List Nat) : State :=
  let s := gs.foldl (fun s g => if (s.grp g).codes.isEmpty then s else s.prerollLine g) s
  let s := if s.fe.wakeAt = some s.now then s else s.count Reg.WAKES
  { s with fe := { s.fe with wakeAt := some s.now }, pwr := { s.pwr with waking := some (s.pwr.waking.getD s.now) } }

/-- A wake request for some groups (R359, R360): each named group whose encoder runs takes its mark. -/
def State.wakeReq (s : State) (groups : Nat) : State :=
  let gs := (List.range 4).filter (fun g => groups.testBit g && s.bit (Reg.PREROLL_CFG g) 0)
  let markAll : State → State := fun s => gs.foldl (fun s g => s.onGrp g (fun x => { x with mark := true })) s
  if s.enteringListen then
    if gs.isEmpty then s
    else
      let m := gs.foldl (fun a g => a ||| 2 ^ g) 0
      let s := markAll s
      { s with pwr := { s.pwr with heldWake := some (s.pwr.heldWake.getD 0 ||| m) } }
  else if s.inListen then (if gs.isEmpty then s else (markAll s).wakeNow gs)
  else s.count Reg.WAKES_IGNORED

/-- The groups that FE_CMD WAKE names: those with PREROLL_CFG.EN = 1. -/
def State.prerollGroups (s : State) : Nat := (List.range 4).foldl (fun a g => if s.bit (Reg.PREROLL_CFG g) 0 then a + 2 ^ g else a) 0

/-! ### Threshold units (R393 to R396) -/

/-- A threshold unit. -/
def State.thUnit (s : State) (c u : Nat) : ThUnit := spGet (fun _ => ThUnit.reset) s.fe.th (2 * c + u)

/-- The state with a threshold unit replaced. -/
def State.setTh (s : State) (c u : Nat) (t : ThUnit) : State :=
  { s with fe := { s.fe with th := spSet (fun _ => ThUnit.reset) s.fe.th (2 * c + u) t } }

/-- Whether the POST that a unit issued last is still to be accepted. POSTs that are alike are accepted in the order of their issue, so that those
still under way are the last issued (R68). -/
def State.thHolds (s : State) (c u : Nat) : Bool :=
  match (s.thUnit c u).post with
  | some (r, n) =>
    let later := s.fe.th.filter (fun e => match e.2.post with | some (q, m) => q == r && decide (n < m) | none => false)
    decide (later.length < (s.fab.inflight ++ s.fab.waiting).count r)
  | none => false

/-- Issue the POST of an event, unless one is held or LISTEN does not let it out (R395, R396). -/
def State.thPost (s : State) (c u : Nat) (rise : Bool) : State :=
  let t := s.rd (Reg.TH_TARGET c u)
  let held := s.thHolds c u
  let here := wfld t 27 24 == s.chipId.toNat && decide (240 ≤ wfld t 23 16)
  if held || (s.inListen && !here) then s.count Reg.TH_DROPPED
  else
    let w := s.rd (Reg.TH_WEIGHTS c u)
    let arg := wd (s.fld (Reg.TH_DELAY c u) 5 0 + 2 ^ 16 * (if rise then wfld w 15 0 else wfld w 31 16))
    let pr := if s.bit (Reg.FE_DELIV_HI (c / 16)) 14 then 0 else 1
    let r := mkReq s 8 false pr (mkAddr (wfld t 27 24) 0 (wfld t 23 16) (wfld t 15 0)) 0 0 feTile feUnit arg []
    let n := s.fe.posts
    let s := s.setTh c u { s.thUnit c u with post := some (s.stampEpoch r, n) }
    State.issue { s with fe := { s.fe with posts := n + 1 } } r

/-- An event of a unit: counted, posted, and on a listening channel a wake (R359, R395). -/
def State.thEvent (s : State) (c u : Nat) (rise : Bool) : State :=
  let ctl := s.rd (Reg.TH_CTRL c u)
  let s := (s.count (Reg.TH_EVENTS_N c u)).count Reg.TH_EVENTS
  let s := if wbit ctl (if rise then 3 else 4) then s.thPost c u rise else s
  let g := c / 16
  if rise && c == s.listenChannel g && s.bit (Reg.PREROLL_CFG g) (8 + u) then s.wakeReq (2 ^ g) else s

/-- The envelope of a unit (R393). -/
def envelope (ctl : Word) (e a : Nat) : Nat :=
  if e < a then e + (rneShift ((a - e : Nat) : Int) (wfld ctl 8 5)).toNat else e - (rneShift ((e - a : Nat) : Int) (wfld ctl 12 9)).toNat

/-- A unit that measures nothing: m and e at 0, state BELOW. -/
def State.thQuiet (s : State) (c u : Nat) : State :=
  ((s.setBit (Reg.TH_CTRL c u) 13 false).wr (Reg.TH_MEASURE c u) 0).setTh c u { s.thUnit c u with e := 0 }

/-- A sample of a unit's source. -/
def State.thSample (s : State) (c u : Nat) (x : Int) (valid : Bool) : State :=
  let ctl := s.rd (Reg.TH_CTRL c u)
  if !wbit ctl 0 then s
  else if !valid then s.thQuiet c u
  else
    let h := s.thUnit c u
    let a := x.natAbs
    let e := if wbit ctl 1 then envelope ctl h.e a else h.e
    let m := if wbit ctl 1 then e else a
    let s := s.wr (Reg.TH_MEASURE c u) (wd m)
    if !wbit ctl 13 then
      let up := decide (s.fld (Reg.TH_ON c u) 23 0 ≤ m)
      let s := (s.setTh c u { h with e := e, held := if up then 0 else h.held }).setBit (Reg.TH_CTRL c u) 13 up
      if up then s.thEvent c u true else s
    else
      let held := min (h.held + 1) 16383
      let s := s.setTh c u { h with e := e, held := held }
      if wfld ctl 29 16 ≤ held ∧ m < s.fld (Reg.TH_OFF c u) 23 0 then (s.setBit (Reg.TH_CTRL c u) 13 false).thEvent c u false else s

/-- The units of a channel that watch one of its samples. -/
def State.thSamples (s : State) (c : Nat) (fast : Bool) (x : Int) (valid : Bool) : State :=
  [0, 1].foldl (fun s u => if s.bit (Reg.TH_CTRL c u) 2 = fast then s.thSample c u x valid else s) s

/-- Units whose source is not valid fall quiet (R393). -/
def State.thCheck (s : State) : State :=
  ((List.range 128).filter (fun i => s.bit (Reg.TH_CTRL (i / 2) (i % 2)) 0)).foldl (fun s i =>
    let c := i / 2
    let u := i % 2
    let p := s.path (s.pairOf c)
    let ok := if s.bit (Reg.TH_CTRL c u) 2 then p.fastOn && decide (2 ≤ p.fCount) else p.st == 2 && p.settled
    if ok then s else s.thQuiet c u) s

/-- TH CTRL written (R394). -/
def State.thCtrlWrite (s : State) (c u : Nat) (v : Word) : State :=
  let en := wbit v 0 && decide (s.fld (Reg.TH_OFF c u) 23 0 ≤ s.fld (Reg.TH_ON c u) 23 0)
  let s := s.wr (Reg.TH_CTRL c u) (wSetBit (v &&& 0x3FFF1FFF#32) 0 en)
  (s.setTh c u { s.thUnit c u with e := 0, held := 0 }).wr (Reg.TH_MEASURE c u) 0

/-! ### Alignment and delivery (R351, R385) -/

/-- The ALIGN word in use for a channel (R352): the old one until a LOAD_CAL takes effect. -/
def State.alignWord (s : State) (c : Nat) : Word :=
  if s.now ≤ s.fe.calAt then (match s.fe.calOld.find? (fun e => e.1 == c) with | some e => e.2 | none => s.rd (Reg.ALIGN c)) else s.rd (Reg.ALIGN c)

/-- A channel's aligned sample from its history, newest first, and whether the clamp changed it (R351). -/
def alignSample (w : Word) (h : List Int) : Int × Bool :=
  let d := wfld w 25 16
  let i := d / 16
  let f : Int := (d % 16 : Nat)
  let u := h.getD i 0 * (16 - f) + h.getD (i + 1) 0 * f
  let a := rneShift (u * sext 16 (wfld w 15 0)) 18
  let y := clampI (-(2 ^ 23)) (2 ^ 23 - 1) a
  (y, y != a)

/-- Put a sample at the end of a queue of a group. -/
def FeGroup.enqueue (x : FeGroup) (j : Nat) (y : Int) : FeGroup :=
  { x with queues := spSet (fun _ => []) x.queues j (spGet (fun _ => []) x.queues j ++ [y]) }

/-- With delivery off, a sample time that every running channel has given passes by undelivered. -/
def State.passBy (s : State) (g : Nat) : State :=
  let x := s.grp g
  if s.bit (Reg.FE_DELIV_HI g) 8 || (s.runningChannels g).any (fun j => (spGet (fun _ => []) x.queues j).isEmpty) then s
  else
    let drops := (x.drops ++ [(x.sent, x.sent + 1)]).filter (fun d => decide (x.sent < d.2 + 2000))
    let qs := x.queues.filterMap (fun (j, q) => if (q.drop 1).isEmpty then none else some (j, q.drop 1))
    s.onGrp g (fun x => { x with sent := x.sent + 1, drops := drops, queues := qs })

/-- Delivery of a group begins with the samples of one sample time, and with it the frames of kind 6 that count from no mark; the answer says
where the listening channel's fast sample of that time stands in the feed queue: last in it, or still to come. -/
def FeGroup.begin_ (x : FeGroup) (l : Nat) (fastIn : Bool) (same : Nat → Bool) : FeGroup :=
  let qs := x.queues.filter (fun e => same e.1)
  let before : Nat := if same l then x.since - 1 else x.since
  let x := { x with begun := true, sent := 0, drops := [], counts := [], queues := qs, base := if x.marked then -(before : Int) else 0 }
  if x.marked then x else { x with feedPos := (if fastIn then 1 else 0) - (x.feedQ.length : Int) }

/-- A delivered sample of a channel: delivery begins at the first sample at which every RUNNING main path of the group is SETTLED (R385),
with the samples of that sample time: of the paths that started together those of the same OUT_COUNT (R383), of others those that came within
half an output period. -/
def State.delivSample (s : State) (c : Nat) (y : Int) : State :=
  let g := c / 16
  let j := c % 16
  let p := s.path (s.pairOf c)
  let rate := s.rateOf (s.pairOf c)
  let t := s.now
  if (s.grp g).begun then (s.onGrp g (fun x => x.enqueue j y)).passBy g
  else
    let s := s.onGrp g (fun x =>
      { x with queues := spSet (fun _ => []) x.queues j [y], counts := spSet (fun _ => none) x.counts j (some (p.count, p.startAt, t)) })
    if (s.runningChannels g).all (fun i => (s.path (s.pairOf (16 * g + i))).settled) then
      let l := s.listenChannel g % 16
      let cs := (s.grp g).counts
      let same (i : Nat) : Bool :=
        match spGet (fun _ => none) cs i with
        | some (n, b, u) => if b = p.startAt then n == p.count else decide (2 * (t - u) * rate < 1000000)
        | none => false
      s.onGrp g (fun x => x.begin_ l (j != l && same l) same)
    else s

/-- A main sample of a channel reaches its consumers (R384): pre-roll, alignment and delivery, threshold units. -/
def State.mainSample (s : State) (c : Nat) (y : Int) (valid gap : Bool) : State :=
  let g := c / 16
  let listens := c == s.listenChannel g
  let s := if gap then s.count (Reg.FE_GAP_SAMPLES g) else s
  let s := if listens then (s.prerollSample g y gap).onGrp g (fun x => { x with since := x.since + 1 }) else s
  let h := (y :: spGet (fun _ => []) s.fe.align c).take 65
  let s := { s with fe := { s.fe with align := spSet (fun _ => []) s.fe.align c h } }
  let s :=
    if s.fe.listen then s
    else if s.matched then s.delivSample c y
    else
      let a := alignSample (s.alignWord c) h
      (if a.2 then s.count (Reg.ALIGN_SAT g) else s).delivSample c a.1
  s.thSamples c false y valid

/-- A fast sample of a channel reaches the listen feed and the threshold units; with the feed off it passes by, as those do that were not pushed yet,
and the frames of kind 6 count it all the same (R350). -/
def State.fastOut (s : State) (c : Nat) (y : Int) (valid : Bool) : State :=
  let g := c / 16
  let feeds := s.bit (Reg.FE_FEED_HI g) 8
  let s := if c ≠ s.listenChannel g then s
    else s.onGrp g (fun x => if feeds then { x with feedQ := x.feedQ ++ [y] } else { x with feedQ := [], feedPos := x.feedPos + x.feedQ.length + 1 })
  s.thSamples c true y valid

/-- After a change of chains: a channel whose pair begins to run while its group delivers has given zeros for the sample times that the others
have given (R346), and units without a valid source fall quiet. -/
def State.followChains (s0 s : State) : State :=
  let s := (List.range 4).foldl (fun s g =>
    let was := s0.runningChannels g
    let new := (s.runningChannels g).filter (fun j => !was.contains j)
    if (s0.grp g).begun && (s.grp g).begun && !new.isEmpty then
      s.onGrp g (fun x =>
        let most := (x.queues.map (fun e => e.2.length)).foldl max 0
        { x with queues := new.foldl (fun qs j =>
            let q := spGet (fun _ => []) qs j
            spSet (fun _ => []) qs j (q ++ List.replicate (most - q.length) 0)) x.queues })
    else s) s
  s.thCheck

/-- CHAIN_OUTPUT_SAMPLE: the bits of one output interval of a chain, oldest first. A chain whose channel is not captured, and a number
of bits that is no output interval, give nothing but a channel switch that is due (R387). -/
def State.chainOutput (s0 : State) (k : Nat) (bits : List Bool) : State :=
  let b := s0.boundary k
  let moved := (s0.path k).src != (b.1.path k).src
  let s := if moved then s0.followChains b.1 else b.1
  let p := s.path k
  let c := s.chanOf k
  let w := s.rd (cfg0Key k)
  let r := s.fastRatio k
  let need := if p.st ≠ 2 then r else if k < 64 then 2 * wfld w 19 12 else 8 * 2 ^ wfld w 15 14 * (wfld w 18 16 + 1)
  if bits.length ≠ need ∨ need = 0 ∨ !s.fastLive c ∨ (p.st ≠ 2 ∧ !p.fastOn) then (if moved then s else s0)
  else
    let pair := s.pairOf c == k
    let satKey := if k < 64 then Reg.SAT k else Reg.FINE_SAT (k - 64)
    let s :=
      if p.st = 2 then
        let x := if k < 64 then s.coarseSample k p bits else s.fineSample k p bits
        let settled := p.settled || decide (p.startAt + p.warm ≤ s.now)
        let y := if settled then x.2.1 else 0
        let n := p.count + 1
        let m0 := if b.2 then 0 else p.maxabs
        let q : DcPath := { x.1 with settled := settled, gap := p.gap && !settled, count := n, maxabs := max m0 y.natAbs }
        let s := s.setPath k { q with step := p.step || b.2, stepAt := if b.2 then n else p.stepAt }
        let s := (if b.2 then s.count Reg.RANGE_STEPS else s).countBy satKey x.2.2
        if pair then s.mainSample c y settled (p.gap && !settled) else s
      else s
    if p.fastOn then
      let f := fastSample k r (s.path k) bits
      let s := (s.setPath k f.1).countBy satKey f.2.2
      if pair then s.fastOut c f.2.1 (decide (2 ≤ f.1.fCount)) else s
    else s

/-! ### Clocks, settle, LISTEN (R342, R343, R345, R354, R388) -/

/-- FE_STATUS as it now stands (Table 9.13). -/
def State.feStatus (s : State) : Word :=
  let w := s.rd Reg.FE_STATUS
  let gs := (List.range 4).map (fun g => 2 ^ g * (s.lRun g).toNat + 2 ^ (4 + g) * (s.aRun g).toNat + 2 ^ (12 + g) * (s.settling g).toNat)
  wSetBit ((w &&& 0xF00#32) ||| wd gs.sum) 16 s.matched

/-- An array clock of a group starts: its settle begins (R343). -/
def State.startSettle (s : State) (g : Nat) : State :=
  let t := s.now + 1000 * s.fld (Reg.FE_CLK g) 14 10
  s.onGrp g (fun x => { x with settle := some t })

/-- After a change of clocks: settles begin where an array clock has started and end where it has stopped, and the chains follow. -/
def State.followClocks (s : State) (was : List Bool) : State :=
  let s := (List.range 4).foldl (fun s g =>
    if s.aRun g && !was.getD g false then s.startSettle g
    else if !s.aRun g then s.onGrp g (fun x => { x with settle := none }) else s) s
  s.syncPaths.thCheck

/-- The array clocks that run. -/
def State.aClocks (s : State) : List Bool := (List.range 4).map s.aRun

/-- SETTLE_END: every group whose settle time is over, with its armed chains, on one edge. -/
def State.settleEnd (s : State) : State :=
  let due := (List.range 4).filter (fun g => match (s.grp g).settle with | some t => decide (t ≤ s.now) | none => false)
  if due.isEmpty then s else ((due.foldl (fun s g => s.onGrp g (fun x => { x with settle := none })) s).syncPaths).thCheck

/-- Restart the chains of a listening wire whose clock changes rate (R343): the samples until SETTLED fill a gap. -/
def State.rateChange (s : State) (g : Nat) : State :=
  (List.range 72).foldl (fun s k =>
    let c := s.chanOf k
    if c / 16 = g ∧ onListenWire c then
      let p := s.path k
      let s := if p.fastOn then s.onPath k (·.fastStart) else s
      if p.st = 2 then (s.runPath k).onPath k (fun q => { q with gap := true }) else s
    else s) s

/-- The listening wires that change rate between LISTEN and the other modes. -/
def State.followers (s : State) : List Nat :=
  (List.range 4).filter (fun g => s.bit (Reg.FE_CLK g) 8 && s.lRun g && s.fld (Reg.FE_CLK g) 2 0 != s.fld (Reg.FE_CLK g) 6 4)

/-- The front end enters LISTEN (Table 9.4, R388). A mark taken during the entry stands (R360), any earlier one is over. -/
def State.feSleep (s : State) : State :=
  let was := s.aClocks
  let s := { s with fe := { s.fe with listen := true } }
  let s := (List.range 4).foldl (fun s g =>
    let kept := (s.pwr.heldWake.getD 0).testBit g
    s.onGrp g (fun x => { x with begun := false, queues := [], counts := [], marked := x.marked && kept })) s
  (s.followers.foldl (fun s g => s.rateChange g) s).followClocks was

/-- The front end leaves LISTEN: the array clocks start (R363). -/
def State.feWake (s : State) : State :=
  let s := { s with fe := { s.fe with listen := false } }
  (s.followers.foldl (fun s g => s.rateChange g) s).followClocks [false, false, false, false]

/-- Whether a chain fed by the clocks that a change of FE_CLK[g] affects is running (R342). -/
def State.clockBusy (s : State) (g : Nat) (old new : Word) : Bool :=
  let aCh := wfld old 6 4 != wfld new 6 4
  let lCh := wfld old 2 0 != wfld new 2 0 || wbit old 8 != wbit new 8 || wbit old 9 != wbit new 9
  (List.range 72).any (fun k =>
    let c := s.chanOf k
    s.chainRuns k &&
      ((aCh && (if s.matched then g == 0 else c / 16 == g && (!onListenWire c || wbit old 8))) || (lCh && c / 16 == g && onListenWire c)))

/-- FE_CLK[g] written. -/
def State.feClkWrite (s : State) (g : Nat) (v : Word) : State × Nat :=
  let old := s.rd (Reg.FE_CLK g)
  let new := v &&& 0x7FFF#32
  if s.clockBusy g old new then (s, 0x0B)
  else
    let was := s.aClocks
    ((s.wr (Reg.FE_CLK g) new).followClocks was, 0)

/-- FE_CTRL written (R354). -/
def State.feCtrlWrite (s : State) (v : Word) : State × Nat :=
  if wbit v 0 = s.matched then (s, 0)
  else if (List.range 72).any s.chainRuns then (s, 0x0B)
  else (s.setBit Reg.FE_CTRL 0 (wbit v 0), 0)

/-- ALIGN[c] written (R352, R365). -/
def State.alignWrite (s : State) (c : Nat) (v : Word) : State :=
  let s := (s.wr (Reg.ALIGN c) (v &&& 0x03FFFFFF#32)).setBit Reg.FE_STATUS 8 false
  { s with fe := { s.fe with calOld := s.fe.calOld.filter (fun e => e.1 != c) } }

/-- DELIV_HI and FEED_HI written (Table 9.5). -/
def State.delivHiWrite (s : State) (g : Nat) (v : Word) : State :=
  s.upd (Reg.FE_DELIV_HI g) (fun o => (o &&& 0x4000#32) ||| (wSetBit (v &&& 0x3FFF#32) 8 (wbit v 8 && decide (wfld v 13 10 ≤ 8))))

/-- PREROLL_CFG[g] written (R357): EN stays 0 where the ring cannot be; a rise of EN starts the encoder anew. -/
def State.prerollCfgWrite (s : State) (g : Nat) (v : Word) : State :=
  let rate := s.listenRate g
  let ok := decide (240 ≤ wfld v 23 16) && decide (wfld v 7 4 ≤ 8) && (rate == 8000 || rate == 16000) &&
    decide (s.prerollBase g + 136 * prerollBlocks v rate ≤ 0x40000)
  let was := s.bit (Reg.PREROLL_CFG g) 0
  let on := wbit v 0 && ok
  let s := s.wr (Reg.PREROLL_CFG g) (wSetBit (v &&& 0xFF03FF#32) 0 on)
  if on && !was then
    (s.wr (Reg.PREROLL_HEAD g) 0).onGrp g (fun x => { x with encP := 0, encI := 0, pos := 0, codes := [], mark := false })
  else s

/-! ### Calibration (R355, R378) -/

/-- The preset of a group, when its channels 16g + 2 to 16g + 15 agree (R378), and their output rate code. -/
def State.groupPreset (s : State) (g : Nat) : Option (Nat × Nat) :=
  let x (j : Nat) : Nat × Nat := (s.fld (Reg.CH_CFG0 (16 * g + j)) 2 0, s.fld (Reg.CH_CFG0 (16 * g + j)) 5 3)
  if (List.range 14).all (fun j => x (j + 2) == x 2) then some (x 2) else none

/-- LOAD_CAL: 64 ALIGN words from the last committed set, or the reason why not. -/
def State.loadCal (s : State) : State :=
  let get (i : Nat) : Option (List Byte) := s.nv.value (wd (0x10000 + i))
  let fail (s : State) (e : Nat) : State := s.setFld Reg.FE_STATUS 11 10 e
  let rows := (List.range 4).map (fun g => get (1 + g))
  match get 0 with
  | none => if rows.all (·.isNone) then fail s 1 else fail s 3
  | some h =>
    if natAt h 0 2 ≠ 1 ∨ rows.any (·.isNone) then fail s 3
    else
      let bad := (List.range 4).any (fun g => s.bit (Reg.FE_CLK g) 7 &&
        !(s.fld (Reg.FE_CLK g) 6 4 == natAt h 2 1 && s.groupPreset g == some (natAt h 3 1, natAt h 4 1)))
      if bad then fail s 2
      else
        let old := (List.range 64).map (fun c => (c, s.alignWord c))
        let t := s.now
        let s := (List.range 64).foldl (fun s c => s.wr (Reg.ALIGN c) (wordAt ((rows.getD (c / 16) none).getD []) (4 * (c % 16)) &&& 0x03FFFFFF#32)) s
        let s := { s with fe := { s.fe with calOld := old, calAt := t } }
        (fail s 0).setBit Reg.FE_STATUS 8 true

/-! ### Stuck channels (R340) -/

/-- STUCK_DETECT: a captured channel that has given 4,096 identical bits. -/
def State.stuck (s : State) (c : Nat) : State :=
  if s.captured c then
    let s := s.setBit (Reg.STUCK (c / 32)) (c % 32) true
    s.breakAll brSourceLost (fun e => (s.desc e 0 0 4 == 2 && s.desc e 0 4 12 == c) || (s.desc e 0 0 4 == 6 && c == s.listenChannel (s.desc e 0 4 12)))
  else s

/-! ### Commands -/

/-- FE_CMD LOAD_CAL. -/
def execFeCmdLoadCal (s : State) : Host.Outcome State Fault Refusal :=
  .next (s.atBlock 0 (fun s => s.loadCal))
/-- FE_CMD WAKE. -/
def execFeCmdWake (s : State) : Host.Outcome State Fault Refusal :=
  .next (s.atBlock 0 (fun s => (s.wakeReq s.prerollGroups)))
/-- ALIGN_WRITE. -/
def execAlignWrite (c : Fin 64) (v : Word) (s : State) : Host.Outcome State Fault Refusal :=
  .next (s.atBlock 0 (fun s => (s.alignWrite c v)))
/-- SETTLE_END. -/
def execSettleEnd (s : State) : Host.Outcome State Fault Refusal := .next s.settleEnd
/-- STUCK_DETECT. -/
def execStuckDetect (c : Fin 64) (s : State) : Host.Outcome State Fault Refusal := .next (s.stuck c)
/-- CHAIN_OUTPUT_SAMPLE. -/
def execChainOutputSample (k : ChainSel) (bits : List Bool) (s : State) : Host.Outcome State Fault Refusal := .next (s.chainOutput (chainKey k) bits)
/-- DELIV_PUSH. -/
def execDelivPush (g : Fin 4) (s : State) : Host.Outcome State Fault Refusal := .next (s.delivPush g)
/-- FEED_PUSH. -/
def execFeedPush (g : Fin 4) (s : State) : Host.Outcome State Fault Refusal := .next (s.feedPush g)
/-- TH_CTRL_WRITE. -/
def execThCtrlWrite (c : Fin 64) (u : Fin 2) (v : Word) (s : State) : Host.Outcome State Fault Refusal :=
  .next (s.atBlock 1 (fun s => (s.thCtrlWrite c u v)))

/-- DC_START_LO, DC_START_HI, DC_START_FINE. -/
def execDcStart (r : Fin 3) (v : Word) (s : State) : Host.Outcome State Fault Refusal :=
  .next (s.atBlock 1 (fun s => s.followChains (s.dcStart r v)))
/-- DC_STOP_LO, DC_STOP_HI, DC_STOP_FINE. -/
def execDcStop (r : Fin 3) (v : Word) (s : State) : Host.Outcome State Fault Refusal :=
  .next (s.atBlock 1 (fun s => s.followChains (s.dcStop r v)))
/-- CH_CFG0_WRITE. -/
def execChCfg0Write (c : Fin 64) (v : Word) (s : State) : Host.Outcome State Fault Refusal :=
  .next (s.atBlock 1 (fun s => s.followChains (State.closeWrite (s.chCfg0Write c v))))
/-- FINE_CFG0_WRITE. -/
def execFineCfg0Write (f : Fin 8) (v : Word) (s : State) : Host.Outcome State Fault Refusal :=
  .next (s.atBlock 1 (fun s => s.followChains (State.closeWrite (s.fineCfg0 f v))))
/-- CHANNEL_SWITCH: FINE_CFG0 written with SRC alone changed. -/
def execChannelSwitch (f : Fin 8) (src : Fin 64) (s : State) : Host.Outcome State Fault Refusal :=
  .next (s.atBlock 1 (fun s => s.followChains (State.closeWrite (s.fineCfg0 f (wSetFld (s.rd (Reg.FINE_CFG0 f)) 5 0 src)))))
/-- SHIFT_WRITE. -/
def execShiftWrite (k : ChainSel) (v : Word) (s : State) : Host.Outcome State Fault Refusal :=
  .next (s.atBlock 1 (fun s => s.followChains (State.closeWrite (s.shiftWrite (chainKey k) v, 0))))
/-- MAXABS_READ: in CH_STAT the chain that supplies the pair, in FINE_STAT the fine chain. -/
def execMaxabsRead (k : ChainSel) (s : State) : Host.Outcome State Fault Refusal :=
  .next (s.atBlock 1 (fun s =>
    let x := s.maxabsRead (match k with | .coarse c => s.pairOf c | .fine f => 64 + f.val)
    { x.1 with readData := x.2, lastStatus := 0 }))

end Sys2Proof.Machine
end

