-- ==== Sys2Proof/Machine/Crypto.lean ====
section
/-! DEFINITION. The algorithms that chapter 18 names: SHA-256, HMAC, HKDF-SHA-256 and AES-256-GCM with a 96-bit nonce and a 128-bit tag
(R604, R612, R623). PRESUMED from their public standards (FIPS 180-4, RFC 2104, RFC 5869, FIPS 197, SP 800-38D); log entry 49. -/

namespace Sys2Proof.Machine

/-- The bytes of a number, most significant first. -/
def beBytes (n v : Nat) : List Byte := (toBytes n v).reverse

/-- The number that bytes spell, most significant first. -/
def beNat (bs : List Byte) : Nat := ofBytes bs.reverse

/-- Bytewise exclusive or. -/
def xorBytes (a b : List Byte) : List Byte := (a.zip b).map (fun p => p.1 ^^^ p.2)

/-! ### SHA-256 -/

/-- The primes below 312: the first 64. -/
def primes64 : List Nat := (List.range 312).filter (fun n => decide (2 ≤ n) && (List.range 18).all (fun d => decide (d < 2) || decide (n ≤ d) || n % d != 0))

/-- The largest x of at most n bits whose k-th power is at most v. -/
def rootBits (k v : Nat) : Nat → Nat → Nat
  | 0, x => x
  | n + 1, x => rootBits k v n (if (x + 2 ^ n) ^ k ≤ v then x + 2 ^ n else x)

/-- The first 32 bits of the fraction of the k-th root of p. -/
def rootFrac (k p : Nat) : Word := wd (rootBits k (p * 2 ^ (32 * k)) 37 0)

/-- The round constants: cube roots of the first 64 primes. -/
def shaK : List Word := primes64.map (rootFrac 3)

/-- The initial hash value: square roots of the first 8 primes. -/
def shaInit : List Word := (primes64.take 8).map (rootFrac 2)

/-- The eight working words. -/
structure ShaRegs where
  a : Word
  b : Word
  c : Word
  d : Word
  e : Word
  f : Word
  g : Word
  h : Word
deriving DecidableEq, Repr

/-- The working words of a list. -/
def shaRegs (w : List Word) : ShaRegs :=
  { a := w.getD 0 0, b := w.getD 1 0, c := w.getD 2 0, d := w.getD 3 0, e := w.getD 4 0, f := w.getD 5 0, g := w.getD 6 0, h := w.getD 7 0 }

/-- The sum of the working words of two states. -/
def shaAdd (x y : ShaRegs) : ShaRegs :=
  { a := x.a + y.a, b := x.b + y.b, c := x.c + y.c, d := x.d + y.d, e := x.e + y.e, f := x.f + y.f, g := x.g + y.g, h := x.h + y.h }

/-- One round. -/
def shaRound (r : ShaRegs) (k w : Word) : ShaRegs :=
  let s1 := r.e.rotateRight 6 ^^^ r.e.rotateRight 11 ^^^ r.e.rotateRight 25
  let t1 := r.h + s1 + ((r.e &&& r.f) ^^^ (~~~r.e &&& r.g)) + k + w
  let s0 := r.a.rotateRight 2 ^^^ r.a.rotateRight 13 ^^^ r.a.rotateRight 22
  let t2 := s0 + ((r.a &&& r.b) ^^^ (r.a &&& r.c) ^^^ (r.b &&& r.c))
  { a := t1 + t2, b := r.a, c := r.b, d := r.c, e := r.d + t1, f := r.e, g := r.f, h := r.g }

/-- The rounds of a block: each takes the oldest of the last 16 schedule words and puts the next behind them. -/
def shaRounds : List Word → List Word → ShaRegs → ShaRegs
  | [], _, r => r
  | k :: ks, w, r =>
    let x := w.getD 1 0
    let y := w.getD 14 0
    let n := w.getD 0 0 + (x.rotateRight 7 ^^^ x.rotateRight 18 ^^^ (x >>> 3)) + w.getD 9 0 + (y.rotateRight 17 ^^^ y.rotateRight 19 ^^^ (y >>> 10))
    shaRounds ks (w.drop 1 ++ [n]) (shaRound r k (w.getD 0 0))

/-- The words of a block of 64 bytes. -/
def shaWords (bs : List Byte) : List Word := (List.range 16).map (fun i => wd (beNat ((bs.drop (4 * i)).take 4)))

/-- n blocks. -/
def shaBlocks (ks : List Word) : Nat → List Byte → ShaRegs → ShaRegs
  | 0, _, r => r
  | n + 1, bs, r => shaBlocks ks n (bs.drop 64) (shaAdd r (shaRounds ks (shaWords (bs.take 64)) r))

/-- SHA-256. -/
def sha256 (bs : List Byte) : List Byte :=
  let pad := bs ++ 0x80 :: List.replicate ((119 - bs.length % 64) % 64) 0 ++ beBytes 8 (8 * bs.length)
  let r := shaBlocks shaK (pad.length / 64) pad (shaRegs shaInit)
  [r.a, r.b, r.c, r.d, r.e, r.f, r.g, r.h].flatMap (fun w => beBytes 4 w.toNat)

/-- HMAC-SHA-256. -/
def hmac (key msg : List Byte) : List Byte :=
  let k := takeBytes 64 (if 64 < key.length then sha256 key else key)
  sha256 (k.map (· ^^^ 0x5C) ++ sha256 (k.map (· ^^^ 0x36) ++ msg))

/-- HKDF-SHA-256 with a salt of 32 zero bytes and 32 bytes of output. -/
def hkdf (key info : List Byte) : List Byte := hmac (hmac (List.replicate 32 0) key) (info ++ [1])

/-- The ASCII bytes of a label. -/
def label (s : String) : List Byte := s.toList.map (fun c => BitVec.ofNat 8 c.toNat)

/-! ### AES-256 -/

/-- Multiply by x in GF(2^8). -/
def aesX (a : Byte) : Byte := (a <<< 1) ^^^ (if a.msb then 0x1B else 0)

/-- The product in GF(2^8), of a with the low n bits of b. -/
def aesMul (a b : Byte) : Nat → Byte
  | 0 => 0
  | n + 1 => aesX (aesMul a b n) ^^^ (if b.getLsbD (7 - n) then a else 0)

/-- The n-th power in GF(2^8). -/
def aesPow (a : Byte) : Nat → Byte
  | 0 => 1
  | n + 1 => aesMul a (aesPow a n) 8

/-- SubBytes. -/
def aesSub (a : Byte) : Byte :=
  let b := aesPow a 254
  b ^^^ b.rotateLeft 1 ^^^ b.rotateLeft 2 ^^^ b.rotateLeft 3 ^^^ b.rotateLeft 4 ^^^ 0x63

/-- The substitution table. -/
def aesTable : List Byte := (List.range 256).map (fun n => aesSub (BitVec.ofNat 8 n))

/-- Substitute a byte. -/
def aesS (tab : List Byte) (a : Byte) : Byte := tab.getD a.toNat 0

/-- The next n words of the key schedule, behind the last 8. -/
def aesKeys (tab : List Byte) : Nat → Nat → Byte → List (List Byte) → List (List Byte)
  | 0, _, _, _ => []
  | n + 1, i, rcon, w =>
    let t := w.getD 7 []
    let t := if i % 8 = 0 then ((t.drop 1 ++ t.take 1).map (aesS tab)).zipIdx.map (fun p => if p.2 = 0 then p.1 ^^^ rcon else p.1)
             else if i % 8 = 4 then t.map (aesS tab) else t
    let x := xorBytes (w.getD 0 []) t
    x :: aesKeys tab n (i + 1) (if i % 8 = 0 then aesX rcon else rcon) (w.drop 1 ++ [x])

/-- The 15 round keys of a 256-bit key. -/
def aesRoundKeys (tab : List Byte) (key : List Byte) : List (List Byte) :=
  let w0 := (List.range 8).map (fun i => (key.drop (4 * i)).take 4)
  let w := w0 ++ aesKeys tab 52 8 1 w0
  (List.range 15).map (fun r => ((w.drop (4 * r)).take 4).flatten)

/-- ShiftRows. -/
def aesShift (b : List Byte) : List Byte := (List.range 16).map (fun i => b.getD ((i + 4 * (i % 4)) % 16) 0)

/-- MixColumns. -/
def aesMix (b : List Byte) : List Byte :=
  (List.range 16).map (fun i =>
    let at_ (k : Nat) : Byte := b.getD (i / 4 * 4 + (i + k) % 4) 0
    aesX (at_ 0) ^^^ aesX (at_ 1) ^^^ at_ 1 ^^^ at_ 2 ^^^ at_ 3)

/-- The rounds after the first key addition. -/
def aesRounds (tab : List Byte) : List (List Byte) → List Byte → List Byte
  | [], b => b
  | [k], b => xorBytes (aesShift (b.map (aesS tab))) k
  | k :: ks, b => aesRounds tab ks (xorBytes (aesMix (aesShift (b.map (aesS tab)))) k)

/-- AES-256 of a block of 16 bytes. -/
def aesBlock (tab : List Byte) (keys : List (List Byte)) (b : List Byte) : List Byte :=
  match keys with
  | [] => b
  | k :: ks => aesRounds tab ks (xorBytes b k)

/-! ### GCM -/

/-- The product in GF(2^128), the first bit of a block its constant term: n bits of x are left, from the last taken down. -/
def ghashMul (x h : BitVec 128) : Nat → BitVec 128 → BitVec 128 → BitVec 128
  | 0, _, z => z
  | n + 1, v, z =>
    ghashMul x h n ((v >>> 1) ^^^ (if v.getLsbD 0 then 0xE1000000000000000000000000000000#128 else 0)) (if x.getLsbD n then z ^^^ v else z)

/-- GHASH over n blocks. -/
def ghash (h : BitVec 128) : Nat → List Byte → BitVec 128 → BitVec 128
  | 0, _, y => y
  | n + 1, bs, y =>
    let x := y ^^^ BitVec.ofNat 128 (beNat (takeBytes 16 (bs.take 16)))
    ghash h n (bs.drop 16) (ghashMul x h 128 h 0)

/-- Bytes padded with zeros to whole blocks of 16. -/
def pad16 (bs : List Byte) : List Byte := takeBytes ((bs.length + 15) / 16 * 16) bs

/-- The key stream of n blocks from counter i. -/
def gcmStream (tab : List Byte) (keys : List (List Byte)) (nonce : List Byte) : Nat → Nat → List Byte
  | 0, _ => []
  | n + 1, i => aesBlock tab keys (nonce ++ beBytes 4 i) ++ gcmStream tab keys nonce n (i + 1)

/-- Encrypt or decrypt bytes from offset o, a multiple of 16, of a text. -/
def gcmCrypt (key nonce : List Byte) (o : Nat) (bs : List Byte) : List Byte :=
  xorBytes bs (gcmStream aesTable (aesRoundKeys aesTable key) nonce ((bs.length + 15) / 16) (2 + o / 16))

/-- The tag of associated data and ciphertext. -/
def gcmTag (key nonce aad cipher : List Byte) : List Byte :=
  let keys := aesRoundKeys aesTable key
  let h := BitVec.ofNat 128 (beNat (aesBlock aesTable keys (List.replicate 16 0)))
  let bs := pad16 aad ++ pad16 cipher ++ beBytes 8 (8 * aad.length) ++ beBytes 8 (8 * cipher.length)
  xorBytes (beBytes 16 (ghash h (bs.length / 16) bs 0).toNat) (aesBlock aesTable keys (nonce ++ beBytes 4 1))

/-- Encrypt a text: its ciphertext and tag. -/
def gcmSeal (key nonce aad plain : List Byte) : List Byte × List Byte :=
  let c := gcmCrypt key nonce 0 plain
  (c, gcmTag key nonce aad c)

/-- Decrypt a text, if its tag verifies. -/
def gcmOpen (key nonce aad cipher tag : List Byte) : Option (List Byte) :=
  if gcmTag key nonce aad cipher = tag then some (gcmCrypt key nonce 0 cipher) else none

end Sys2Proof.Machine
end

