-- ==== Sys2Proof/Machine/Store.lean ====
section
/-! DEFINITION. The parameter store's commands: NV_CMD, the transfer buffer, protection, completion of die operations with retries and
retirement, what an interruption leaves, compaction, log and audit appends (R456 to R490, R523). -/

namespace Sys2Proof.Machine

/-! ### Status, spares and read-only regions -/

/-- The spare sectors that are left. -/
def Nv.spares (v : Nv) : List Nat := (List.range 256).filter (fun i => !(v.row i).retired && (v.row i).replaces == none)

/-- Show spares, wear and read-only regions in NV_STATUS; a rise of WEAR or READ_ONLY is NV_WEAR (R487, R488). -/
def State.nvWear (s : State) : State :=
  let n := s.nv.spares.length
  let wear := decide (n < 64)
  let ro := s.nv.info.any (fun e => e.2.readOnly)
  let rise := (wear && !s.bit Reg.NV_STATUS 7) || (ro && !s.bit Reg.NV_STATUS 28)
  let s := ((s.setFld Reg.NV_STATUS 27 19 n).setBit Reg.NV_STATUS 7 wear).setBit Reg.NV_STATUS 28 ro
  if rise then s.raiseInt 7 else s

/-- The state with the store changed. -/
def State.onNv (s : State) (f : Nv → Nv) : State := { s with nv := f s.nv }

/-- NV_STATUS.PENDING. -/
def State.nvPending (s : State) : Bool := s.bit Reg.NV_STATUS 1

/-- NV_CMD completes with a result (R463). -/
def State.nvFinish (s : State) (err : Nat) : State :=
  ((s.setFld Reg.NV_STATUS 5 2 err).setBit Reg.NV_STATUS 1 false).raiseInt 6

/-- Put the bytes a command has read into the transfer buffer, with NV_STATUS.LEN. -/
def State.nvFill (s : State) (bs : List Byte) : State :=
  (s.onNv (fun v => { v with buf := takeBytes 256 (bs ++ v.buf.drop bs.length) })).setFld Reg.NV_STATUS 18 10 (min 256 bs.length)

/-! ### What is allowed (R456, R457) -/

/-- Whether NV_PROTECT.BP covers a die offset. -/
def State.bpCovers (s : State) (o : Nat) : Bool :=
  match s.fld Reg.NV_PROTECT 1 0 with
  | 0 => false
  | 1 => decide (0xC00000 ≤ o)
  | 2 => decide (0x800000 ≤ o)
  | _ => true

/-- Whether raw reads of n bytes are served: no byte in SPARE or KEYS. -/
def rawReadable (o n : Nat) : Bool := decide (0x100000 ≤ o) && decide (o + n ≤ 0xF80000)

/-- Whether raw writes of n bytes are allowed: every byte in USER, BOOT_A or BOOT_B. -/
def rawWritable (o n : Nat) : Bool := decide (0x980000 ≤ o) && decide (o + n ≤ 0xF80000)

/-- First sector and number of sectors of the region of a raw write: USER, BOOT_A or BOOT_B. -/
def rawRegion (o : Nat) : Nat × Nat := if o < 0xC00000 then (2432, 640) else if o < 0xDC0000 then (3072, 448) else (3520, 448)

/-- Whether a raw write of n bytes meets a read-only region (R488). -/
def Nv.rawRo (v : Nv) (o n : Nat) : Bool :=
  v.sectorsRo (rawRegion o).1 (rawRegion o).2 || v.sectorsRo (rawRegion (o + n - 1)).1 (rawRegion (o + n - 1)).2

/-- Whether a key belongs to the host (R470). -/
def hostKey (k : Word) : Bool := k != 0 && !k.msb

/-! ### Operations under way (R460, R465) -/

/-- The priority class of an operation (R465). -/
def NvWork.cls : NvWork → Nat
  | .tallyInc _ => 3
  | _ => 2

/-- Whether an operation may run: raw reads once the spare map is loaded (R489), raw writes at any time, and journal and tally commands once
the completion pass has finished (R490); appends and increments while the core runs (R657, R669). -/
def State.nvMayRun (s : State) : NvWork → Bool
  | .read _ _ => s.nv.loaded
  | .program _ _ => true
  | .erase _ => true
  | .append _ _ _ _ => s.coreUp
  | .txCommit => s.coreUp
  | .tallyInc _ => s.coreUp
  | _ => s.ready

/-- The record bytes and transaction of an append. -/
def Nv.opBytes (v : Nv) (o : NvOp) : NvWork → Option (Region × List Byte)
  | .append r t k p =>
    some (r, recBytes t k (v.circ r).seq (if o.host then (match v.hostTx with | some x => x.id | none => 0) else 0) p)
  | .txCommit =>
    match v.hostTx with
    | some x => some (.journal, recBytes 3 0 v.journal.seq 0 (txEnd x.id x.count))
    | none => none
  | _ => none

/-- The acts of an operation, in order. -/
def Nv.opSteps (v : Nv) (o : NvOp) : List NvStep :=
  match o.work with
  | .program off bs => (List.range ((bs.length + 15) / 16)).map (fun i => .program (off + 16 * i) ((bs.drop (16 * i)).take 16))
  | .erase off => [.erase (off / 4096)]
  | .tallyInc n => v.tallySteps n
  | w => match v.opBytes o w with
    | some x => v.placeSteps x.1 x.2
    | none => []

/-- Whether an act is an erase. -/
def NvStep.isErase : NvStep → Bool
  | .erase _ => true
  | _ => false

/-- Whether an operation programs and does not erase: once begun it is never interrupted (R465). -/
def State.nvPrograms (s : State) (o : NvOp) : Bool := let w := s.nv.opSteps o; !w.isEmpty && !w.any NvStep.isErase

/-- Whether an erasure of KEYS has the die, or is the next to have it: priority 1 of R465. Its last step waits for READY (R618). -/
def State.keysGoing (s : State) : Bool := match s.keys.erase with | some n => decide (n ≤ 2) || s.ready | none => false

/-- The operation the die serves (R465): none that has not begun while KEYS is erased; the most urgent class, the oldest first; but one that it has
started is not interrupted, unless it erases and gives way to a more urgent one. -/
def State.nvCurrent (s : State) : Option NvOp :=
  let ok := s.nv.queue.filter (fun o => s.nvMayRun o.work)
  let next := if s.keysGoing then none
    else match ok.find? (fun o => o.work.cls == 2) with
      | some o => some o
      | none => ok.head?
  match s.nv.started with
  | some o => if ok.contains o ∧ (s.nvPrograms o ∨ next.any (fun n => decide (o.work.cls ≤ n.work.cls))) then some o else next
  | none => next

/-- Whether the die has no operation under way that acts on it, and no erasure of KEYS waits for it. -/
def State.dieIdle (s : State) : Bool := !s.keysGoing && (match s.nvCurrent with | some o => (s.nv.opSteps o).isEmpty | none => true)

/-- The die starts the operation it serves. -/
def State.nvPick (s : State) : State := { s with nv := { s.nv with started := s.nvCurrent } }

/-- How a read finds the die: the acts of the operation it serves are done up to one that is under way, which one the spec leaves to time (a free
value), and the die as it then is. -/
structure NvView where
  act : Option NvStep
  die : Nv
deriving DecidableEq, Repr

/-- The acts that the die has under way. -/
def State.nvActs (s : State) : List NvStep := match s.nvCurrent with | some o => s.nv.opSteps o | none => []

/-- The die as a read finds it. -/
def State.nvView (s : State) : State × NvView :=
  if s.nvActs = [] then (s, { act := none, die := s.nv })
  else
    let d := s.draw
    let k := d.2 % s.nvActs.length
    (d.1, { act := s.nvActs[k]?, die := s.nv.doSteps (s.nvActs.take k) })

/-- The page that an act programs. -/
def NvStep.page : NvStep → Option Nat
  | .erase _ => none
  | .program x _ => some (x / 256)
  | .bit sec b => some (16 * sec + (32 + b / 8) / 256)

/-- Whether a byte range lies in a page that is being programmed (R460). -/
def NvView.busyPage (v : NvView) (o n : Nat) : Bool :=
  (v.act.bind NvStep.page).any (fun p => decide (o < (p + 1) * 256) && decide (p * 256 < o + n))

/-- Whether it lies in a sector that is being erased (R460). -/
def NvView.busySector (v : NvView) (o n : Nat) : Bool :=
  v.act.any (fun w => w.isErase && decide (o < (w.sector + 1) * 4096) && decide (w.sector * 4096 < o + n))

/-- Bytes as a read finds them: a weak granule may read differently each time (R478). -/
def State.nvRead (s : State) (v : Nv) (o n : Nat) : State × List Byte :=
  if v.weak = [] then (s, v.bytes o n)
  else (List.range n).foldl (fun (a : State × List Byte) i =>
    if v.weak.any (· == v.phys (o + i) / 16) then let d := a.1.drawBytes 1; (d.1, a.2 ++ d.2) else (a.1, a.2 ++ [v.byte (o + i)])) (s, [])

/-- The bytes of weak granules change between power-ups too (R478). -/
def State.nvFlicker (s : State) : State :=
  s.nv.weak.foldl (fun s g =>
    let d := s.drawBytes 16
    { d.1 with nv := { d.1.nv with die := spSetAll nvBlank d.1.nv.die ((List.range 16).zip d.2 |>.map (fun e => (16 * g + e.1, e.2))) } }) s

/-! ### Carrying out an operation -/

/-- What an append's outcome is as NV_STATUS.ERR; none while it waits. -/
def Appended.err : Appended → Option Nat
  | .ok => some 0
  | .full => some 4
  | .noSpare => some 5
  | .waits => none

/-- Carry out an operation; the answer is its result code, or none while it must wait for compaction (R476). -/
def State.nvDo (s : State) (o : NvOp) : State × Option Nat :=
  match o.work with
  | .read off len => let w := s.nvView; let x := w.1.nvRead w.2.die off len; (x.1.nvFill x.2, some 0)
  | .program off bs => if s.nv.rawRo off bs.length then (s, some 5) else (s.onNv (·.program off bs), some 0)
  | .erase off => if s.nv.rawRo off 1 then (s, some 5) else (s.onNv (·.erase (off / 4096)), some 0)
  | .append r t k p =>
    if o.host then
      match s.nv.hostTx with
      | some x =>
        if 64 ≤ x.count ∨ 16384 < x.bytes + p.length then (s, some 3)
        else
          let y := s.nv.append r t k x.id p
          let v := if y.2 = .ok then { y.1 with hostTx := some { x with count := x.count + 1, bytes := x.bytes + p.length } } else y.1
          ({ s with nv := v }, y.2.err)
      | none => let y := s.nv.append r t k 0 p; ({ s with nv := y.1 }, y.2.err)
    else let y := s.nv.append r t k 0 p; ({ s with nv := y.1 }, y.2.err)
  | .getRecord key =>
    match s.nv.value key with
    | some p => ((s.nvFill p).setBit Reg.NV_STATUS 6 true, some 0)
    | none => ((s.setFld Reg.NV_STATUS 18 10 0).setBit Reg.NV_STATUS 6 false, some 0)
  | .txBegin =>
    if s.nv.hostTx.isSome then (s, some 3)
    else
      let id := nextTx s.nv.lastTx
      (s.onNv (fun v => { v with lastTx := id, hostTx := some { id := id, count := 0, bytes := 0 } }), some 0)
  | .txCommit =>
    match s.nv.hostTx with
    | none => (s, some 3)
    | some x =>
      let y := s.nv.append .journal 3 0 0 (txEnd x.id x.count)
      let v := if y.2 = .ok then { y.1 with hostTx := none } else y.1
      ({ s with nv := v }, y.2.err)
  | .txAbort => if s.nv.hostTx.isSome then (s.onNv (fun v => { v with hostTx := none }), some 0) else (s, some 3)
  | .tallyInc n => if s.nv.tallyRo n then (s, some 5) else (s.onNv (·.tallyInc n), some 0)
  | .tallyRead n => (s.nvFill (toBytes 8 (s.nv.tally n)), some 0)

/-- Take an operation out of the queue; the die starts the next one. -/
def State.nvDrop (s : State) (o : NvOp) : State := (s.onNv (fun v => { v with queue := v.queue.erase o, started := none })).nvPick

/-- An operation leaves the queue with its result: the host is told, and a write of the device that meets a read-only region is counted as lost
(R488; AUDIT_LOST as for the records of R626: DEDUCED, log entry 77). -/
def State.nvEnd (s : State) (o : NvOp) (err : Nat) : State :=
  let s := (s.nvDrop o).nvWear
  if o.host then s.nvFinish err else if err = 5 then s.count Reg.AUDIT_LOST else s

/-- Carry out a queued operation and report it. -/
def State.nvComplete (s : State) (o : NvOp) : State :=
  let x := s.nvDo o
  match x.2 with
  | none => s
  | some err => x.1.nvEnd o err

/-- Whether an operation needs no program and no erase. -/
def NvWork.quick : NvWork → Bool
  | .read _ _ => true
  | .getRecord _ => true
  | .txBegin => true
  | .txAbort => true
  | .tallyRead _ => true
  | _ => false

/-- A write of NV_CMD (R462): ignored while PENDING; otherwise the buffer position returns to 0 and the command starts, which f says. -/
def State.nvCmd (s : State) (f : State → State) : State :=
  if s.nvPending then s else f ((s.setBit Reg.NV_STATUS 1 true).onNv (fun v => { v with bufPos := 0 }))

/-- An operation joins the queue. -/
def State.nvPush (s : State) (o : NvOp) : State := (s.nvPick.onNv (fun v => { v with queue := v.queue ++ [o] })).nvPick

/-- NV_CMD READ: ERR_BUSY where the spare map is not loaded, or the sector is being erased (R460, R489), with that code, 0x0B, in ERR (DEDUCED, log
entry 77: Table 13.9 lists none for it); it waits while its page is being programmed (Table 13.8). -/
def State.nvStartRead (s : State) (off len : Nat) : State :=
  let w := s.nvView
  if !s.nv.loaded || w.2.busySector off len then w.1.nvFinish 0x0B
  else if w.2.busyPage off len then w.1.nvPush { work := .read off len, host := true }
  else
    let x := w.1.nvRead w.2.die off len
    (x.1.nvFill x.2).nvFinish 0

/-- Start a command other than READ: one that needs no program runs at once, unless it must be held; the others wait for NV_OP_DONE. -/
def State.nvStart (s : State) (w : NvWork) : State :=
  let o : NvOp := { work := w, host := true }
  if w.quick && s.nvMayRun w then
    let x := s.nvDo o
    x.1.nvFinish (x.2.getD 0)
  else s.nvPush o

/-- Append a record that the device originates: it waits its turn on the die. -/
def State.deviceRecord (s : State) (r : Region) (type : Nat) (key : Word) (payload : List Byte) : State :=
  s.nvPush { work := .append r type key payload, host := false }

/-! ### The commands of Table 13.8 -/

/-- NV_ADDR. -/
def State.nvAddr (s : State) : Nat := (s.rd Reg.NV_ADDR).toNat

/-- READ. -/
def State.nvCmdRead (s : State) (len : Nat) : State :=
  s.nvCmd (fun s =>
    let o := s.nvAddr
    if o % 4 ≠ 0 ∨ len % 4 ≠ 0 ∨ len < 4 ∨ 256 < len ∨ 0x1000000 < o + len then s.nvFinish 2
    else if !rawReadable o len then s.nvFinish 1
    else s.nvStartRead o len)

/-- A raw PROGRAM or ERASE of n bytes at o: recorded when bytes of it lie in the upper quarter (R458), refused where Table 13.2 or BP
refuses it. -/
def State.nvRaw (s : State) (o n len code : Nat) (w : NvWork) : State :=
  let go (s : State) : State :=
    s.nvCmd (fun s =>
      if !rawWritable o n || s.bpCovers o || s.bpCovers (o + n - 1) then s.nvFinish 1 else s.nvStart w)
  if s.nvPending then s
  else if 0xC00000 < o + n then
    if s.auditRefuses then s.auditRefused
    else go (s.auditPut (s.auditPayload 3 s.hostSrc (blockTarget 9 (o % 2 ^ 24)) (wd len) (wd (code + 256 * len)) 0) none)
  else go s

/-- PROGRAM. -/
def State.nvCmdProgram (s : State) (len : Nat) : State :=
  let o := s.nvAddr
  if o % 16 ≠ 0 ∨ len % 16 ≠ 0 ∨ len < 16 ∨ 256 < len ∨ 0x1000000 < o + len then s.nvCmd (·.nvFinish 2)
  else s.nvRaw o len len 2 (.program o (s.nv.buf.take len))

/-- ERASE. -/
def State.nvCmdErase (s : State) (len : Nat) : State :=
  let o := s.nvAddr
  if 0x1000000 ≤ o then s.nvCmd (·.nvFinish 2)
  else s.nvRaw (o / 4096 * 4096) 4096 len 3 (.erase o)

/-- A journal write: refused for a device key, or where BP covers JOURNAL (R457, R470). -/
def State.nvJournal (s : State) (ok : Bool) (w : NvWork) : State :=
  if !ok || s.bpCovers 0x800000 then s.nvFinish 1 else s.nvStart w

/-- PUT_RECORD. -/
def State.nvCmdPut (s : State) (len : Nat) : State :=
  s.nvCmd (fun s =>
    if len = 0 ∨ 256 < len then s.nvFinish 2
    else s.nvJournal (hostKey (s.rd Reg.NV_ADDR)) (.append .journal 1 (s.rd Reg.NV_ADDR) (s.nv.buf.take len)))

/-- GET_RECORD. -/
def State.nvCmdGet (s : State) : State := s.nvCmd (fun s => s.nvStart (.getRecord (s.rd Reg.NV_ADDR)))

/-- DELETE. -/
def State.nvCmdDelete (s : State) : State :=
  s.nvCmd (fun s => s.nvJournal (hostKey (s.rd Reg.NV_ADDR)) (.append .journal 2 (s.rd Reg.NV_ADDR) []))

/-- TALLY_INC. -/
def State.nvCmdTallyInc (s : State) : State :=
  s.nvCmd (fun s =>
    if 56 ≤ s.nvAddr then s.nvFinish 2
    else if s.bpCovers 0x900000 then s.nvFinish 1
    else s.nvStart (.tallyInc s.nvAddr))

/-- TALLY_READ. -/
def State.nvCmdTallyRead (s : State) : State :=
  s.nvCmd (fun s => if 64 ≤ s.nvAddr then s.nvFinish 2 else s.nvStart (.tallyRead s.nvAddr))

/-! ### Retries and retirement (R486 to R488) -/

/-- Retire a sector: spares that fail are retired too; the next one takes its place, with its content when a program failed. None is left:
the sector is marked read-only. -/
def State.nvRetire (s : State) (sec : Nat) (copy : Bool) (spareFails : Nat) : State :=
  let free := s.nv.spares
  let bad := free.take spareFails
  let s := bad.foldl (fun (s : State) sp =>
    (s.onNv (fun v => (v.onRow sp (fun i => { i with retired := true })).tallyInc 56)).logEvent 2 1 (wd sp)) s
  match (free.drop spareFails).head? with
  | none => s.onNv (fun v => v.onRow sec (fun i => { i with readOnly := true }))
  | some sp =>
    let s := s.onNv (fun v =>
      let old := v.phys (4096 * sec)
      let moved := if copy then (v.die.filter (fun e => decide (old ≤ e.1) && decide (e.1 < old + 4096))).map (fun e => (e.1 - old + 4096 * sp, e.2)) else []
      let v := { v with die := spSetAll nvBlank v.die moved }
      let v := v.onRow (old / 4096) (fun i => { i with retired := true })
      (v.onRow sp (fun i => { i with replaces := some sec })).tallyInc 56)
    s.logEvent 2 1 (wd sec)

/-- The retries that programs in a sector needed; the retries and the time of its erase. -/
def progOf (v : NvVerify) (sec : Nat) : Nat := match v.prog.find? (fun e => e.1 == sec) with | some e => e.2 | none => 0
def eraseOf (v : NvVerify) (sec : Nat) : Nat × Nat := match v.erase.find? (fun e => e.1 == sec) with | some e => e.2 | none => (0, 0)

/-- One sector of an operation is verified (R486): retries are counted, and a sector that needed more than 3, or whose erase took more than twice
its physical sector's baseline, is retired. -/
def State.nvVerifySector (s : State) (v : NvVerify) (isErase : Bool) (sec : Nat) : State :=
  let x := eraseOf v sec
  let n := if isErase then x.1 else progOf v sec
  let slow := isErase && decide (2 * Config.eraseBaseline (s.nv.phys (4096 * sec) / 4096) < x.2)
  let s := s.onNv (·.tallyAdd (if isErase then 58 else 57) n)
  if decide (3 < n) || slow then s.nvRetire sec (!isErase) v.spareFails else s

/-- The acts of an operation are verified, sector by sector; the answer is whether a sector found no spare, which leaves the operation undone
(R488). -/
def State.nvVerify (s : State) (v : NvVerify) (steps : List NvStep) : State × Bool :=
  let secs := (steps.map (fun w => (w.isErase, w.sector))).eraseDups
  let t := secs.foldl (fun s x => s.nvVerifySector v x.1 x.2) s
  (t, secs.any (fun x => (t.nv.row x.2).readOnly && !(s.nv.row x.2).readOnly))

/-- A write of the layer's own is verified with what its verifies find: every verify passes at once unless NV_OP_DONE said otherwise. -/
def State.nvOwn (s : State) (steps : List NvStep) : State × Bool :=
  (s.onNv (fun v => { v with found := NvVerify.clean })).nvVerify s.nv.found steps

/-- Append a device value to a region now, with its verifies, compacting the region first when the append must wait for that (R476). -/
def State.appendNow (s : State) (r : Region) (type : Nat) (key : Word) (payload : List Byte) : State × Appended :=
  let waits := (s.nv.append r type key 0 payload).2 == .waits
  let room (v : Nv) : Nv := if waits then v.compact r else v
  let v := room s.nv
  let y := s.nvOwn ((if waits then s.nv.compactSteps r else []) ++ v.placeSteps r (recBytes type key (v.circ r).seq 0 payload))
  if y.2 then (y.1.nvWear, .noSpare)
  else
    let x := (room y.1.nv).append r type key 0 payload
    (({ y.1 with nv := x.1 } : State).nvWear, x.2)

/-- NV_OP_DONE: the die finishes the operation it serves, with what its verifies find; while it serves none, they are those of the layer's own next
write (DESIGN CHOICE, log entry 77). -/
def State.nvOpDone (s : State) (v : NvVerify) : State :=
  match s.nvCurrent with
  | none => s.onNv (fun n => { n with found := v })
  | some o =>
    let x := s.nvVerify v (s.nv.opSteps o)
    if x.2 then x.1.nvEnd o 5 else x.1.nvComplete o

/-! ### Interruption (R478, R480, R484, R669) -/

/-- An act that is cut off leaves its granule, or its sector, indeterminate; a tally's bit is programmed or not (R483). -/
def State.nvCutStep (s : State) : NvStep → State
  | .erase sec =>
    let d := s.drawBytes 4096
    let k := d.1.nv.phys (4096 * sec)
    d.1.onNv (fun v => { v with die := spSetAll nvBlank v.die ((List.range 4096).zip d.2 |>.map (fun e => (k + e.1, e.2))),
                                weak := v.weak ++ (List.range 256).map (fun i => k / 16 + i) })
  | .program o _ =>
    let d := s.drawBytes 16
    let a := d.1.nv.phys o
    d.1.onNv (fun v => { v with die := spSetAll nvBlank v.die ((List.range 16).zip d.2 |>.map (fun e => (a + e.1, e.2))), weak := v.weak ++ [a / 16] })
  | .bit sec p => let d := s.draw; if d.2 % 2 = 1 then d.1.onNv (·.tallyBit sec p) else d.1

/-- A restart of the core leaves an operation torn: some of its acts are done, and its last one is not (R669). -/
def State.nvTear (s : State) (steps : List NvStep) : State :=
  if steps = [] then s
  else
    let d := s.draw
    let k := d.2 % steps.length
    let s := d.1.onNv (·.doSteps (steps.take k))
    if k + 1 = steps.length then s else match steps[k]? with
      | none => s
      | some w => s.nvCutStep w

/-- Some of the acts have been done, and the one after them is cut off. -/
def State.nvCutAt (s : State) (steps : List NvStep) : State :=
  if steps = [] then s
  else
    let d := s.draw
    let k := d.2 % (steps.length + 1)
    let s := d.1.onNv (·.doSteps (steps.take k))
    match steps[k]? with
    | none => s
    | some w => s.nvCutStep w

/-! ### The transfer buffer and protection (R458, R462) -/

/-- NV_DATA: a write stores a word, a read returns one; both move the position. -/
def State.nvData (s : State) (w : Option Word) : State :=
  if s.nvPending then (match w with | some _ => s | none => { s with readData := 0 })
  else
    let o := s.nv.bufPos
    let s := match w with
      | some v => s.onNv (fun n => { n with buf := n.buf.take o ++ toBytes 4 v.toNat ++ n.buf.drop (o + 4) })
      | none => { s with readData := wordAt s.nv.buf o }
    s.onNv (fun n => { n with bufPos := (o + 4) % 256 })

/-- NV_PROTECT takes its two bits; the write is audited. -/
def State.nvProtectWrite (s : State) (v : Word) : State :=
  s.audited Reg.NV_PROTECT 0 (fun s => s.setFld Reg.NV_PROTECT 1 0 (wfld v 1 0))

/-! ### What the layer does by itself -/

/-- MGMT_LOAD.DEFERRING. -/
def State.deferring (s : State) : Bool := s.bit Reg.MGMT_LOAD 16

/-- Whether a compaction may run: it is due, and the die is idle; above 90 % with the appends, else when nothing more urgent waits for the die or the
core and it is not deferred (R465, R474, R476, R657). -/
def State.mayCompact (s : State) (r : Region) : Bool :=
  let urgent := decide (10 * s.nv.used r > 9 * r.size)
  s.coreUp && s.dieIdle && s.nv.compactDue r &&
  (if urgent then !s.mailUrgent else !s.deferring && s.nv.queue == [] && s.nv.audit == [] && !s.mailBusy)

/-- A compaction of a region, with its verifies; the answer is whether it was left undone for want of a spare (R488). -/
def State.compactNow (s : State) (r : Region) : State × Bool :=
  let x := s.nvOwn (s.nv.compactSteps r)
  ((if x.2 then x.1 else x.1.onNv (·.compact r)).nvWear, x.2)

/-- COMPACTION of a region. -/
def State.compaction (s : State) (r : Region) : State := if s.mayCompact r then (s.compactNow r).1 else s

/-- The payload of a log entry (Table 20.5). -/
def LogEntry.payload (e : LogEntry) : List Byte :=
  toBytes 2 e.code ++ toBytes 1 e.sev ++ toBytes 1 e.src ++ toBytes 4 e.arg.toNat ++ toBytes 4 e.count ++ toBytes 8 e.first ++ toBytes 8 e.last ++ toBytes 4 0

/-- The acts that append a log entry. -/
def Nv.logSteps (v : Nv) (e : LogEntry) : List NvStep := v.placeSteps .log (recBytes 0x30 (wd e.code) v.log.seq 0 e.payload)

/-- Append the oldest log entry (R667); in a read-only LOG it is lost. The answer is whether it was written. -/
def State.logPut (s : State) : State × Bool :=
  match s.nv.logq with
  | [] => (s, false)
  | e :: r =>
    let y := s.nvOwn (s.nv.logSteps e)
    let x := if y.2 then (y.1.nv, Appended.noSpare) else y.1.nv.append .log 0x30 (wd e.code) 0 e.payload
    let s := ({ y.1 with nv := { x.1 with logq := r } } : State).nvWear
    if x.2 = .ok then (s, true) else (s.count Reg.LOG_LOST, false)

/-- Append the oldest log entry. -/
def State.logWrite (s : State) : State := s.logPut.1

/-- LOG_APPEND: the least urgent work of the die and of the core, behind a compaction that is due (R465, R657); not while DEFERRING. -/
def State.logAppend (s : State) : State :=
  if s.coreUp && s.dieIdle && !s.deferring && s.nv.queue == [] && s.nv.audit == [] && !s.mailBusy && !s.mayCompact .enroll && !s.mayCompact .journal then s.logWrite
  else s

/-- The records that go with an audit entry: type, key, transaction and payload; one with a device record is a transaction of its own. -/
def Nv.auditRecs (v : Nv) (e : AuditEntry) : List (Nat × Word × Nat × List Byte) :=
  match e.extra with
  | none => [(0x10, 0x8A000000, 0, e.payload)]
  | some x => let id := nextTx v.lastTx; [(0x10, 0x8A000000, id, e.payload), (1, x.1, id, x.2), (3, 0, 0, txEnd id 2)]

/-- Append an audit record, in one transaction with the device record that goes with it. -/
def Nv.appendAudit (v : Nv) (e : AuditEntry) : Nv × Appended :=
  let x := (v.auditRecs e).foldl (fun (a : Nv × Appended) r => if a.2 = .ok then a.1.append .journal r.1 r.2.1 r.2.2.1 r.2.2.2 else a) (v, Appended.ok)
  if x.2 = .ok ∧ e.extra.isSome then ({ x.1 with lastTx := nextTx v.lastTx }, x.2) else x

/-- The acts that append an audit record. -/
def Nv.auditSteps (v : Nv) (e : AuditEntry) : List NvStep :=
  ((v.auditRecs e).foldl (fun (a : Nv × List NvStep) r =>
    ((a.1.append .journal r.1 r.2.1 r.2.2.1 r.2.2.2).1, a.2 ++ a.1.placeSteps .journal (recBytes r.1 r.2.1 a.1.journal.seq r.2.2.1 r.2.2.2))) (v, [])).2

/-- The oldest queued record is committed and AUDIT_HEAD names it; one that cannot be written any more is lost (R523, R626). One that
waits for its reply keeps those behind it waiting: they commit in write order. -/
def State.auditWrite (s : State) : State :=
  match s.nv.audit with
  | [] => s
  | e :: r =>
    if e.due then s
    else
      let seq := s.nv.journal.seq
      let y := s.nvOwn (s.nv.auditSteps e)
      let x := if y.2 then (y.1.nv, Appended.noSpare) else y.1.nv.appendAudit e
      match x.2 with
      | .ok => State.nvWear (({ y.1 with nv := { x.1 with audit := r } } : State).wr Reg.AUDIT_HEAD seq)
      | .noSpare => State.nvWear (State.count { y.1 with nv := { y.1.nv with audit := r } } Reg.AUDIT_LOST)
      | _ => s

/-- Whether the die takes a record append now: it is idle, or what it does is an erase that gives way (R465). -/
def State.dieTakes (s : State) : Bool :=
  s.dieIdle || (!s.keysGoing && s.nvCurrent.any (fun o => decide (2 < o.work.cls) && !s.nvPrograms o))

/-- AUDIT_COMMIT: the oldest queued record is committed once the core and the die come to it. -/
def State.auditCommit (s : State) : State := if s.coreUp && s.dieTakes && !s.mailUrgent then s.auditWrite else s

/-- Whether appends go before the mailbox commands of row 4 (R657): an operation that waits for the die, or an audit record that can be placed. -/
def State.nvAppends (s : State) : Bool :=
  s.nv.queue.any (fun o => s.nvMayRun o.work && (match o.work with | .append _ _ _ _ => true | .txCommit => true | .tallyInc _ => true | _ => false)) ||
  (match s.nv.audit with | e :: _ => !e.due && (s.nv.appendAudit e).2 != .full | [] => false)

/-- What the die may have under way: the operation it serves, or else a step of an erasure of KEYS, or the append of an audit record, a compaction or a
log append that is due. -/
def State.nvUnderWay (s : State) : List (List NvStep) :=
  match s.nvCurrent with
  | some o => [s.nv.opSteps o]
  | none =>
    if s.keysGoing then [s.nv.keySteps (s.keys.erase.getD 1)]
    else if !s.coreUp then []
    else
      (match s.nv.audit with | e :: _ => if e.due then [] else [s.nv.auditSteps e] | [] => []) ++
      ([Region.enroll, Region.journal].filter s.mayCompact).map s.nv.compactSteps ++
      (match s.nv.logq with | e :: _ => if s.deferring then [] else [s.nv.logSteps e] | [] => [])

/-- The die is cut off: in the operation it serves, or in one of those that may be under way, or in none. -/
def State.nvCut (s : State) : State :=
  match s.nvUnderWay with
  | [] => s
  | x :: r =>
    if s.nvCurrent.isSome then s.nvCutAt x
    else let d := s.draw; d.1.nvCutAt ((x :: r).getD (d.2 % (r.length + 2)) [])

/-- The spare map is read from the information rows (R489). -/
def State.spareMapLoad (s : State) : State := (s.onNv (fun v => { v with loaded := true })).nvWear

/-! ### The window of block 0x09 (R459, R460) -/

/-- A GET of n bytes through block 0x09: the completion code and the bytes. -/
def State.nvWindowGet (s : State) (o n : Nat) : State × Nat × List Byte :=
  if !rawReadable o n then (s, 0x04, [])
  else
    let w := s.nvView
    if !s.nv.loaded || w.2.busyPage o n || w.2.busySector o n then (w.1, 0x0B, [])
    else let x := w.1.nvRead w.2.die o n; (x.1, 0, x.2)

/-! ### Commands -/

/-- NV_CMD_READ. -/
def execNvCmdRead (len : BitVec 9) (s : State) : Host.Outcome State Fault Refusal :=
  .next (s.busOpen (fun s => s.slotAt 9 (fun s => (s.nvCmdRead len.toNat))))
/-- NV_CMD_PROGRAM. -/
def execNvCmdProgram (len : BitVec 9) (s : State) : Host.Outcome State Fault Refusal :=
  .next (s.busOpen (fun s => s.slotAt 9 (fun s => (s.nvCmdProgram len.toNat))))
/-- NV_CMD_ERASE. -/
def execNvCmdErase (len : BitVec 9) (s : State) : Host.Outcome State Fault Refusal :=
  .next (s.busOpen (fun s => s.slotAt 9 (fun s => (s.nvCmdErase len.toNat))))
/-- NV_CMD_PUT_RECORD. -/
def execNvCmdPutRecord (len : BitVec 9) (s : State) : Host.Outcome State Fault Refusal :=
  .next (s.busOpen (fun s => s.slotAt 9 (fun s => (s.nvCmdPut len.toNat))))
/-- NV_CMD_GET_RECORD. -/
def execNvCmdGetRecord (s : State) : Host.Outcome State Fault Refusal :=
  .next (s.busOpen (fun s => s.slotAt 9 (fun s => s.nvCmdGet)))
/-- NV_CMD_DELETE. -/
def execNvCmdDelete (s : State) : Host.Outcome State Fault Refusal :=
  .next (s.busOpen (fun s => s.slotAt 9 (fun s => s.nvCmdDelete)))
/-- NV_CMD_TX_BEGIN. -/
def execNvCmdTxBegin (s : State) : Host.Outcome State Fault Refusal :=
  .next (s.busOpen (fun s => s.slotAt 9 (fun s => (s.nvCmd (·.nvStart .txBegin)))))
/-- NV_CMD_TX_COMMIT: the TXEND is a journal write. -/
def execNvCmdTxCommit (s : State) : Host.Outcome State Fault Refusal :=
  .next (s.busOpen (fun s => s.slotAt 9 (fun s => (s.nvCmd (·.nvJournal true .txCommit)))))
/-- NV_CMD_TX_ABORT. -/
def execNvCmdTxAbort (s : State) : Host.Outcome State Fault Refusal :=
  .next (s.busOpen (fun s => s.slotAt 9 (fun s => (s.nvCmd (·.nvStart .txAbort)))))
/-- NV_CMD_TALLY_INC. -/
def execNvCmdTallyInc (s : State) : Host.Outcome State Fault Refusal :=
  .next (s.busOpen (fun s => s.slotAt 9 (fun s => s.nvCmdTallyInc)))
/-- NV_CMD_TALLY_READ. -/
def execNvCmdTallyRead (s : State) : Host.Outcome State Fault Refusal :=
  .next (s.busOpen (fun s => s.slotAt 9 (fun s => s.nvCmdTallyRead)))
/-- NV_OP_DONE: the retries of programs by sector, the retries and time of erases, and how many spares fail. -/
def execNvOpDone (prog : List (Nat × Nat)) (erase : List (Nat × Nat × Nat)) (spareFails : Nat) (s : State) : Host.Outcome State Fault Refusal :=
  .next (s.nvOpDone { prog := prog, erase := erase, spareFails := spareFails })
/-- NV_DATA_ACCESS: a write of a word, or a read. -/
def execNvDataAccess (w : Option Word) (s : State) : Host.Outcome State Fault Refusal := .next (match w with
  | some v => s.busOpen (fun s => s.slotAt 9 (·.nvData (some v)))
  | none => s.busRead (fun s => if s.bit Reg.BIST_BLOCKS 9 || s.keys.halted then { s with readData := 0 } else s.nvData none))
/-- NV_PROTECT_WRITE. -/
def execNvProtectWrite (v : Word) (s : State) : Host.Outcome State Fault Refusal :=
  .next (s.busOpen (fun s => s.slotAt 9 (fun s => (s.nvProtectWrite v))))
/-- COMPACTION, of ENROLL or of JOURNAL. -/
def execCompaction (enroll : Bool) (s : State) : Host.Outcome State Fault Refusal :=
  .next (s.compaction (if enroll then .enroll else .journal))
/-- LOG_APPEND. -/
def execLogAppend (s : State) : Host.Outcome State Fault Refusal := .next s.logAppend
/-- NV_SPARE_MAP_LOAD. -/
def execNvSpareMapLoad (s : State) : Host.Outcome State Fault Refusal := .next s.spareMapLoad
/-- AUDIT_COMMIT. -/
def execAuditCommit (s : State) : Host.Outcome State Fault Refusal := .next s.auditCommit

end Sys2Proof.Machine
end

