-- ==== Sys2Proof/Machine/Target.lean ====
section
/-! DEFINITION. How a tile applies a remote operation: checks in the order of R76, ring header lines, atomics, GATHER_SUM, the queues of POSTs, and
what a failed posted operation leaves (R30, R39, R50 to R61, R71 to R85, R136 to R142, R152, R153, R224, R226, R258). -/

namespace Sys2Proof.Machine

/-- What applying an operation answers. `held` says that it waits (R140, R208). -/
structure Reply where
  status  : Nat
  flags   : Nat
  data0   : Word
  payload : List Byte
  aux     : Nat
  held    : Bool
deriving DecidableEq, Repr

/-- An error. -/
def Reply.err (c : Nat) : Reply := { status := c, flags := 0, data0 := 0, payload := [], aux := 0, held := false }

/-- A result of n bytes: at most 4 go into DATA0. -/
def Reply.data (flags : Nat) (bs : List Byte) : Reply :=
  if bs.length ≤ 4 then { status := cOK, flags := flags, data0 := wd (ofBytes bs), payload := [], aux := 0, held := false }
  else { status := cOK, flags := flags, data0 := 0, payload := bs, aux := 0, held := false }

/-- Success without a result. -/
def Reply.ok : Reply := Reply.data 0 []

/-- An operation that waits in the ingress. -/
def Reply.wait : Reply := { Reply.err cOK with held := true }

/-- FLAGS of Table 2.18 from what a read found. -/
def ReadSt.flags (r : ReadSt) : Nat := r.unwritten.toNat + 2 * r.corrected.toNat

/-- The completion code of a read, if it fails. -/
def ReadSt.code (r : ReadSt) : Option Nat := if r.poisoned then some cPoison else if r.unwrErr then some cUnwritten else Option.none

/-- Whether a request is urgent at the target; PRIO 0b11 counts as normal (R50). -/
def isUrgent (r : ReqFlit) : Bool := r.prio == 0

/-- The operand bytes of a request: ARG0, then the payload. -/
def operandOf (r : ReqFlit) (n : Nat) : List Byte := if n ≤ 4 then takeBytes n (toBytes 4 r.arg0.toNat) else takeBytes n r.payload

/-! ### Atomics -/

/-- The value an atomic writes (R54, R58 for f32): none when it writes nothing. -/
def atomicNew (op ty : Nat) (old operand cmp new : Nat) : Option Nat :=
  if op = 3 then
    some (if ty = 2 then (fAdd false (wd old) (wd operand)).1.toNat else if ty = 1 then (old + operand) % 2 ^ 64 else (old + operand) % 2 ^ 32)
  else if op = 4 then
    some (if ty = 0 then (if sext 32 old < sext 32 operand then operand else old)
      else if ty = 3 then (if sext 64 old < sext 64 operand then operand else old)
      else if ty = 2 then (fMax false (wd old) (wd operand)).toNat
      else max old operand)
  else if op = 5 then some operand
  else if old = cmp then some new else none

/-- Whether a TYPE code has a meaning for an atomic (Table 2.12). -/
def atomicType (op ty : Nat) : Bool := if op = 3 then decide (ty ≤ 2) else if op = 4 then decide (ty ≤ 4) else decide (ty ≤ 1)

/-- The operand, compare and new values of an atomic of n bytes. -/
def atomicArgs (r : ReqFlit) (op n : Nat) : Nat × Nat × Nat :=
  if op = 6 then (if n = 4 then (0, r.arg0.toNat, natAt r.payload 0 4) else (0, natAt r.payload 0 8, natAt r.payload 8 8))
  else ((if n = 4 then r.arg0.toNat else natAt r.payload 0 8), 0, 0)

/-- An atomic on SRAM or clay bytes (R71, R79, R258): a poisoned line, an error region or a record that is being moved refuses it; on a
never-written line it writes the line whatever a CAS compares. -/
def State.atomicMem (s : State) (l : Nat) (clay : Bool) (o op ty : Nat) (r : ReqFlit) : State × Reply :=
  let n := typeWidth op ty
  let x := s.readMem l clay o n 1
  match x.2.1.code with
  | some c => (x.1, Reply.err c)
  | none =>
    if clay && r.srcUnit != 6 && x.1.recordBusy l o n then (x.1, Reply.err cBusy)
    else
      let old := ofBytes x.2.2
      let a := atomicArgs r op n
      let done := if r.ack then Reply.data x.2.1.flags x.2.2 else Reply.ok
      match atomicNew op ty old a.1 a.2.1 a.2.2 with
      | some v => (x.1.storeMem l clay o (toBytes n v), if op = 6 then { done with flags := done.flags + 8 } else done)
      | none => (if x.2.1.unwritten then x.1.storeMem l clay o (toBytes n old) else x.1, done)

/-! ### Rings (R136 to R140) -/

/-- A claim of k slots: HEAD moves, or ERR_BUSY. The header line is read as by any atomic (R76, R79, R430). -/
def State.ringClaim (s0 : State) (l n : Nat) (r : ReqFlit) (op : Nat) : State × Reply :=
  let x := s0.headerRead l n
  let s := x.1
  match x.2.code with
  | some c => (s, Reply.err c)
  | none =>
    let h := s.ringWord l n 0
    let done := if r.ack then Reply.data x.2.flags (toBytes 4 h.toNat) else Reply.ok
    let k : Option Word := if op = 3 then some r.arg0 else if h = r.arg0 then some (wordAt r.payload 0 - h) else none
    match k with
    | none => (if x.2.unwritten then s.setRingWord l n 0 h else s, done)
    | some k =>
      if s.ringAccepts l n k.toNat (isUrgent r) then
        (s.setRingWord l n 0 (h + k), { done with flags := done.flags + if op = 6 then 8 else 0 })
      else (s, Reply.err cBusy)

/-- An operation on a header line that refuses a value out of range, then a poisoned line (R73, R76). -/
def State.onHeader (s : State) (l n : Nat) (inRange : State → Bool) (f : State → State × Reply) : State × Reply :=
  let x := s.headerCheck l n
  if !inRange x.1 then (x.1, Reply.err cAddr) else if x.2 then (x.1, Reply.err cPoison) else f x.1

/-- A 4-byte PUT to TAIL. -/
def State.ringTailPut (s : State) (l n : Nat) (v : Word) : State × Reply :=
  s.onHeader l n (fun s => decide ((v - s.ringWord l n 2).toNat ≤ s.ringOcc l n)) (fun s => (s.ringTail l n v, Reply.ok))

/-- A 4-byte PUT to PUBLISH. -/
def State.ringPublish (s : State) (l n : Nat) (v : Word) : State × Reply :=
  s.onHeader l n (fun s => decide ((v - s.ringWord l n 1).toNat < (s.ringWord l n 0 - s.ringWord l n 1).toNat)) (fun s => (s.ringReady l n v.toNat, Reply.ok))

/-- A push: applied when its priority allows it, else held. -/
def State.ringPut (s : State) (l n : Nat) (r : ReqFlit) (sz : Nat) : State × Reply :=
  s.onHeader l n (fun _ => true) (fun s =>
    if s.ringAccepts l n 1 (isUrgent r) then
      let x := s.ringPush l n (operandOf r sz)
      (x.1, if x.2 = cOK then Reply.ok else Reply.err x.2)
    else (s, Reply.wait))

/-- A PUT that touches a ring header line (R136, R137). -/
def State.headerPut (s : State) (l o sz : Nat) (r : ReqFlit) : State × Reply :=
  let t := s.ltile l
  match lowestBelow 8 (fun n => t.ringOn n && decide (t.ringBase n = o)) with
  | some n =>
    if 16 ≤ sz then (if sz = ringSlotSize (t.rd (Reg.RING_CFG n)) then s.ringPut l n r sz else (s, Reply.err cOp))
    else (s, Reply.err cProtect)
  | none =>
    match t.ringAt o with
    | some n =>
      if sz = 4 ∧ o = t.ringBase n + 8 then s.ringTailPut l n r.arg0
      else if sz = 4 ∧ o = t.ringBase n + 12 then s.ringPublish l n r.arg0
      else (s, Reply.err cProtect)
    | none => (s, Reply.err cProtect)

/-- An atomic that touches a ring header line: claims on HEAD alone. -/
def State.headerAtomic (s : State) (l o op ty : Nat) (r : ReqFlit) : State × Reply :=
  match (s.ltile l).ringAt o with
  | some n => if o = (s.ltile l).ringBase n ∧ ty = 0 ∧ (op = 3 ∨ op = 6) then s.ringClaim l n r op else (s, Reply.err cProtect)
  | none => (s, Reply.err cProtect)

/-! ### GATHER_SUM (R56 to R60) -/

/-- The parameters of a GATHER_SUM payload. -/
structure Gather where
  shift : Nat
  count : Nat
  wtd   : Bool
  first : Nat
  n     : Nat
deriving DecidableEq, Repr

def gatherOf (p : List Byte) : Gather :=
  { shift := natAt p 0 8 % 16, count := natAt p 0 8 / 2 ^ 4 % 32, wtd := natAt p 0 8 / 2 ^ 9 % 2 == 1, first := natAt p 0 8 / 2 ^ 16 % 2 ^ 10,
    n := natAt p 0 8 / 2 ^ 26 % 2 ^ 9 }

/-- Bytes of a GATHER_SUM element type. -/
def gatherSize (ty : Nat) : Nat := if ty = 0 ∨ ty = 2 then 1 else if ty = 5 then 4 else 2

/-- Whether ROW_SHIFT, COUNT and ELEM_COUNT have values that the table allows. -/
def Gather.valid (g : Gather) : Bool :=
  decide (4 ≤ g.shift) && decide (g.shift ≤ 10) && decide (1 ≤ g.count) && decide (g.count ≤ 16) && decide (1 ≤ g.n) && decide (g.n ≤ 256)

/-- The offset of row i. -/
def gatherRow (p : List Byte) (g : Gather) (o i : Nat) : Nat := o + natAt p (16 + 2 * i) 2 * 2 ^ g.shift

/-- Add row i into the sums (R58): the sums as words, and whether any saturated. -/
def gatherAdd (p : List Byte) (g : Gather) (ty i : Nat) (row : List Byte) (sums : List Word) : List Word × Bool :=
  let w16 := natAt p (48 + 2 * i) 2
  let es := gatherSize ty
  let x := (List.range sums.length).map (fun j =>
    let v := natAt row (es * (g.first + j)) es
    let a := sums.getD j 0
    if ty ≤ 2 then
      let e : Int := if ty = 0 then sext 8 v else if ty = 1 then sext 16 v else (v : Int)
      let t := a.toInt + e * (if g.wtd then sext 16 w16 else 1)
      (wi (clampI (-2147483648) 2147483647 t), clampI (-2147483648) 2147483647 t != t)
    else
      let e : Word := if ty = 3 then bfTo32 false v else if ty = 4 then f16to32 v else wd v
      let m := if g.wtd then (fMul false e (bfTo32 false w16)).1 else e
      ((fAdd false a m).1, false))
  (x.map (·.1), x.any (·.2))

/-- GATHER_SUM: rows in order; a row that fails contributes nothing. The sums go in payload flits (R59); a single one stands in DATA0 as well, where
Table 2.16 has every result of 4 bytes or less (DEDUCED, log entry 73). -/
def State.gather (s : State) (l : Nat) (clay : Bool) (o ty : Nat) (p : List Byte) : State × Reply :=
  let g := gatherOf p
  let st := (List.range g.count).foldl (fun (a : State × List Word × Bool × ReadSt × List Nat) i =>
    let x := a.1.readMem l clay (gatherRow p g o i) (2 ^ g.shift) 1
    match x.2.1.code with
    | some c => (x.1, a.2.1, a.2.2.1, a.2.2.2.1, a.2.2.2.2 ++ [c])
    | none =>
      let y := gatherAdd p g ty i x.2.2 a.2.1
      (x.1, y.1, a.2.2.1 || y.2,
       { a.2.2.2.1 with unwritten := a.2.2.2.1.unwritten || x.2.1.unwritten, corrected := a.2.2.2.1.corrected || x.2.1.corrected }, a.2.2.2.2))
    (s, List.replicate g.n 0, false, ReadSt.none, [])
  let fails := st.2.2.2.2
  let code := if fails.contains cPoison then cPoison else if fails.contains cUnwritten then cUnwritten else cOK
  let bs := st.2.1.flatMap (fun w => toBytes 4 w.toNat)
  (st.1, { Reply.ok with flags := st.2.2.2.1.flags + 16 * st.2.2.1.toNat, data0 := if g.n = 1 then st.2.1.getD 0 0 else 0, payload := bs,
                         status := code, aux := fails.length })

/-! ### POST (R61, R210, R224) -/

/-- The beat a POST lands in, if it may be applied. -/
def Tile.postBeat (t : Tile) (r : ReqFlit) : Option Nat :=
  let e : Int := ((t.rd Reg.EV_BEAT).toNat : Int)
  let delay : Int := ((wfld r.arg0 5 0 : Nat) : Int)
  let b : Int := if r.srcTile = 0xFF then e + 1 + delay else e + t.stampDiff r.tag.toNat + delay
  if !t.bit Reg.EV_CFG 0 ∨ Addr.off r.addr / 2 ^ 16 ≠ 0 then none else t.eventBeat (Addr.off r.addr) b

/-- Whether a POST names no neuron, or no beat in the window, of its tile, or finds event mode off: ERR_ADDR, in every form and, with event mode
off, in every space (R210, R224). -/
def State.postAddr (s : State) (l : Nat) (r : ReqFlit) : Bool :=
  r.op == 8 && (!(s.ltile l).bit Reg.EV_CFG 0 || (Addr.space r.addr == 0 && ((s.ltile l).postBeat r).isNone))

/-- Apply a POST: added into its slot, or ERR_ADDR. -/
def State.post (s : State) (l : Nat) (r : ReqFlit) : State × Reply :=
  match (s.ltile l).postBeat r with
  | none => (s, Reply.err cAddr)
  | some b =>
    let x := s.slotAdd l (Addr.off r.addr) b (wi (sext 16 (wfld r.arg0 31 16)))
    if x.2 = cOK then (x.1.onL l (·.countBy Reg.POSTS_IN 1), Reply.ok) else (x.1, Reply.err x.2)

/-! ### One operation at a tile -/

/-- Whether the form of an opcode is allowed (R51): reserved opcodes, acknowledged-only opcodes posted, a POST acknowledged. -/
def formOk (op : Nat) (ack : Bool) : Bool :=
  decide (1 ≤ op) && decide (op ≤ 8) && (ack || !(op == 1 || op == 5 || op == 6 || op == 7)) && !(ack && op == 8)

/-- The bytes an operation names from its address, for the range check; an ill-formed one names one. -/
def opBytes (r : ReqFlit) : Nat :=
  let op := r.op.toNat
  if op = 1 ∨ op = 2 then (if r.size.toNat ≤ 8 then 2 ^ r.size.toNat else 1)
  else if 3 ≤ op ∧ op ≤ 6 then (if atomicType op r.type.toNat then typeWidth op r.type.toNat else 1)
  else 1

/-- Whether an operation's bytes leave the decoded range (R30, R57), also where its form is not allowed (R76). -/
def outOfRange (r : ReqFlit) : Bool :=
  let n := spaceSize (Addr.space r.addr) (Addr.tile r.addr)
  decide (n < Addr.off r.addr + opBytes r) ||
  (r.op == 7 &&
    (let g := gatherOf r.payload
     (List.range (min 16 g.count)).any (fun i => decide (n < gatherRow r.payload g (Addr.off r.addr) i + 2 ^ g.shift)) ||
     decide (2 ^ g.shift < (g.first + g.n) * gatherSize r.type.toNat)))

/-- Whether an operation is misaligned (R52, R54). -/
def misaligned (r : ReqFlit) : Bool :=
  let op := r.op.toNat
  let o := Addr.off r.addr
  if (op = 1 ∨ op = 2) ∧ r.size.toNat ≤ 8 then decide (o % (min 64 (2 ^ r.size.toNat)) ≠ 0)
  else if 3 ≤ op ∧ op ≤ 6 ∧ atomicType op r.type.toNat then decide (o % typeWidth op r.type.toNat ≠ 0)
  else false

/-- Whether an opcode, form, type, size or space is not allowed (R51, R54, R55, R152, R153). -/
def notAllowed (r : ReqFlit) : Bool :=
  let op := r.op.toNat
  let sp := Addr.space r.addr
  let ctl := sp == 2 || sp == 3
  !formOk op r.ack ||
  ((op == 1 || op == 2) && (decide (8 < r.size.toNat) || (ctl && r.size != 2 && r.size != 3))) ||
  (decide (3 ≤ op) && decide (op ≤ 6) && (!atomicType op r.type.toNat || sp == 3 ||
    (sp == 2 && ((arrIdx (Addr.off r.addr) (Reg.SYNC_COUNT 0) 32 32).isNone || typeWidth op r.type.toNat != 4 || (op == 3 && r.type != 0) || (op == 4 && r.type != 0 && r.type != 1))))) ||
  (op == 7 && (ctl || decide (5 < r.type.toNat) || !(gatherOf r.payload).valid)) ||
  (op == 8 && sp != 0)

/-- A GET of SRAM or clay. -/
def State.getMem (s : State) (l : Nat) (clay : Bool) (o n : Nat) : State × Reply :=
  let x := s.readMem l clay o n 1
  match x.2.1.code with
  | some c => (x.1, Reply.err c)
  | none => (x.1, Reply.data x.2.1.flags x.2.2)

/-- A PUT of SRAM or clay bytes that touches no ring header (R73, R79, R258). -/
def State.putMem (s : State) (l : Nat) (clay : Bool) (o : Nat) (bs : List Byte) (mover : Bool) : State × Reply :=
  let x := s.partialWrite l clay o bs.length
  if x.2 then (x.1, Reply.err cPoison)
  else if clay && !mover && x.1.recordBusy l o bs.length then (x.1, Reply.err cBusy)
  else (x.1.storeMem l clay o bs, Reply.ok)

/-- Whether a read of a word of control space corrects a single-bit error: in an accumulator word. -/
def Tile.corrects (t : Tile) (o : Nat) : Bool := decide (0x8000 ≤ o) && decide (o < 0xC000) && spGet (fun _ => 0) t.accErr ((o - 0x8000) / 4) == 1

/-- A GET of tile control space: one word or two (R152), with CORRECTED where an error was corrected (R78). -/
def State.getCtl (s : State) (l o n : Nat) : State × Reply :=
  let a := s.ctlRead l o
  let one := (s.ltile l).corrects o
  if n = 4 then (a.1, Reply.data (2 * one.toNat) (toBytes 4 a.2.toNat))
  else
    let b := a.1.ctlRead l (o + 4)
    (b.1, Reply.data (2 * (one || (s.ltile l).corrects (o + 4)).toNat) (toBytes 4 a.2.toNat ++ toBytes 4 b.2.toNat))

/-- The code of two accesses that act one after the other: the one of higher priority. -/
def worse (a b : Nat) : Nat :=
  let rank (c : Nat) : Nat := if c = cOK then 99 else if c = cProtect then 7 else if c = cPoison then 8 else if c = cBusy then 10 else 9
  if rank a ≤ rank b then a else b

/-- A PUT to tile control space: one word or two, a microcode word of 8 bytes whole (R104, R152). Of two words, one that is refused leaves the
other to act, and the code of higher priority is answered (DESIGN CHOICE, log entry 57: R152 has two accesses). -/
def State.putCtl (s : State) (l o n : Nat) (bs : List Byte) : State × Reply :=
  if n = 4 then
    let a := s.ctlWrite l o (wordAt bs 0)
    (a.1, Reply.err a.2)
  else if 0x4000 ≤ o ∧ o < 0x8000 then
    let a := s.ucodeWriteWord l ((o - 0x4000) / 8) (wordAt bs 0) (wordAt bs 4)
    (a.1, Reply.err a.2)
  else
    let a := s.ctlWrite l o (wordAt bs 0)
    let b := a.1.ctlWrite l (o + 4) (wordAt bs 4)
    (b.1, Reply.err (worse a.2 b.2))

/-- An atomic on SYNC[n].COUNT (R144, R145, R153). -/
def State.atomicCtl (s : State) (l n op ty : Nat) (r : ReqFlit) : State × Reply :=
  let old := (s.ltile l).rd (Reg.SYNC_COUNT n)
  let a := atomicArgs r op 4
  let done := Reply.data 0 (toBytes 4 old.toNat)
  if op = 3 then (s.syncAdd l n r.arg0, done)
  else
    match atomicNew op ty old.toNat a.1 a.2.1 a.2.2 with
    | some v =>
      if op = 4 then ((s.onL l (·.wr (Reg.SYNC_COUNT n) (wd v))).syncTest l n, done)
      else (s.syncPutCount l n (wd v), if op = 6 then { done with flags := 8 } else done)
    | none => (s, done)

/-- Apply an operation that has passed the checks on range, alignment and form, to its target in spaces 0b00 to 0b10. -/
def State.doOp (s : State) (l : Nat) (r : ReqFlit) : State × Reply :=
  let o := Addr.off r.addr
  let op := r.op.toNat
  let sp := Addr.space r.addr
  let n := opBytes r
  if op = 8 then s.post l r
  else if op = 7 then s.gather l (sp == 1) o r.type.toNat r.payload
  else if sp = 2 then
    if op = 1 then s.getCtl l o n
    else if op = 2 then s.putCtl l o n (operandOf r n)
    else s.atomicCtl l ((o - Reg.SYNC_COUNT 0) / 32) op r.type.toNat r
  else if op = 1 then s.getMem l (sp == 1) o n
  else if op = 2 then
    if sp = 0 ∧ (s.ltile l).touchesRing o n then s.headerPut l o n r else s.putMem l (sp == 1) o (operandOf r n) (r.srcUnit == 6)
  else if sp = 0 ∧ (s.ltile l).touchesRing o n then s.headerAtomic l o op r.type.toNat r
  else s.atomicMem l (sp == 1) o op r.type.toNat r

/-- Apply an operation to logical tile l (R39, R76). -/
def State.tileApply (s : State) (l : Nat) (r : ReqFlit) : State × Reply :=
  if s.mapState l = 3 then (s, Reply.err cRetired)
  else if !r.anyEpoch && r.epoch.toNat != s.epochOf l then (s, Reply.err cEpoch)
  else if outOfRange r || s.postAddr l r then (s, Reply.err cAddr)
  else if misaligned r then (s, Reply.err cAlign)
  else if notAllowed r then (s, Reply.err cOp)
  else s.doOp l r

/-! ### After it is applied: responses, counts and notices -/

/-- Open or merge a notice record for a failed posted operation of a tile (R84): a failure with NOTICE = 1 opens one, and every later like failure
merges into a record that is held. -/
def State.noteFailure (s : State) (r : ReqFlit) (code : Nat) : State :=
  if !tileUnit r.srcUnit then s
  else
    let hit : Notice → Bool := fun n =>
      n.dstChip == r.srcChip && n.dstTile == r.srcTile && targetKey n.addr == targetKey r.addr && n.op == r.op && n.status == BitVec.ofNat 8 code &&
      decide (s.now < n.time + 10)
    let ns := if s.fab.notices.any hit then s.fab.notices.map (fun n => if hit n then { n with count := min 0xFFFF (n.count + 1) } else n)
      else if !r.notice then s.fab.notices
      else s.fab.notices ++ [{ dstChip := r.srcChip, dstTile := r.srcTile, addr := r.addr, op := r.op, status := BitVec.ofNat 8 code, epoch := r.epoch, count := 1, time := s.now }]
    { s with fab := { s.fab with notices := ns } }

/-- Answer an applied or failed operation: a response for the acknowledged form, else the counts of R81, R82 and R47, and what the push of a
chip block leaves. R84 has the target send the notice: an operation that no target tile answers for, whose role is RETIRED, yields none (DESIGN CHOICE,
log entry 84). -/
def State.complete (s : State) (r : ReqFlit) (fwd : Bool) (y : Reply) : State :=
  let tile := Addr.space r.addr ≠ 3
  let l := Addr.tile r.addr
  if r.ack then
    let big := r.op != 7 && y.status != cOK
    s.respond { prio := effPrio r.prio, epoch := if tile then BitVec.ofNat 8 (s.epochOf l) else 0, status := BitVec.ofNat 8 y.status,
                flags := BitVec.ofNat 8 (y.flags + 4 * fwd.toNat), tag := r.tag, dstChip := r.srcChip, dstTile := r.srcTile, dstUnit := r.srcUnit,
                data0 := y.data0, aux := wd y.aux, payload := if big then [] else y.payload }
  else if y.status = cOK then (s.owe r 1 0).pushDone r true
  else
    let s := (s.owe r 0 1).pushDone r false
    let s := if y.status = cRetired then s else s.noteFailure r y.status
    if !tile then s.count Reg.BLOCK_ERRORS
    else if y.status = cRetired then s.count Reg.XLATE_ERRORS
    else s.onL l (·.countBy (if y.status = cEpoch then Reg.STALE_EVENTS else Reg.POSTED_ERRORS) 1)

/-- A request to a gated or closed tile: ERR_BUSY, and a posted one fails and is counted in GATED_DROPS (R644). -/
def State.gatedAnswer (s : State) (r : ReqFlit) : State :=
  if r.ack then s.respond (failResp r (s.epochOf (Addr.tile r.addr)) cBusy) else (((s.count Reg.GATED_DROPS).owe r 0 1).pushDone r false).noteFailure r cBusy

/-! ### The POST queues (R226) -/

/-- The places of the POST queue of a priority: 16 urgent, 32 normal, 16 bulk. -/
def postPlaces (p : BitVec 2) : Nat := if effPrio p = 1 then 32 else 16

/-- The queued POSTs of a priority, oldest first. -/
def Tile.postsOf (t : Tile) (p : BitVec 2) : List ReqFlit := t.posts.filter (fun h => effPrio h.prio == effPrio p)

/-- Whether the POST queue of a priority is full. -/
def Tile.postsFull (t : Tile) (p : BitVec 2) : Bool := decide (postPlaces p ≤ (t.postsOf p).length)

/-- The POST that is applied next: the oldest of the most urgent queue that holds one. -/
def Tile.nextPost (t : Tile) : Option ReqFlit := (t.postsOf 0 ++ t.postsOf 1 ++ t.postsOf 2).head?

/-- Apply up to k queued POSTs, urgent first; none during the slot clear (R208). -/
def State.drainPosts (l : Nat) : Nat → State → State
  | 0, s => s
  | k + 1, s =>
    match (s.ltile l).nextPost with
    | some r =>
      if (s.ltile l).evClear then s
      else
        let x := (s.onL l (fun t => { t with posts := t.posts.erase r })).tileApply l r
        State.drainPosts l k (x.1.complete r false x.2)
    | none => s

/-- Whether a push is held on the VC of a request at its tile (R141), or its ingress accepts no flit: the POST queue of its priority is full
(R226), or holds a POST back during the slot clear (R208). -/
def Tile.vcHeld (t : Tile) (r : ReqFlit) : Bool :=
  t.held.any (fun h => effPrio h.prio == effPrio r.prio) || t.postsFull r.prio || (t.evClear && !(t.postsOf r.prio).isEmpty)

/-- Whether a request of a chip block to a tile of this chip finds its way free: none of its lane is before it (R68), and neither a push held on its
VC nor a relocation holds it (R88, R141). -/
def State.wayFree (s : State) (r : ReqFlit) : Bool :=
  let l := Addr.tile r.addr
  !(s.fab.inflight ++ s.fab.waiting).any (sameLane r) && (s.tileShut l || !((s.ltile l).vcHeld r || s.mustHold l r))

/-- Apply a request at the tile it addresses and answer it; a push that waits is held (R140), and a posted POST goes through its queue, of which
up to 4 are applied in a cycle (R226). -/
def State.applyTile (s : State) (r : ReqFlit) (fwd : Bool) : State :=
  let l := Addr.tile r.addr
  let s := s.wakeL l
  if r.op = 8 ∧ r.ack = false then State.drainPosts l 4 (s.onL l (fun t => { t with posts := t.posts ++ [r] }))
  else
    let x := s.tileApply l r
    if x.2.held then x.1.onL l (fun t => { t with held := t.held ++ [r], fwdHeld := if fwd then t.fwdHeld ++ [r] else t.fwdHeld })
    else x.1.complete r fwd x.2

/-- Retry what a tile holds for one request VC (R140, R142). -/
def State.retryHeld (s : State) (l : Nat) (prio : BitVec 2) : State :=
  match (s.ltile l).held.find? (fun h => effPrio h.prio == prio) with
  | none => s
  | some h =>
    let x := s.tileApply l h
    if x.2.held then x.1
    else (x.1.onL l (fun t => { t with held := t.held.erase h, fwdHeld := t.fwdHeld.erase h })).complete h ((s.ltile l).fwdHeld.contains h) x.2

/-- EV_CLEAR_DONE (R208): the clear ends and the POSTs held meanwhile are applied, urgent first (R226). -/
def State.evClearDone (s : State) (l : Nat) : State :=
  if (s.ltile l).evClear then State.drainPosts l (s.ltile l).posts.length (s.onL l (fun t => { t with evClear := false })) else s

end Sys2Proof.Machine
end

