-- ==== Sys2Proof/Machine/Load.lean ====
section
/-! DEFINITION. The management core's own reads and writes of the fabric, the failure of an image load, which zeroes what the load wrote, and
requests of chip blocks that waited (R24, R33, R36, R38, R39, R77, R235, R551, R610, R644, R664, R665). -/

namespace Sys2Proof.Machine

/-- The state with the management core changed. -/
def State.onMgmt (s : State) (f : Mgmt → Mgmt) : State := { s with mgmt := f s.mgmt }

/-- A range cut into aligned pieces, each a power of two up to a greatest size. -/
def pieces (most : Nat) : Nat → Nat → List Byte → List (Nat × List Byte)
  | 0, _, _ => []
  | fuel + 1, o, bs =>
    if bs = [] then []
    else
      let n := ([64, 32, 16, 8, 4, 2].find? (fun n => decide (n ≤ most) && decide (n ≤ bs.length) && o % n == 0)).getD 1
      (o, bs.take n) :: pieces most fuel (o + n) (bs.drop n)

/-- The address n bytes on. -/
def addrOn (a : Addr) (n : Nat) : Addr := BitVec.ofNat 40 (a.toNat + n)

/-- What a PUT of the core is for, as its request's `owner` tells: a section of the open load, a write of the running command, or neither: its
answer is then ignored. -/
abbrev putSection : Nat := 0
abbrev putJob : Nat := 1
abbrev putLoose : Nat := 2

/-- A PUT of the management core: SRC_UNIT 12, acknowledged. -/
def State.coreReq (s : State) (anyEpoch : Bool) (prio owner : Nat) (a : Addr) (bs : List Byte) : ReqFlit :=
  { mkReq s 2 true prio a (Nat.log2 bs.length) 0 0xFF 12 (if bs.length ≤ 4 then wordAt bs 0 else 0) (if bs.length ≤ 4 then [] else bs) with
    anyEpoch := anyEpoch, owner := BitVec.ofNat 2 owner }

/-- A GET of the management core of 256 bytes, with the EPOCH_TABLE entry of its target (R36). -/
def State.coreGet (s : State) (prio : Nat) (a : Addr) : ReqFlit :=
  s.stampEpoch { mkReq s 1 true prio a 8 0 0xFF 12 0 [] with owner := BitVec.ofNat 2 putLoose }

/-- One PUT of the core, with its completion code: on a tile of this chip it is applied at once where its way is free; else, and to a block or to
another chip, it goes on its way, and its code comes with the response (R24; State.coreAnswer): the answer is then none. -/
def State.corePut (s : State) (r0 : ReqFlit) : State × Option Nat :=
  let r := s.stampEpoch r0
  let l := Addr.tile r.addr
  match s.issueError r.addr with
  | some e => (s, some e)
  | none =>
    if Addr.chip r.addr ≠ s.chipId.toNat ∨ Addr.space r.addr = 3 ∨ s.wayFree r = false then (s.issue r0, none)
    else if s.tileShut l then (s, some cBusy)
    else
      let x := (s.wakeL l).tileApply l r
      if x.2.held then (s.issue r0, none) else (x.1, some x.2.status)

/-- A range of writes as PUTs: lines of memory, words of 8 bytes elsewhere. -/
def corePieces (a : Addr) (bs : List Byte) : List (Addr × List Byte) :=
  (pieces (if Addr.space a ≤ 1 then 64 else 8) bs.length (Addr.off a) bs).map (fun p => (BitVec.ofNat 40 (a.toNat - Addr.off a + p.1), p.2))

/-- Write bytes of a section from an address on; the answer is the first completion code that is not OK, of those that are known. -/
def State.coreWrite (s : State) (a : Addr) (bs : List Byte) : State × Nat :=
  (corePieces a bs).foldl (fun (x : State × Nat) p =>
    if x.2 = cOK then
      let y := x.1.corePut (x.1.coreReq true 2 putSection p.1 p.2)
      (y.1, y.2.getD cOK)
    else x) (s, cOK)

/-- Whether a GET of the core must wait: at a tile of this chip its way is not free. -/
def State.coreWaits (s : State) (prio : Nat) (a : Addr) : Bool := Addr.chip a == s.chipId.toNat && decide (Addr.space a ≤ 1) && !s.wayFree (s.coreGet prio a)

/-- Read n bytes of SRAM or clay of a tile of this chip, with ANY_EPOCH = 0: none when the range leaves the tile, the tile does not answer or has
another epoch, or a line is poisoned or refuses to be read unwritten. -/
def State.coreRead (s : State) (a : Addr) (n : Nat) : State × Option (List Byte) :=
  let l := Addr.tile a
  if 1 < Addr.space a ∨ (if Addr.space a = 0 then 0x40000 else 0x200000) < Addr.off a + n ∨ s.tileAnswers a = false then (s, none)
  else
    let x := (s.wakeL l).readMem l (Addr.space a == 1) (Addr.off a) n 1
    match x.2.1.code with
    | some _ => (x.1, none)
    | none => (x.1, some x.2.2)

/-- The core's GETs of n lines of another chip, and what it answers, if a route and a link lead there (R33): each GET carries the epoch of
EPOCH_TABLE, and every one fails where the target has another (R36, R39). -/
def State.farLines (s : State) (prio : Nat) (a : Addr) (remote : Option FarRead) (n : Nat) : State × List (Option (List Byte)) :=
  match s.issueError a with
  | some _ => (s, List.replicate n none)
  | none =>
    let t := (List.range ((n + 3) / 4)).foldl (fun s i => s.issue (s.coreGet prio (addrOn a (256 * i)))) s
    match remote with
    | some f =>
      (t, if (s.coreGet prio a).epoch = f.epoch then (List.range n).map (fun i => (f.lines.getD i none).map (takeBytes 64)) else List.replicate n none)
    | none => (t, List.replicate n none)

/-- Lines that were all read, as bytes. -/
def joinLines (ls : List (Option (List Byte))) : Option (List Byte) := if ls.all Option.isSome then some (ls.flatMap (·.getD [])) else none

/-- Whether section writes of the core are not answered yet. -/
def State.corePending (s : State) : Bool :=
  let mine (r : ReqFlit) : Bool := r.srcUnit == 12 && r.owner == BitVec.ofNat 2 putSection
  s.fab.blockOut.any (fun o => o.acked && mine o.req) || s.fab.waiting.any mine

/-- The answers to the core's PUTs for one purpose are of no account any more. -/
def State.dropAnswers (s : State) (owner : Nat) : State :=
  let loose (r : ReqFlit) : ReqFlit := if r.srcUnit == 12 && r.owner == BitVec.ofNat 2 owner then { r with owner := BitVec.ofNat 2 putLoose } else r
  { s with fab := { s.fab with blockOut := s.fab.blockOut.map (fun o => { o with req := loose o.req }), waiting := s.fab.waiting.map loose } }

/-! ### Failure of a load -/

/-- Whether an address lies in the microcode store or in the gate programs of a tile. -/
def loadsAtOnce (a : Addr) : Bool :=
  decide (Addr.space a ≤ 1) ||
  (Addr.space a == 2 && ((decide (0x4000 ≤ Addr.off a) && decide (Addr.off a < 0x8000)) || (decide (0xC000 ≤ Addr.off a) && decide (Addr.off a < 0xC400))))

/-- Zero a range that a load wrote: whole lines of memory, whole words of 8 bytes of the stores. A write that fails leaves the others to be made. -/
def State.zeroRange (s : State) (a : Addr) (n : Nat) : State :=
  let unit := if Addr.space a ≤ 1 then 64 else 8
  let o := Addr.off a / unit * unit
  let zeros := List.replicate ((Addr.off a + n - o + unit - 1) / unit * unit) 0
  (corePieces (BitVec.ofNat 40 (a.toNat - Addr.off a + o)) zeros).foldl (fun s p => (s.corePut (s.coreReq false 2 putLoose p.1 p.2)).1) s

/-- Zero every range that is kept (R665). -/
def State.zeroRanges (s : State) : State :=
  (s.mgmt.ranges.foldl (fun s r => s.zeroRange r.1 r.2) s).onMgmt (fun m => { m with ranges := [] })

/-- Close the open load: MB_STATUS shows none. -/
def State.loadClose (s : State) : State :=
  ((((s.onMgmt (fun m => { m with load := none })).setBit Reg.MB_STATUS 2 false).setBit Reg.MB_STATUS 3 false).setFld Reg.MB_STATUS 19 4 0)

/-- The open load fails: what it wrote is zeroed, held writes are discarded, and it closes (R665). -/
def State.loadFail (s : State) : State :=
  match s.mgmt.load with
  | none => s
  | some _ => ((s.dropAnswers putSection).zeroRanges.loadClose).count Reg.LOADS_FAILED

/-- A PUT of the core is answered: a section write that fails fails the open load (R24, R77, R665), and the running command goes on with its next
write or ends. -/
def State.coreAnswer (s : State) (r : ReqFlit) (status : Nat) : State :=
  if r.srcUnit ≠ 12 then s
  else if r.owner.toNat = putSection then (if status = cOK then s else s.loadFail)
  else if r.owner.toNat = putJob then
    s.onMgmt (fun m => { m with job := m.job.map (fun j => { j with waits := false, code := if j.code = cOK then status else j.code }) })
  else s

/-- The running command issues its writes, each once the one before it is answered, up to one that awaits its answer or that fails. -/
def State.jobSend : Nat → State → State
  | 0, s => s
  | n + 1, s =>
    match s.mgmt.job with
    | some j =>
      match j.todo with
      | p :: rest =>
        if j.waits ∨ j.code ≠ cOK then s
        else
          let x := s.corePut (s.coreReq j.anyEpoch j.prio putJob p.1 p.2)
          State.jobSend n (x.1.onMgmt (fun m => { m with job := some { j with todo := rest, waits := x.2.isNone, code := x.2.getD cOK } }))
      | [] => s
    | none => s

/-! ### Requests of chip blocks that waited (R235, R548, R551) -/

/-- A request that waits goes on, if nothing holds it or one of its source before it. -/
def State.releaseOne (s : State) (r : ReqFlit) : State :=
  if s.fab.waiting.find? (sameSource r) ≠ some r ∨ s.blockHeld r then s
  else
    let s : State := { s with fab := { s.fab with waiting := s.fab.waiting.erase r } }
    match s.issueError r.addr with
    | some e => if r.ack then s.coreAnswer r e else (s.failAtIssue r e).pushDone r false
    | none => s.launch r

/-- The waiting requests that p selects go on as far as they can, in order. -/
def State.releaseWaiting (s : State) (p : ReqFlit → Bool) : State := (s.fab.waiting.filter p).foldl State.releaseOne s

end Sys2Proof.Machine
end

