-- ==== Sys2Proof/Machine/Swaps.lean ====
section
/-! DEFINITION. Context records: swap-in, swap-out, draining, context resets and the fall-back to residency (R252 to R266, R440, R442). -/

namespace Sys2Proof.Machine

/-! ### The record and the state area -/

/-- The key of a stream's record, in clay. -/
def State.recordKey (s : State) (e : Nat) : Nat := clayKey (s.recordPhys e) (Addr.off (s.descAddr e 0x24))

/-- The first home tile and the offset of the state area. -/
def State.areaTile (s : State) (e : Nat) : Nat := s.desc e 0x20 0 8
def State.areaOff (s : State) (e : Nat) : Nat := s.desc e 0x30 0 18

/-- Whether the column that holds a stream's record is faulted. -/
def State.recordFaulted (s : State) (e : Nat) : Bool := wbit (s.col (s.recordPhys e)).status 0

/-- The state mover's accesses to the tiles of stream e's state area and record restart their clocks (R100). -/
def State.moverWakes (s : State) (e : Nat) : State := (s.wakeL (s.areaTile e)).wakeL (s.recordTile e)

/-- Store bytes into a record header; one whose line is poisoned, or whose column refuses it, is left. -/
def State.setHeader (s : State) (e o : Nat) (bs : List Byte) : State :=
  let x := s.partialWrite (s.recordTile e) true (s.recordOff e + o) bs.length
  if x.2 then x.1 else x.1.storeMem (s.recordTile e) true (s.recordOff e + o) bs

/-! ### The pinned core (R262, R263): word j of the core is entry j counted from the first pinned bank -/

/-- Put bytes into the pinned banks of stream e, which LISTEN may have left without their pins. -/
def State.setCore (s : State) (e : Nat) (bs : List Byte) : State :=
  let r := s.run e
  let s := ((s.wakeL r.pinTile).pinBanks r.pinTile r.pinBank r.pinBanks true).onL r.pinTile (fun t => (List.range ((r.pinBytes + 3) / 4)).foldl (fun t j =>
    let k := Reg.ACC (r.pinBank + j / 512) (j % 512)
    { t.wr k (wordAt bs (4 * j)) with accErr := spSet (fun _ => 0) t.accErr (512 * (r.pinBank + j / 512) + j % 512) 0 }) t)
  s.onRun e (fun r => { r with coreIn := true })

/-- Accumulator entry of word j of the pinned core. -/
def StreamRun.entry (r : StreamRun) (j : Nat) : Nat := 512 * (r.pinBank + j / 512) + j % 512

/-- The bytes of the pinned core as they stand in its banks. -/
def State.core (s : State) (e : Nat) : List Byte :=
  let r := s.run e
  takeBytes r.pinBytes ((List.range ((r.pinBytes + 3) / 4)).flatMap (fun j => toBytes 4 ((s.ltile r.pinTile).rd (Reg.ACC 0 (r.entry j))).toNat))

/-- Read the pinned core, each entry checked as any read of it (R442); the answer says that one was uncorrectable. -/
def State.readCore (s : State) (e : Nat) : State × Bool × List Byte :=
  let r := s.run e
  let x := (List.range ((r.pinBytes + 3) / 4)).foldl (fun (a : State × Bool) j =>
    let c := a.1.accCheck r.pinTile (r.entry j)
    (c.1, a.2 || c.2)) (s.wakeL r.pinTile, false)
  (x.1, x.2, s.core e)

/-! ### Swap-in (R255, R257, Table 6.8) -/

/-- What a swap-in makes of the record it finds: whether the state is restored, and whether the next record carries STATE_RESET. -/
def swapOutcome (poisoned : Bool) (flags gen want : Nat) : Bool × Bool :=
  if poisoned then (false, true)
  else if flags.testBit 1 then (false, true)
  else if !flags.testBit 0 then (false, false)
  else if gen = want then (true, false)
  else (false, true)

/-- A stream swapped in from a faulted column keeps a core on the first home tile with banks free, when the unit knows its size (R265): from the
header, where it can be read, and else from the last time that it could. -/
def State.idleFallback (s : State) (e : Nat) : State :=
  let r := s.run e
  if !s.recordFaulted e || decide (r.pinBanks ≠ 0) || decide (coreBanks r.pinBytes = 0) then s
  else
    match (s.homeTiles e).find? (fun l => (s.freeBanks l (coreBanks r.pinBytes)).isSome) with
    | none => s
    | some l => (s.makeResident e l r.pinOff r.pinBytes).1.onRun e (fun r => { r with fallback := true })

/-- SWAP_IN: copy the record into the state area of the home tile and set the state up by its header; a record in a faulted column is
lost to it, and so is one that a column fault kept from being written when the stream went idle (R265). -/
def State.swapIn (s : State) (e : Nat) : State :=
  if (s.run e).swap ≠ .inWaiting ∨ !s.swapTurn e then s
  else
    let s := s.moverWakes e
    let x := s.readMem (s.recordTile e) true (s.recordOff e) 0x8000 1
    let bs := x.2.2
    let want := s.desc e 0x0C 0 16
    let kept := (s.run e).coreIn && (s.run e).stale
    let lost := x.2.1.poisoned || s.recordFaulted e || (s.run e).stale
    let o := swapOutcome lost (natAt bs 4 1) (natAt bs 2 2) want
    let s := x.1.storeAround (s.areaTile e) false (s.areaOff e) (if o.1 then bs else List.replicate 0x8000 0)
    let s := if o.1 then s else s.setHeader e 26 (toBytes 2 0)
    let s := if !o.1 && !lost && (natAt bs 4 1).testBit 0 && !(natAt bs 4 1).testBit 1 then s.setHeader e 2 (toBytes 2 want) else s
    let s := (s.noteHeader e).idleFallback e
    let r := s.run e
    let s := if r.pinBanks ≠ 0 ∧ !r.fallback then s.setHeader e 4 [BitVec.ofNat 8 (natAt bs 4 1 ||| 4)] else s
    let s := if r.pinBanks ≠ 0 ∧ (!r.coreIn ∨ (!o.1 ∧ !kept ∧ !s.recordFaulted e)) then
        s.setCore e (if o.1 then takeBytes r.pinBytes (bs.drop r.pinOff) else List.replicate r.pinBytes 0) else s
    s.onRun e (fun r => { r with swap := .inCopied, isReset := r.isReset || o.2, stale := r.stale && s.recordFaulted e })

/-- SWAP_IN_DONE: the stream becomes ACTIVE, its thread dispatchable. -/
def State.swapInDone (s : State) (e : Nat) : State :=
  if (s.run e).swap ≠ .inCopied then s
  else
    let s := s.onRun e (fun r => { r with swap := .none })
    let s := if s.strState e = stActivating then s.setStr e stActive else s
    ((s.refresh).settleStream e).releaseHome e

/-! ### Swap-out (R256, R263, R266) -/

/-- The bytes of one line of the state area as a swap-out writes it: bytes of the core come from the banks when the whole record is
written, else they stay as the record has them. -/
def State.outLine (s : State) (e i : Nat) (area core : List Byte) (whole : Bool) : List Byte :=
  let r := s.run e
  (List.range 64).map (fun j =>
    let o := 64 * i + j
    if r.pinBanks ≠ 0 ∧ r.coreIn ∧ r.pinOff ≤ o ∧ o < r.pinOff + r.pinBytes then
      (if whole then core.getD (o - r.pinOff) 0 else s.mem.seen true (s.recordKey e + o))
    else area.getD j 0)

/-- Copy lines 1 to 511 of the state area back, until one cannot be read or written: the answer says that all were. -/
def State.outLines (s : State) (e : Nat) (core : List Byte) (whole : Bool) : State × Bool :=
  ((List.range 512).drop 1).foldl (fun (a : State × Bool) i =>
    if a.2 then
      let x := a.1.readMem (s.areaTile e) false (s.areaOff e + 64 * i) 64 1
      if x.2.1.poisoned || x.1.colRefuses (s.recordPhys e) (s.recordOff e / 64 + i) then (x.1, false)
      else (x.1.storeMem (s.recordTile e) true (s.recordOff e + 64 * i) (x.1.outLine e i x.2.2 core whole), true)
    else a) (s, true)

/-- The header of a swap-out (R253, R256 step 3): VALID, FRAME_SEQ and SWAP_TIME, with the recall-cache fields as the state area has them; every
other field stays as the record has it. The answer says that the area's header line could be read. -/
def State.outHeader (s : State) (e : Nat) : State × Bool :=
  let x := s.readMem (s.areaTile e) false (s.areaOff e) 64 1
  if x.2.1.poisoned then (x.1, false)
  else
    let s := x.1.setHeader e 24 ((x.2.2.drop 24).take 4)
    let s := s.setHeader e 8 (toBytes 4 (s.nextSeq e - 1).toNat)
    let s := s.setHeader e 16 (toBytes 8 s.now)
    (s.setHeader e 4 [if (s.run e).pinBanks ≠ 0 ∧ !(s.run e).fallback then 5 else 1], true)

/-- A swap-out in its three steps; whole: resident cores are written too (R261, R266). One that fails leaves RESET_PENDING. In a faulted column it
is suspended: RESET_PENDING is left where the header can be written, and what it would have saved is lost, but for a resident core (R256, R265). -/
def State.swapOutNow (s0 : State) (e : Nat) (listen : Bool) : State :=
  let s := s0.moverWakes e
  if s.recordFaulted e then
    (s.setHeader e 4 [2]).onRun e (fun r => { r with stale := true, swap := .outDone, coreIn := r.coreIn && !listen })
  else
    let whole := listen || (s.run e).fallback || (s.run e).wholeDue
    let x := s.partialWrite (s.recordTile e) true (s.recordOff e + 4) 1
    if x.2 then x.1.onRun e (fun r => { r with swap := .outDone })
    else
      let s := x.1.storeMem (s.recordTile e) true (s.recordOff e + 4) [2]
      let c := if whole && (s.run e).coreIn then s.readCore e else (s, false, [])
      let y := if c.2.1 then (c.1, false) else c.1.outLines e c.2.2 whole
      let z := if y.2 then y.1.outHeader e else y
      let s := if z.2 then z.1.onRun e (fun r => { r with wholeDue := false }) else z.1
      let s := if (s.run e).fallback then s.unpin e else s
      s.onRun e (fun r => { r with swap := .outDone, coreIn := r.coreIn && !listen })

/-- LISTEN entry writes the core that an idle stream keeps in banks into its record (R261); one that cannot be written is lost with the record's
state. -/
def State.coreOut (s : State) (e : Nat) : State :=
  let r := s.run e
  if r.pinBanks = 0 ∨ !r.coreIn then s
  else
    let c := (s.moverWakes e).readCore e
    let x := c.1.partialWrite (s.recordTile e) true (s.recordOff e + r.pinOff) r.pinBytes
    let bad := x.2 || c.2.1
    let s := if bad then x.1 else x.1.storeMem (s.recordTile e) true (s.recordOff e + r.pinOff) c.2.2
    s.onRun e (fun r => { r with coreIn := false, stale := r.stale || bad })

/-- SWAP_OUT, when one waits. -/
def State.swapOut (s : State) (e : Nat) : State :=
  if (s.run e).swap = .outWaiting ∧ s.swapTurn e then (s.swapOutNow e false).refresh else s

/-- DRAIN_DONE: the last record due is written; the stream swaps out, if it was ever swapped in, and returns to REGISTERED. -/
def State.drainDone (s : State) (e : Nat) : State :=
  let s := s.settleStream e
  if s.strState e ≠ stDraining ∨ (s.run e).frames ≠ [] then s
  else
    match (s.run e).swap with
    | .inCopied => s
    | .none => s
    | .outWaiting => if s.swapTurn e then (s.swapOutNow e false).toRegistered e else s
    | .inWaiting => s.toRegistered e
    | .outDone => s.toRegistered e

/-! ### Context reset (R440, R442) -/

/-- CONTEXT_RESET: after the frame end, the state area of every home tile, the poisoned lines and the pinned core are zeroed, and the
cache fields of the header are 0. -/
def State.contextReset (s : State) (e : Nat) : State :=
  let due := s.integ.due.filter (fun d => d.entry == e && d.ripe)
  if due = [] then s
  else
    let s : State := { s with integ := { s.integ with due := s.integ.due.filter (fun d => !(d.entry == e && d.ripe)) } }
    let s := (s.homeTiles e).foldl (fun s l => s.moverStore l false (s.areaOff e) (List.replicate 0x8000 0)) (s.moverWakes e)
    let s := due.foldl (fun s d => match d.line with | some (clay, l, line) => s.zeroLine l clay line | none => s) s
    let s := if (s.run e).pinBanks ≠ 0 then s.setCore e (List.replicate (s.run e).pinBytes 0) else s
    let s := s.setHeader e 24 (toBytes 4 0)
    ((s.onRun e (fun r => { r with isReset := true })).count Reg.CONTEXT_RESETS).releaseHome e

/-! ### Fall-back to residency (R265, R266) -/

/-- RESIDENCY_FALLBACK: at a frame boundary, an active stream of a faulted column moves its core into pinned banks of the first tile of its
home group that has them free. -/
def State.residencyFallback (s : State) (e : Nat) : State :=
  let r := s.run e
  if r.fallDue ≠ .ripe ∨ s.strState e ≠ stActive then s
  else
    let s := s.onRun e (fun r => { r with fallDue := .none })
    if r.pinBanks ≠ 0 ∨ coreBanks r.pinBytes = 0 then s
    else
      match (s.homeTiles e).find? (fun l => (s.freeBanks l (coreBanks r.pinBytes)).isSome) with
      | none => s
      | some l =>
        let s := (s.makeResident e l r.pinOff r.pinBytes).1
        let x := s.readMem (s.areaTile e) false (s.areaOff e + r.pinOff) r.pinBytes 1
        (x.1.setCore e x.2.2).onRun e (fun r => { r with fallback := true })

/-- A column has become faulted: its active streams, and those whose swap-in has read it already, fall back at their next frame boundary, and the
next swap-out of each of its streams after the fault writes the whole record. -/
def State.fallBackDue (s : State) (p : Nat) : State :=
  (s.liveStreams.filter (fun e => s.recordPhys e == p)).foldl (fun s e =>
    let up := s.strState e == stActive || (s.strState e == stActivating && (s.run e).swap != .inWaiting)
    s.onRun e (fun r => { r with wholeDue := true, fallDue := if up then .noted else r.fallDue })) s

/-! ### Commands -/

/-- DRAIN_DONE. -/
def execDrainDone (e : Fin 2048) (s : State) : Host.Outcome State Fault Refusal := .next (s.drainDone e)
/-- SWAP_IN. -/
def execSwapIn (e : Fin 2048) (s : State) : Host.Outcome State Fault Refusal := .next (s.swapIn e)
/-- SWAP_IN_DONE. -/
def execSwapInDone (e : Fin 2048) (s : State) : Host.Outcome State Fault Refusal := .next (s.swapInDone e)
/-- SWAP_OUT. -/
def execSwapOut (e : Fin 2048) (s : State) : Host.Outcome State Fault Refusal := .next (s.swapOut e)
/-- CONTEXT_RESET. -/
def execContextReset (e : Fin 2048) (s : State) : Host.Outcome State Fault Refusal := .next (s.contextReset e)
/-- RESIDENCY_FALLBACK. -/
def execResidencyFallback (e : Fin 2048) (s : State) : Host.Outcome State Fault Refusal := .next (s.residencyFallback e)

end Sys2Proof.Machine
end

