-- ==== Sys2Proof/Machine/Reloc.lean ====
section
/-! DEFINITION. Physical tiles and their roles: MAP_CMD, relocation, failure takeover, retirement, repair reports, and what a change of a
tile's calibration does to admission (R42 to R48, R88 to R90, R334, R453, R576 to R588, R592 to R594, R635). -/

namespace Sys2Proof.Machine

/-! ### Life cycle state (R621, Table 14.18) -/

/-- The bits set in a field of a word. -/
def ones (w : Word) (hi lo : Nat) : Nat := ((List.range (hi + 1 - lo)).filter (fun i => wbit w (lo + i))).length

/-- Life cycle states. -/
abbrev lcBlank : Nat := 0
abbrev lcProvision : Nat := 1
abbrev lcField : Nat := 2
abbrev lcService : Nat := 3
abbrev lcScrapped : Nat := 4

/-- LC_STATE.STATE as it was decoded at fuse load. -/
def State.lcState (s : State) : Nat := s.fld Reg.LC_STATE 2 0

/-- The state that the fuses spell. -/
def lcDecode (fuses : Word) (rowFails : Bool) : Nat :=
  if rowFails || wbit fuses 18 then lcScrapped
  else if !wbit fuses 0 then lcBlank
  else if !wbit fuses 1 then lcProvision
  else if ones fuses 17 10 < ones fuses 9 2 then lcService
  else lcField

/-! ### Admission frequency (R334, R631, R635) -/

/-- The streams charged to a tile whose contracts are not broken. -/
def State.chargedTo (s : State) (l : Nat) : List Nat :=
  s.liveStreams.filter (fun e => !s.broken e && (s.chargedTiles (s.run e).charges).contains l)

/-- Whether some check of a stream fails with the charges of all unbroken streams (R334), with what other chips last answered. -/
def State.recheckFails (s : State) (e : Nat) : Bool :=
  let v := s.cu.view
  let cs := s.liveCharges
  s.chargeFails v (s.run e).charges cs (s.insts e) != [] ||
    s.latencyFails v cs ((s.otherUrgent e).filter (fun j => !s.broken j)) e != []

/-- The stream to break first: the highest class, and in it the latest activation. -/
def State.firstBroken (s : State) (es : List Nat) : Option Nat :=
  es.foldl (fun a e => match a with
    | none => some e
    | some b => if s.strClass b < s.strClass e ∨ (s.strClass b = s.strClass e ∧ (s.run b).order < (s.run e).order) then some e else some b) none

/-- Break with CLOCK until every check of the streams charged to a tile holds; n bounds the breaks. -/
def State.recheck : Nat → Nat → State → State
  | 0, _, s => s
  | n + 1, l, s =>
    let es := s.chargedTo l
    if es.any s.recheckFails then
      match s.firstBroken (es.filter (fun e => s.strClass e ≤ 2)) with
      | some e => State.recheck n l (s.breakStream e brClock)
      | none => s
    else s

/-- ADMIT_MHZ of logical tile l as CAL now gives it; a fall is rechecked. -/
def State.admitUpdate (s : State) (l : Nat) : State :=
  let new := min 1000 (s.cal (s.physOf l) (if 240 ≤ l then 2 else 3) * 88 / 100)
  let old := s.fld (Reg.TILE_F l) 9 0
  let s := s.setFld (Reg.TILE_F l) 9 0 new
  if new < old then State.recheck (s.chargedTo l).length l s else s

/-- Set CAL[p][v]; ADMIT_MHZ of the tile's role follows. -/
def State.setCal (s : State) (p v m : Nat) : State :=
  let s := s.setFld (Reg.CAL p (v / 2)) (16 * (v % 2) + 15) (16 * (v % 2)) m
  match s.logicalOf p with
  | some l => s.admitUpdate l
  | none => s

/-- DROOP_CAP[p][v]: 1,150 when none is set (R632). -/
def State.droopCap (s : State) (p v : Nat) : Nat := let c := spGet (fun _ => 0) s.pwr.droopCap (4 * p + v); if c = 0 then 1150 else c

/-- Rewrite a tile's V/f record (R631, R632). -/
def State.journalVf (s : State) (p : Nat) : State :=
  s.deviceRecord .journal 1 (wd (0x8C000000 + p))
    ((List.range 4).flatMap (fun v => toBytes 2 (s.cal p v)) ++ (List.range 4).flatMap (fun v => toBytes 2 (s.droopCap p v)))

/-! ### Physical tiles (R576, R577) -/

abbrev phInRole : Nat := 0
abbrev phFree : Nat := 1
abbrev phTesting : Nat := 2
abbrev phRetired : Nat := 3

/-- PHYS_STATUS.STATE. -/
def State.phys (s : State) (p : Nat) : Nat := s.fld (Reg.PHYS_STATUS p) 1 0

/-- Set PHYS_STATUS.STATE. -/
def State.setPhys (s : State) (p v : Nat) : State := s.setFld (Reg.PHYS_STATUS p) 1 0 v

/-- PHYS_STATUS.UNTESTED. -/
def State.untested (s : State) (p : Nat) : Bool := s.bit (Reg.PHYS_STATUS p) 2

/-- The physical tiles of a row. -/
def rowTiles (r : Nat) : List Nat := (List.range 17).map (fun c => 17 * r + c)

/-- Whether a relocation or takeover has chosen a tile as its destination. -/
def State.chosen (s : State) (p : Nat) : Bool := s.fab.relocs.any (fun c => c.dst == p)

/-- The row's FREE tile that no relocation has chosen. -/
def State.freeTile (s : State) (r : Nat) : Option Nat := (rowTiles r).find? (fun p => s.phys p == phFree && !s.chosen p)

/-- The row's TESTING tile that no takeover has chosen. -/
def State.testingTile (s : State) (r : Nat) : Option Nat := (rowTiles r).find? (fun p => s.phys p == phTesting && !s.chosen p)

/-- The state with the peal controller changed. -/
def State.onPeal (s : State) (f : Peal → Peal) : State := { s with peal := f s.peal }

/-- Whether a peal step of a row is in progress. -/
def State.stepping (s : State) (r : Nat) : Bool :=
  s.fab.relocs.any (fun c => c.peal && c.src / 17 == r) || s.peal.tests.any (fun t => t.step && t.phys / 17 == r)

/-- A peal step, if one ran, is over without a test; a STEP command ends with it. -/
def State.stepOver (s : State) (r : Nat) : State :=
  match s.peal.stepCmd with
  | some (q, true) => if q = r then (s.onPeal (fun c => { c with stepCmd := none })).setBit Reg.BIST_STATUS 0 false else s
  | _ => s

/-- A test is over: with that of a peal step the step is, and with that of the host its command is, and has passed or not (R600). -/
def State.testEnds (s : State) (t : PealTest) (pass : Bool) : State :=
  let s := if t.step then s.stepOver (t.phys / 17) else s
  if t.origin = 2 then (s.setBit Reg.BIST_STATUS 0 false).setBit Reg.BIST_STATUS 4 pass else s

/-- The test of a tile ends without a result (R585): the tile may take a role, UNTESTED. -/
def State.stopTest (s : State) (p : Nat) : State :=
  let ts := s.peal.tests.filter (fun t => t.phys == p)
  let s := s.onPeal (fun c => { c with tests := c.tests.filter (fun t => t.phys != p) })
  ts.foldl (fun s t => s.testEnds t false) ((s.setPhys p phFree).setBit (Reg.PHYS_STATUS p) 2 true)

/-! ### Repair reports, journal, retirement (R592 to R594) -/

/-- Append a repair entry (Table 17.3); the ring behaves as the stale ring. -/
def State.repairEntry (s : State) (p mem act addr bit origin : Nat) : State :=
  let head := (s.rd Reg.REPAIR_HEAD).toNat
  let n := (s.rd Reg.REPAIR_HEAD - s.rd Reg.REPAIR_TAIL).toNat
  if n < 64 then
    let bs := toBytes 2 p ++ toBytes 1 mem ++ toBytes 1 act ++ toBytes 4 addr ++ toBytes 2 bit ++ toBytes 1 origin ++ toBytes 5 0 ++
      toBytes 8 s.now ++ toBytes 8 0
    let s := (List.range 8).foldl (fun s i => s.wr (Reg.REPAIR (head % 64) i) (wordAt bs (4 * i))) s
    s.upd Reg.REPAIR_HEAD (· + 1)
  else s.count Reg.REPAIR_LOST

/-- The rows of a tile's SRAM that field repairs have moved to spare rows. -/
def State.repaired (s : State) (p : Nat) : List Nat := spGet (fun _ => []) s.peal.rows p

/-- Rewrite a tile's repair record (Table 17.4). -/
def State.journalTile (s : State) (p : Nat) : State :=
  let rows := s.repaired p
  let ret := s.phys p == phRetired
  s.deviceRecord .journal 1 (wd (0x8E000000 + p))
    (toBytes 2 p ++ toBytes 1 ret.toNat ++ toBytes 1 (s.fld (Reg.PHYS_STATUS p) 7 4) ++
     (List.range 16).flatMap (fun i => toBytes 2 (rows.getD i 0xFFFF)) ++ toBytes 4 0)

/-- Retire a physical tile (R592), with its repair entry. -/
def State.retireTile (s : State) (p cause mem addr bit origin : Nat) : State :=
  let s := s.onPeal (fun c => { c with tests := c.tests.filter (fun t => t.phys != p) })
  let s := s.onTile p (fun t => t.setBit Reg.CLK_STATUS 10 false)
  let s := (s.setPhys p phRetired).setFld (Reg.PHYS_STATUS p) 7 4 cause
  let s := (s.count Reg.TILES_RETIRED).raiseInt 17
  let s := s.repairEntry p mem 2 addr bit origin
  (s.journalTile p).logEvent 3 1 (wd (p + 2 ^ 25))

/-! ### Copies (R582, R703) -/

/-- The lines of a tile in which an undetected error lies. -/
def Memory.badLines (m : Memory) (clay : Bool) (p : Nat) : List Nat :=
  let n := if clay then 0x200000 else 0x40000
  ((if clay then m.clayErr else m.sramErr).filterMap (fun e =>
    if p * n / 8 ≤ e.1 ∧ e.1 < (p + 1) * n / 8 then some (e.1 / 8 - p * n / 64) else none)).eraseDups

/-- A copy reads every line of tile p, which holds or held logical tile l, and its bits as any read does (R433, R703), and wakes its banks (R425); a
line of a faulted column arrives poisoned. -/
def State.copyChecks (s : State) (l p : Nat) : State :=
  [false, true].foldl (fun s clay =>
    (s.mem.badLines clay p).foldl (fun s ln => (s.checkLine l p clay ln 2).1) (s.metaReads clay (p * tileLines clay) (tileLines clay)))
    (s.wakeBanks p true 0 0x200000)

/-- One sparse map with the keys of [lo, lo + n) moved to [new, new + n), whose old entries go. -/
def spMove {α : Type} [DecidableEq α] (d : Nat → α) (m : Sparse α) (lo new n : Nat) : Sparse α :=
  let kept := m.filter (fun e => decide (e.1 < new) || decide (new + n ≤ e.1))
  spSetAll d kept ((m.filter (fun e => decide (lo ≤ e.1) && decide (e.1 < lo + n))).map (fun e => (e.1 - lo + new, e.2)))

/-- Copy the SRAM and clay of physical tile a to b, with written bits, poison bits and errors. -/
def Memory.copyTile (m : Memory) (a b : Nat) : Memory :=
  { sram := spMove (fun _ => 0) m.sram (a * 0x40000) (b * 0x40000) 0x40000
    clay := spMove (fun _ => 0) m.clay (a * 0x200000) (b * 0x200000) 0x200000
    sramWr := spMove (fun _ => false) m.sramWr (a * 0x1000) (b * 0x1000) 0x1000
    clayWr := spMove (fun _ => false) m.clayWr (a * 0x8000) (b * 0x8000) 0x8000
    sramPo := spMove (fun _ => false) m.sramPo (a * 0x1000) (b * 0x1000) 0x1000
    clayPo := spMove (fun _ => false) m.clayPo (a * 0x8000) (b * 0x8000) 0x8000
    sramErr := spMove (fun _ => 0) m.sramErr (a * 0x8000) (b * 0x8000) 0x8000
    clayErr := spMove (fun _ => 0) m.clayErr (a * 0x40000) (b * 0x40000) 0x40000 }

/-- The copy of tile a reaches tile b: its banks wake, and the bits of its lines are written anew. -/
def State.copyTo (s : State) (a b : Nat) : State :=
  (((s.wakeBanks b true 0 0x200000).onMem (fun m => m.copyTile a b)).metaAnew false (b * 0x1000) 0x1000).metaAnew true (b * 0x8000) 0x8000

/-- After a copy out of a faulted column: the written lines that could not be read arrive poisoned, and their class is handled (R453); the column
that was read counts them (R703). -/
def State.faultedLines (s : State) (l a b : Nat) : State :=
  let lns := (s.mem.writtenLines b).filter (fun ln => s.colRefuses a ln && !s.mem.poison true (b * 0x8000 + ln))
  lns.foldl (fun s ln => s.newPoisonFrom a l b true ln 2) s

/-- A tile that holds no role: fresh, but for its clock and oscillators. -/
def Tile.bare (t : Tile) : Tile := { Tile.reset.wr Reg.CLK_STATUS (t.rd Reg.CLK_STATUS) with spareBad := t.spareBad }

/-- A tile whose power gate opens: nothing is left but its clock's setting, which stops, its oscillators, and the snapshot words and stamp, which keep
their values (R568, R643). -/
def Tile.gatedOff (t : Tile) : Tile :=
  let b := t.bare.setBit Reg.CLK_STATUS 10 false
  ([Reg.SNAP_STAMP_LO, Reg.SNAP_STAMP_HI] ++ (List.range 18).map Reg.SNAPSHOT).foldl (fun b o => b.wr o (t.rd o)) b

/-- The state of a tile on another tile's silicon: everything but the clock and the oscillators. -/
def Tile.movedTo (t b : Tile) : Tile := { t.wr Reg.CLK_STATUS (b.rd Reg.CLK_STATUS) with spareBad := b.spareBad }

/-! ### Relocation (R88 to R90, R582, R583) -/

/-- Replace or drop the relocation of a logical tile. -/
def State.setReloc (s : State) (l : Nat) (c : Option Reloc) : State :=
  { s with fab := { s.fab with relocs := s.fab.relocs.filter (fun x => x.logical != l) ++ c.toList } }

/-- Set TILE_MAP.STATE. -/
def State.setMap (s : State) (l v : Nat) : State := s.setFld (Reg.TILE_MAP l) 26 24 v

/-- A move of a role that has just started. -/
def newReloc (l src dst : Nat) (takeover peal host : Bool) : Reloc :=
  { logical := l, src := src, dst := dst, pass := 0, paused := false, takeover := takeover, holding := false, peal := peal, host := host, fwd := [] }

/-- Start a relocation of logical tile l to physical tile q. -/
def State.startReloc (s : State) (l q : Nat) (peal host : Bool) : State :=
  (s.setMap l 1).setReloc l (some (newReloc l (s.physOf l) q false peal host))

/-- MAP_CMD RELOCATE ends: BUSY falls. -/
def State.mapDone (s : State) (c : Reloc) : State := if c.host then s.setBit Reg.MAP_STATUS 0 false else s

/-- The fault of a column ends (R453). -/
def State.endFault (s : State) (p : Nat) : State := s.onCol p (fun c => { c with status := wSetFld (wSetFld c.status 2 0 0) 11 8 0 })

/-- Give up a relocation (R583): the role stays where it is; that of a faulted column waits for a free tile again (R453). -/
def State.abandon (s : State) (c : Reloc) : State :=
  let s := ((s.setMap c.logical 0).setReloc c.logical none).count Reg.PEAL_ABORTS
  let s := if wbit (s.col c.src).status 0 ∧ !s.peal.cols.contains c.logical then s.onPeal (fun p => { p with cols := p.cols ++ [c.logical] }) else s
  let s := s.mapDone c
  if c.peal then
    let r := c.src / 17
    (s.onPeal (fun p => { p with prev := spSet (fun _ => none) p.prev r (some ((c.src + 16 - 17 * r) % 17)) })).stepOver r
  else s

/-- Whether the limiter lowers clocks. -/
def State.limiting (s : State) : Bool := s.bit Reg.PWR_STATUS 6

/-- Whether a request goes to a logical tile of this chip. -/
def State.goesTo (s : State) (l : Nat) (r : ReqFlit) : Bool :=
  Addr.chip r.addr == s.chipId.toNat && Addr.space r.addr != 3 && Addr.tile r.addr == l

/-- A role without a tile (R587): streams homed on it lose it, and streams with an instance on it lose coverage. -/
def State.roleLost (s : State) (l : Nat) : State :=
  let s := s.breakAll brTileLost (fun e => s.inHome e l)
  s.breakAll brCoverage (fun e => (s.strServed e || s.strState e == stSuspended) && !s.inHome e l && ((s.insts e).flatMap Inst.tiles).contains (s.chipId.toNat, l))

/-- The destination of a failure takeover of logical tile l from physical tile p: the row's free tile, the tile under test, whose test stops, or
the victim of the copy of another role in the row for which no takeover waits yet, unless its column is faulted; without one the role is lost (R585,
R587, Table 17.2). -/
def State.chooseSpare (s : State) (l p : Nat) (host : Bool) : State :=
  let r := p / 17
  let start (s : State) (q : Nat) : State := s.setReloc l (some (newReloc l p q true false host))
  match s.freeTile r with
  | some q => start s q
  | none =>
    match s.testingTile r with
    | some q => start (s.stopTest q) q
    | none =>
      match s.fab.relocs.find? (fun c => !c.takeover && c.src / 17 == r && c.src != p && !wbit (s.col c.src).status 0 && !s.chosen c.src) with
      | some c => start s c.src
      | none =>
        let s := (s.retireTile p 3 6 0 0xFFFF 1).roleLost l
        if host then s.setBit Reg.MAP_STATUS 0 false else s

/-- Whether a takeover's destination is no longer to be had: it has failed or is retired, or it holds a role that no copy takes from it. -/
def State.destGone (s : State) (c : Reloc) : Bool :=
  (s.tile c.dst).spareBad || s.phys c.dst == phRetired || (s.phys c.dst == phInRole && !s.fab.relocs.any (fun x => !x.takeover && x.src == c.dst))

/-- Takeovers whose destination is no longer to be had choose again. -/
def State.rechoose (s : State) : State :=
  (s.fab.relocs.filter (fun c => c.takeover && s.destGone c)).foldl (fun s c => (s.setReloc c.logical none).chooseSpare c.logical c.src c.host) s

/-- A copy whose destination fails is given up, and the destination retired (Table 17.2). -/
def State.copyFailed (s : State) (c : Reloc) : State := ((s.abandon c).retireTile c.dst 3 6 0 0xFFFF 1).rechoose

/-- RELOCATION_SWITCH: the last lines are copied and the map switches in one step; requests under way to the old tile are forwarded. -/
def State.relocSwitch (s : State) (l : Nat) : State :=
  match s.relocOf l with
  | none => s
  | some c =>
    if c.takeover ∨ !c.holding ∨ s.mapState l ≠ 1 ∨ (s.tile c.src).spareBad then s
    else if (s.tile c.dst).spareBad then s.copyFailed c
    else
      let s := (s.copyChecks l c.src).copyTo c.src c.dst
      let a := s.tile c.src
      let b := s.tile c.dst
      let s := (s.setTile c.dst (a.movedTo b)).setTile c.src a.bare
      let s := s.setFld (Reg.TILE_MAP l) 8 0 c.dst
      let s := (s.setMap l 2).setPhys c.dst phInRole
      let s := s.faultedLines l c.src c.dst
      let s := s.setReloc l (some { c with holding := false, fwd := s.fab.inflight.filter (s.goesTo l) })
      s.admitUpdate l

/-- Start a peal test on a tile. -/
def State.startTest (s : State) (p origin : Nat) (seed : Option Word) (step unretire : Bool) : State :=
  (s.setPhys p phTesting).onPeal (fun c => { c with
    tests := c.tests ++ [{ phys := p, origin := origin, slice := 0, elem := 0, seed := seed, sigs := [], step := step, unretire := unretire,
                           spared := false, fixed := [] }] })

/-- Relocate the logical tiles of columns still faulted that a free tile can take (R453); a test on the row's free tile stops (R585). -/
def State.relocateFaulted (s : State) : State :=
  let s := s.onPeal (fun c => { c with cols := c.cols.filter (fun l => wbit (s.col (s.physOf l)).status 0) })
  s.peal.cols.foldl (fun s l =>
    let r := s.physOf l / 17
    if s.mapState l ≠ 0 then s
    else
      let go (s : State) (q : Nat) : State := (s.startReloc l q false false).onPeal (fun c => { c with cols := c.cols.filter (· != l) })
      match s.freeTile r with
      | some q => go s q
      | none =>
        match s.testingTile r with
        | some q => go (s.stopTest q) q
        | none => s) s

/-- COPY_PASS: a pass ends with so many lines written behind it. -/
def State.copyPass (s : State) (l left : Nat) : State :=
  match s.relocOf l with
  | none => s
  | some c =>
    if c.takeover ∨ c.holding ∨ s.mapState l ≠ 1 then s
    else
    let s := (s.onTile c.src Tile.wake).onTile c.dst Tile.wake
    if (s.tile c.dst).spareBad then s.copyFailed c
    else if c.paused ∧ s.limiting then s
    else if left ≤ 64 then s.setReloc l (some { c with pass := c.pass + 1, holding := true })
    else if 8 ≤ c.pass + 1 then (s.abandon c).rechoose.relocateFaulted
    else s.setReloc l (some { c with pass := c.pass + 1, paused := s.limiting })

/-- RELOCATION_DONE: every drain marker has passed. The old tile is retired when its column is faulted, whose fault ends with it (R453), is tested
after a peal step unless a takeover waits for it (R585), and is otherwise free and untested; its lines keep their written and poison bits (R434). -/
def State.relocDone (s : State) (l : Nat) : State :=
  match s.relocOf l with
  | none => s
  | some c =>
    if c.takeover ∨ s.mapState l ≠ 2 ∨ c.fwd ≠ [] then s
    else
      let s := ((s.setMap l 0).setReloc l none).mapDone c
      let s := if wbit (s.col c.src).status 0 then
          (let s := (s.retireTile c.src 4 4 (wfld (s.col c.src).status 11 8 * 0x20000) 0xFFFF 1).endFault c.src
           if c.peal then s.stepOver (c.src / 17) else s)
        else if c.peal ∧ !s.chosen c.src then s.startTest c.src 1 none true false
        else
          (let s := (s.setPhys c.src phFree).setBit (Reg.PHYS_STATUS c.src) 2 true
           if c.peal then s.stepOver (c.src / 17) else s)
      s.rechoose.relocateFaulted

/-! ### MAP_CMD (R42 to R48) -/

/-- A MAP_CMD that runs: ignored while BUSY; ERR is cleared. -/
def State.mapCmd (s : State) (f : State → Nat → State) : State :=
  if s.bit Reg.MAP_STATUS 0 then s else f (s.setFld Reg.MAP_STATUS 3 1 0) (s.fld Reg.MAP_ARG 7 0)

/-- BUMP_EPOCH starts, or is refused. -/
def State.bumpEpoch (s : State) : State :=
  s.mapCmd (fun s l =>
    if s.mapState l ≠ 0 then s.setFld Reg.MAP_STATUS 3 1 1
    else
      match spGet (fun _ => none) s.fab.lastBump l with
      | some t => if s.now < t + 1000 then s.setFld Reg.MAP_STATUS 3 1 2
        else State.setBit { s with fab := { s.fab with bump := some (Fin.ofNat 256 l) } } Reg.MAP_STATUS 0 true
      | none => State.setBit { s with fab := { s.fab with bump := some (Fin.ofNat 256 l) } } Reg.MAP_STATUS 0 true)

/-- BUMP_EPOCH_DONE: the new epoch is in effect. -/
def State.bumpDone (s : State) : State :=
  match s.fab.bump with
  | none => s
  | some l =>
    let e := (s.epochOf l + 1) % 256
    let s := (s.setFld (Reg.TILE_MAP l) 23 16 e).setFld Reg.MAP_STATUS 15 8 e
    let s := s.setBit Reg.MAP_STATUS 0 false
    { s with fab := { s.fab with bump := none, lastBump := spSet (fun _ => none) s.fab.lastBump l (some s.now) } }

/-- RELOCATE: the host's is ignored and recorded outside SERVICE (R48). -/
def State.relocate (s : State) (o : Origin) (src : AuditSrc) : State :=
  if o = .host ∧ s.lcState ≠ lcService then
    if s.auditRefuses then s.auditRefused
    else s.auditPut (s.auditPayload 2 src (blockTarget 7 0x2000) 0 2 (s.rd Reg.MAP_ARG)) none
  else
    s.mapCmd (fun s l =>
      let q := s.fld Reg.MAP_ARG 24 16
      if s.mapState l ≠ 0 then s.setFld Reg.MAP_STATUS 3 1 1
      else if q / 17 ≠ l / 16 ∨ 272 ≤ q then s.setFld Reg.MAP_STATUS 3 1 3
      else if s.phys q = phTesting then s.setFld Reg.MAP_STATUS 3 1 4
      else if s.phys q ≠ phFree ∨ s.chosen q then s.setFld Reg.MAP_STATUS 3 1 3
      else (s.startReloc l q false true).setBit Reg.MAP_STATUS 0 true)

/-! ### Failure takeover (R584 to R588) -/

/-- Answer a request that a failed tile has not applied. -/
def State.retiredAnswer (s : State) (r : ReqFlit) : State :=
  if r.ack then s.respond (failResp r (s.epochOf (Addr.tile r.addr)) 0x07) else ((s.count Reg.XLATE_ERRORS).owe r 0 1).pushDone r false

/-- Drain a failed tile, which stands still: what had not been applied fails; what its interface had accepted goes on its way. -/
def State.drainTile (s : State) (l p : Nat) : State :=
  let t := s.tile p
  let rs := s.fab.inflight.filter (s.goesTo l) ++ t.held ++ t.posts
  let s : State := { s with fab := { s.fab with inflight := s.fab.inflight.filter (fun r => !s.goesTo l r) ++ t.router ++ t.chainWait } }
  let s := s.onTile p (fun t =>
    (List.range 4).foldl (fun t i => t.setTstate i tIdle)
      { t with held := [], fwdHeld := [], posts := [], router := [], moved := [], chainWait := [], spikes := [], cursors := [], jobs := [] })
  rs.foldl (fun s r => s.retiredAnswer r) s

/-- FAILURE_TAKEOVER: the role of a tile whose oscillators have failed is retired and drained, and a destination is chosen: the running
copy's own, or one of the row's. -/
def State.takeover (s : State) (l : Nat) : State :=
  let p := s.physOf l
  if !(s.tile p).spareBad ∨ s.mapState l = 2 ∨ s.mapState l = 3 then s
  else
    match s.relocOf l with
    | some c =>
      let s := (((if c.peal then s.stepOver (p / 17) else s).setMap l 3).drainTile l p).setReloc l (some (newReloc l p c.dst true false c.host))
      s.rechoose
    | none => (((s.setMap l 3).drainTile l p).chooseSpare l p false).rechoose

/-- The words of tile control space that a takeover copies: what is RW, but for thread registers and accumulators; T_CONFIG is copied with CLASS, and
SYNC_CFG with C0 (R584, R586). -/
def takeoverWord (e : Nat × Word) : Option (Nat × Word) :=
  if Reg.S_REG 0 0 ≤ e.1 ∧ e.1 < 0x4000 ∧ (e.1 - 0x2000) % 0x800 ≥ 0x100 then none
  else if Reg.ACC 0 0 ≤ e.1 ∧ e.1 < Reg.GATE_PROG 0 0 then none
  else
    match tileRow e.1 with
    | none => none
    | some r =>
      let m := if (arrIdx e.1 (Reg.SYNC_CFG 0) 32 32).isSome then r.rw + 2 ^ 20
        else if (arrIdx e.1 (Reg.T_CONFIG 0) 0x800 4).isSome then r.rw + 0x3000 else r.rw
      if r.rw = 0 then none else some (e.1, (e.2 &&& wd m) ||| (wd r.reset &&& ~~~ (wd m)))

/-- The new tile of a takeover: RW words copied, threads IDLE, nothing queued. -/
def Tile.takenOver (old new : Tile) : Tile :=
  let t := new.bare
  { t with ctl := spSetAll tileReset t.ctl (old.ctl.filterMap takeoverWord), ucodeErr := old.ucodeErr }

/-- What the new tile of a takeover does first (R586): rings with occupancy act, and enabled sync objects are tested. -/
def State.takeoverStart (s : State) (l : Nat) : State :=
  let s := (List.range 8).foldl (fun s n => if (s.ltile l).ringOn n && s.ringOcc l n != 0 then s.ringAction l n else s) s
  (List.range 32).foldl (fun s n => s.syncTest l n) s

/-- TAKEOVER_SWITCH: the role's memory, microcode and settings are copied and the new tile takes it (R584 steps 3 to 6, R586). -/
def State.takeoverSwitch (s : State) (l : Nat) : State :=
  match s.relocOf l with
  | none => s
  | some c =>
    if !c.takeover ∨ (s.phys c.dst = phInRole ∧ !s.destGone c) then s
    else if s.destGone c then
      (if (s.tile c.dst).spareBad ∧ s.phys c.dst ≠ phRetired then s.retireTile c.dst 3 6 0 0xFFFF 1 else s).rechoose
    else
      let s := (s.copyChecks l c.src).copyTo c.src c.dst
      let s := s.setTile c.dst ((s.tile c.src).takenOver (s.tile c.dst))
      let s := (s.setFld (Reg.TILE_MAP l) 8 0 c.dst).setMap l 0
      let s := s.setPhys c.dst phInRole
      let s := ((s.setReloc l none).mapDone c).faultedLines l c.src c.dst
      let s := ((s.retireTile c.src 3 6 0 0xFFFF 1).endFault c.src).count Reg.TAKEOVERS
      let s := s.admitUpdate l
      let s := (s.liveStreams.filter (fun e => s.inHome e l && s.strServed e)).foldl (fun (s : State) e => s.resetDue e none) s
      (s.takeoverStart l).rechoose.relocateFaulted

/-! ### Commands -/

/-- MAP_CMD_BUMP_EPOCH. -/
def execMapCmdBumpEpoch (_o : Origin) (s : State) : Host.Outcome State Fault Refusal :=
  .next (s.atBlock 7 (fun s => s.bumpEpoch))
/-- BUMP_EPOCH_DONE. -/
def execBumpEpochDone (s : State) : Host.Outcome State Fault Refusal := .next s.bumpDone
/-- MAP_CMD_RELOCATE. -/
def execMapCmdRelocate (o : Origin) (s : State) : Host.Outcome State Fault Refusal :=
  .next (s.atBlock 7 (fun s => (s.relocate o s.hostSrc)))
/-- COPY_PASS, with the lines still to copy at the end of the pass. -/
def execCopyPass (l : Fin 256) (left : Nat) (s : State) : Host.Outcome State Fault Refusal := .next (s.copyPass l left)
/-- RELOCATION_SWITCH. -/
def execRelocationSwitch (l : Fin 256) (s : State) : Host.Outcome State Fault Refusal := .next (s.relocSwitch l)
/-- RELOCATION_DONE. -/
def execRelocationDone (l : Fin 256) (s : State) : Host.Outcome State Fault Refusal := .next (s.relocDone l)
/-- FAILURE_TAKEOVER. -/
def execFailureTakeover (l : Fin 256) (s : State) : Host.Outcome State Fault Refusal := .next (s.takeover l)
/-- TAKEOVER_SWITCH. -/
def execTakeoverSwitch (l : Fin 256) (s : State) : Host.Outcome State Fault Refusal := .next (s.takeoverSwitch l)

end Sys2Proof.Machine
end

