-- ==== Sys2Proof/Machine/Keys.lean ====
section
/-! DEFINITION. Keys, tocsin and life cycle: the key engine and its stored keys, the entropy source, the tocsin's policies, the erasure of
KEYS, and the unlock exchanges (R603 to R628). -/

namespace Sys2Proof.Machine

/-- The state with the key engine changed. -/
def State.onKeys (s : State) (f : Keys → Keys) : State := { s with keys := f s.keys }

/-- ALARM_STATUS.LOCKED. -/
def State.locked (s : State) : Bool := s.bit Reg.ALARM_STATUS 16

/-- SEC_STATUS.DERIVE_EN (R605). -/
def State.deriveEn (s : State) : Bool := (s.lcState == lcProvision || s.lcState == lcField) && !s.locked

/-- SEC_STATUS.ENTROPY_OK. -/
def State.entropyOk (s : State) : Bool := s.bit Reg.SEC_STATUS 4

/-- SEC_STATUS (Table 18.13). -/
def State.secStatus (s : State) : Word :=
  let b (n : Nat) (x : Bool) : Nat := if x then 2 ^ n else 0
  wd (b 0 s.keys.image.isSome + b 1 s.keys.site.isSome + b 2 s.keys.enroll.isSome + b 3 s.deriveEn + b 4 s.entropyOk + b 5 s.locked +
    b 6 s.keys.erase.isSome + b 7 s.keys.unlock.isSome)

/-- SITE_GROUP: that of slot 1, 0 when it is absent. -/
def State.siteGroup (s : State) : Nat := match s.keys.site with | some k => k.group | none => 0

/-! ### Derived keys (Table 18.2) -/

/-- WK from DUK. -/
def wkOf (duk : List Byte) : List Byte := hkdf duk (label "DZ64 key wrap")

/-- The image wrap key of a generation. -/
def imageKey (root : List Byte) (gen : Nat) : List Byte := hkdf root (label "DZ64 image" ++ toBytes 2 gen)

/-- The site export key. -/
def siteKey (k : KeySlot) : List Byte := hkdf k.key (label "DZ64 site export" ++ toBytes 2 k.group)

/-- The device export key. -/
def deviceKey (k : KeySlot) : List Byte := hkdf k.key (label "DZ64 device export")

/-! ### Stored keys (R606, R607) -/

/-- The slots of key SRAM. -/
def Keys.slot (k : Keys) (n : Nat) : Option KeySlot := match n with | 0 => k.image | 1 => k.site | _ => k.enroll

/-- Replace a slot of key SRAM. -/
def Keys.setSlot (k : Keys) (n : Nat) (x : Option KeySlot) : Keys :=
  match n with
  | 0 => { k with image := x }
  | 1 => { k with site := x }
  | _ => { k with enroll := x }

/-- The valid key record of slot n in a sector, with its SEQ. -/
def Nv.keyRec (v : Nv) (sec n : Nat) : Option (Nat × List Byte) :=
  let r := v.bytes (4096 * sec) 80
  if natAt r 0 1 = 0xA5 ∧ natAt r 1 1 = n ∧ (crc32 (r.take 68)).toNat = natAt r 68 4 then some (natAt r 4 4, r) else none

/-- The sector of slot n that is in force, with its SEQ and record. -/
def Nv.keyActive (v : Nv) (n : Nat) : Option (Nat × Nat × List Byte) :=
  let e := 3968 + 2 * n
  match v.keyRec e n, v.keyRec (e + 1) n with
  | some a, some b => if a.1 < b.1 then some (e + 1, b) else some (e, a)
  | some a, none => some (e, a)
  | none, some b => some (e + 1, b)
  | none, none => none

/-- Unwrap the key of slot n under WK: none when no record is valid or its tag fails. -/
def Nv.unwrap (v : Nv) (wk : List Byte) (n : Nat) : Option KeySlot :=
  match v.keyActive n with
  | none => none
  | some (_, seq, r) =>
    match gcmOpen wk ((r.drop 8).take 12) (r.take 8) ((r.drop 20).take 32) ((r.drop 52).take 16) with
    | some key => some { key := key, group := natAt r 2 2, seq := seq }
    | none => none

/-- A key record (Table 18.3). -/
def keyBytes (wk nonce key : List Byte) (n group seq : Nat) : List Byte :=
  let h := toBytes 1 0xA5 ++ toBytes 1 n ++ toBytes 2 group ++ toBytes 4 seq
  let x := gcmSeal wk nonce h key
  let r := h ++ nonce ++ x.1 ++ x.2
  r ++ toBytes 4 (crc32 r).toNat ++ toBytes 8 0

/-- Whether KEYS can be written. -/
def State.keysRo (s : State) : Bool := s.nv.sectorsRo 3968 128

/-- Store a key in slot n: its record goes to the other sector, with a SEQ one higher; the answer is whether a sector was found for it (R486,
R488). -/
def State.storeKey (s : State) (wk key : List Byte) (n group : Nat) : State × Bool :=
  let a := s.nv.keyActive n
  let seq := match a with | some x => x.2.1 + 1 | none => 1
  let sec := match a with | some x => if x.1 = 3968 + 2 * n then x.1 + 1 else x.1 - 1 | none => 3968 + 2 * n
  let d := s.drawBytes 12
  let bs := keyBytes wk d.2 key n group seq
  let y := d.1.nvOwn ((if s.nv.sectorBlank sec then [] else [NvStep.erase sec]) ++ [.program (4096 * sec) bs])
  if y.2 then (y.1.nvWear, false)
  else
    let s := (y.1.onNv (fun v => (if v.sectorBlank sec then v else v.erase sec).program (4096 * sec) bs)).nvWear
    let s := if s.deriveEn then s.onKeys (fun k => k.setSlot n (some { key := key, group := group, seq := seq })) else s
    (s.deviceAudit 0x30 (blockTarget 0xA 0x8) (wd n) (wd seq) (wd group), true)

/-- Generate ENROLL_KEY and store it in slot 2. -/
def State.newEnroll (s : State) (wk : List Byte) : State × Bool :=
  let d := s.drawBytes 32
  d.1.storeKey wk d.2 2 0

/-! ### KEY_CMD (R628) -/

/-- KEY_STATUS.ERR. -/
def State.keyErr (s : State) (e : Nat) : State := s.setFld Reg.KEY_STATUS 3 1 e

/-- Zeroise KEY_IN. -/
def State.keyInClear (s : State) : State := s.onKeys (fun k => { k with keyIn := List.replicate 32 0 })

/-- Carry out KEY_CMD code c; KEY_IN is zeroised after it. -/
def State.keyCmd (s : State) (c : Nat) : State :=
  let go (s : State) : State :=
    let st := s.lcState
    let allowed := st == lcProvision || (st == lcField && c == 3) || (st == lcService && (c == 1 || c == 2))
    if !allowed then s.keyErr 1
    else if c = 4 then
      if s.keys.unlock.isSome then s.keyErr 5
      else
        let s := s.onKeys (fun k => { k with unlock := some k.keyIn })
        ((s.deviceAudit 0x30 (blockTarget 0xA 0x8) 3 0 0).count Reg.KEY_OPS).keyErr 0
    else if s.locked then s.keyErr 2
    else
      match (if st = lcService then s.keys.duk.map wkOf else s.keys.wk) with
      | none => s.keyErr 2
      | some wk =>
        if !s.entropyOk then s.keyErr 3
        else if s.keysRo then s.keyErr 4
        else
          let t := if c = 3 then s.newEnroll wk
                   else s.storeKey wk s.keys.keyIn (c - 1) (if c = 2 then s.fld Reg.KEY_ARG 15 0 else 0)
          if t.2 then (t.1.count Reg.KEY_OPS).keyErr 0 else t.1.keyErr 4
  if s.keys.halted then s else (go s).keyInClear

/-- A write to block 0x0A: recorded whatever it changes, and ignored when it cannot be (R522, R524). -/
def State.keyBlockWrite (s : State) (src : AuditSrc) (o : Nat) (old new : Word) (f : State → State) : State :=
  if s.auditRefuses then s.auditRefused
  else (f s).auditPut (s.auditPayload 2 src (blockTarget 0xA o) old new 0) none

/-- A write of KEY_CMD. -/
def State.keyCmdWrite (s : State) (src : AuditSrc) (c : Nat) : State :=
  s.keyBlockWrite src 0x8 0 (wd c) (fun s => if 1 ≤ c ∧ c ≤ 4 then s.keyCmd c else s)

/-- A write of KEY_IN[i]: bytes 4i to 4i + 3 of the key; its record shows no value. -/
def State.keyInWrite (s : State) (src : AuditSrc) (i : Nat) (v : Word) : State :=
  s.keyBlockWrite src (0x20 + 4 * i) 0 0 (fun s =>
    s.onKeys (fun k => { k with keyIn := k.keyIn.take (4 * i) ++ toBytes 4 v.toNat ++ k.keyIn.drop (4 * i + 4) }))

/-! ### Entropy source (R615) -/

/-- A sample is tested; the source is held in reset under PORESET#, in the safe state and after a transition (R598, R622, R679). -/
def State.entropySample (s : State) (ok : Bool) : State :=
  if s.boot.low || s.boot.safe || s.keys.halted then s
  else if ok then
    let s := s.onKeys (fun k => { k with passes := min 1024 (k.passes + 1) })
    if s.keys.passes = 1024 then s.setBit Reg.SEC_STATUS 4 true else s
  else ((s.onKeys (fun k => { k with passes := 0 })).setBit Reg.SEC_STATUS 4 false).count Reg.ENTROPY_FAILS

/-! ### Erasure of KEYS (R618) -/

/-- The KEYS_ERASED record. -/
def State.keysErased (s : State) : State := s.deviceAudit 0x11 (blockTarget 0xA 0) 0 1 0

/-- The erasure begins: host commands that wait on the die complete with ABORTED; a program that the die has begun goes on. -/
def State.eraseBegin (s : State) : State :=
  let stays (o : NvOp) : Bool := !o.host || (s.nvCurrent == some o && s.nvPrograms o)
  let waiting := s.nv.queue.any (fun o => !stays o)
  let s := (s.onNv (fun v => { v with queue := v.queue.filter stays, started := v.started.filter stays })).onKeys (fun k => { k with erase := some 1 })
  if waiting then s.nvFinish 6 else s

/-- Writes of the device to KEYS, with their verifies: where the region is read-only, or a sector finds no spare, they are lost (R486, R488). -/
def State.keysWrite (s : State) (steps : List NvStep) : State :=
  if s.keysRo then s.count Reg.AUDIT_LOST
  else
    let y := s.nvOwn steps
    (if y.2 then y.1.count Reg.AUDIT_LOST else y.1.onNv (·.doSteps steps)).nvWear

/-- Carry out the step that is due, once the die has done with a program; the last one waits for READY. -/
def State.eraseStep (s : State) : State :=
  match s.keys.erase with
  | none => s
  | some n =>
    if !s.keysGoing ∨ s.nvCurrent.isSome then s
    else
      let t := s.keysWrite (s.nv.keySteps n)
      if n ≤ 2 then t.onKeys (fun k => { k with erase := some (n + 1) }) else (t.onKeys (fun k => { k with erase := none })).keysErased

/-- The erasure goes on until step `last` is done. -/
def State.keysErase (s : State) (last : Nat) : State :=
  (List.range 3).foldl (fun s _ => match s.keys.erase with | some n => if n ≤ last then s.eraseStep else s | none => s) s

/-! ### Tocsin (R616, R617, R619) -/

/-- The highest policy of some sources. -/
def State.policyOf (s : State) (sources : Nat) : Nat :=
  (List.range 7).foldl (fun a n =>
    if sources.testBit n then max a (let c := s.fld Reg.ALARM_POLICY (2 * n + 1) (2 * n); if c = 2 then 2 else if c = 0 then 0 else 1) else a) 0

/-- The effects of LOCK. -/
def State.lockKeys (s : State) : State :=
  let s := ((s.setBit Reg.ALARM_STATUS 16 true).keyInClear).onKeys (fun k => { k with exchange := none })
  let s := s.setBit Reg.LC_STATE 12 false
  match s.mgmt.load with
  | some l => if l.key.isSome then s.loadFail else s
  | none => s

/-- The effects of ERASE. -/
def State.eraseNow (s : State) : State :=
  let s := (s.setBit Reg.ALARM_STATUS 17 true).onKeys (fun k => { k with wk := none, image := none, site := none, enroll := none })
  if s.keys.erase.isSome then s else s.eraseBegin

/-- Apply an event: sources and policy together, with its one record in place of the one it had. -/
def State.applyEvent (s : State) (e : TocsinEvent) (fresh : Bool) : State :=
  let s := s.upd Reg.ALARM_STATUS (fun w => w ||| wd e.sources)
  let s := if 1 ≤ e.policy then s.lockKeys else s
  let s := if 2 ≤ e.policy then s.eraseNow else s
  let s := s.raiseInt 11
  let s := if fresh then s.noteClap 2 else s
  let s := if fresh then s else s.onNv (fun v => { v with audit := v.audit.filter (fun a => !(a.device && a.payload == e.payload)) })
  let now := s.rd Reg.ALARM_STATUS
  let aux := wd (e.sources + 2 ^ 8 * e.policy)
  let s := s.deviceAudit 0x10 (busTarget 0x98) e.before now aux
  s.onKeys (fun k => { k with event := some { e with payload := s.auditPayload 0x10 s.selfSrc (busTarget 0x98) e.before now aux } })

/-- Sources are set: those of one tick form one event, and an exchange under way is abandoned uncounted. -/
def State.tocsin (s : State) (sources : Nat) : State :=
  if sources = 0 then s
  else
    let s := ((List.range 7).foldl (fun s n => if sources.testBit n then s.count (Reg.TOCSIN_EVENTS n) else s) s)
    let s := (s.onKeys (fun k => { k with exchange := none })).setBit Reg.LC_STATE 12 false
    let p := s.policyOf sources
    match s.keys.event with
    | some e =>
      if e.at_ = s.now then s.applyEvent { e with sources := e.sources ||| sources, policy := max e.policy p } false
      else s.applyEvent { at_ := s.now, sources := sources, policy := p, before := s.rd Reg.ALARM_STATUS, payload := [] } true
    | none => s.applyEvent { at_ := s.now, sources := sources, policy := p, before := s.rd Reg.ALARM_STATUS, payload := [] } true

/-- An ALARM_POLICY write in the tick of an event applies to it when it raises a field of the event's sources. -/
def State.policyRaised (s : State) : State :=
  match s.keys.event with
  | some e => if e.at_ = s.now ∧ e.policy < s.policyOf e.sources then s.applyEvent { e with policy := s.policyOf e.sources } false else s
  | none => s

/-- Whether ALARM# is driven low (R620); the monitors are off while PORESET# is low. -/
def State.alarmPin (s : State) : Bool := s.fld Reg.ALARM_STATUS 6 0 != 0

/-- TOCSIN_EVENT: monitors of the sources find their condition; a source whose bit is set makes no new event. MON_STATUS shows what the
monitors read. In the safe state they are held in reset (R598). -/
def State.tocsinEvent (s : State) (sources : Nat) (mon : Word) : State :=
  if s.boot.low || s.boot.safe then s
  else
    let s := s.upd Reg.MON_STATUS (fun w => (w &&& 0x80#32) ||| (mon &&& 0xFFFF007F#32))
    s.tocsin (sources % 128 &&& (127 - s.fld Reg.ALARM_STATUS 6 0))

/-- FUSE_RECHECK: the loaded values equal the fuses, or source FUSE is set. -/
def State.fuseRecheck (s : State) (ok : Bool) : State :=
  if s.boot.low || s.boot.safe then s
  else
    let s := s.setBit Reg.MON_STATUS 7 ok
    if ok || s.bit Reg.ALARM_STATUS 4 then s else s.tocsin 16

/-! ### Life cycle (R621 to R623) -/

/-- Append a device value to JOURNAL now. -/
def State.journalNow (s : State) (type : Nat) (key : Word) (payload : List Byte) : State × Appended := s.appendNow .journal type key payload

/-- The journal key of UNLOCK_FAILS. -/
abbrev failsKey : Word := 0x8A000001#32

/-- Set UNLOCK_FAILS, committed first. -/
def State.setFails (s : State) (n : Nat) : State :=
  if s.fld Reg.LC_STATE 11 8 = n then s
  else
    let x := s.journalNow 1 failsKey (toBytes 4 n)
    (if x.2 = .noSpare then x.1.count Reg.AUDIT_LOST else x.1).setFld Reg.LC_STATE 11 8 n

/-- An exchange ends with a result, which is recorded. -/
def State.lcEnd (s : State) (cmd result : Nat) : State :=
  let s := ((s.onKeys (fun k => { k with exchange := none })).setBit Reg.LC_STATE 12 false).wr Reg.LC_RESULT (wd result)
  s.deviceAudit 0x20 (busTarget 0x94) (wd (0x4C430000 + cmd)) (wd result) (wd (s.fld Reg.LC_STATE 11 8))

/-- Program one more bit of an 8-bit fuse field. -/
def fuseNext (w : Word) (lo : Nat) : Word :=
  match lowestBelow 8 (fun i => !wbit w (lo + i)) with
  | some i => wSetBit w (lo + i) true
  | none => w

/-- The operation under way on the die is done, where it programs (R465): what needs the die at once comes after it. -/
def State.nvFinishProgram (s : State) : State :=
  match s.nvCurrent with
  | some o => if s.nvPrograms o then s.nvComplete o else s
  | none => s

/-- The preparation of a transition and its fuse bit (Table 18.9). -/
def State.lcPrepare (s : State) (cmd : Nat) : State :=
  let fuse (f : Word → Word) (s : State) : State := s.onKeys (fun k => { k with fuses := f k.fuses })
  match cmd with
  | 1 =>
    let d := s.drawBytes 32
    fuse (fun w => wSetBit w 0 true) (d.1.onKeys (fun k => { k with duk := some d.2 }))
  | 2 => fuse (fun w => wSetBit w 1 true) s
  | 3 =>
    let s := s.keysWrite (s.nv.zeroSteps 3972 2)
    fuse (fun w => fuseNext w 2) (s.keysWrite [.erase 3972, .erase 3973]).keysErased
  | 4 => fuse (fun w => fuseNext w 10) s
  | _ =>
    let s := s.nvFinishProgram.eraseBegin.keysErase 3
    fuse (fun w => wSetBit w 18 true) s

/-- Hold every unit but the host bus unit in reset until PORESET# (R622): only the die, the fuses, device time, host-bus registers and what block
0x0A shows keep what they hold. -/
def State.holdUnits (s : State) : State :=
  { s with
    regs := s.regs.filter (fun e => decide (e.1 < 0x100000) || (decide (0xB00000 ≤ e.1) && decide (e.1 < 0xC00000))),
    tiles := [], fab := Fabric.reset, clap := Clap.reset, cu := Contracts.reset, peal := Peal.reset, fe := FrontEnd.reset, ports := Ports.reset,
    links := Links.reset, mgmt := Mgmt.reset, pins := Pins.reset, pwr := Power.reset, sync := Sync.reset,
    nv := { s.nv with hostTx := none, queue := [], buf := Nv.reset.buf, bufPos := 0, audit := [], logq := [], started := none, found := NvVerify.clean },
    integ := { cols := [], bankCorr := [], bankPois := [], retained := [], sparing := [], skipped := [], revisit := false, due := [], odd := [] },
    keys := { s.keys with wk := none, image := none, site := none, enroll := none, keyIn := List.replicate 32 0, exchange := none, halted := true } }
    |> fun s => (s.setBit Reg.HB_STATUS 0 false).setBit Reg.NV_STATUS 1 false

/-- Make a transition: prepare, program, record, commit the records that wait, and hold the units in reset. -/
def State.transition (s : State) (cmd : Nat) : State :=
  let old := s.lcState
  let s := s.lcPrepare cmd
  let f := s.keys.fuses
  let s := s.deviceAudit 0x21 (busTarget 0x90) (wd old) (wd (lcDecode f false)) (wd (ones f 9 2))
  let s := s.lcEnd cmd 1
  let s := s.onNv (fun v => { v with audit := v.audit.map (fun e => { e with due := false }) })
  (overBelow s.nv.audit.length (fun _ s => s.auditWrite) s).holdUnits

/-- Whether a command is invalid from the present state, or refused (Table 18.9, R623). -/
def State.lcRefused (s : State) (cmd : Nat) : Bool :=
  let st := s.lcState
  let from_ := (cmd == 1 && st == lcBlank) || (cmd == 2 && st == lcProvision) || (cmd == 3 && st == lcField) || (cmd == 4 && st == lcService) ||
    (cmd == 5 && (st == lcProvision || st == lcField || st == lcService))
  !from_ || s.locked || s.journalRo || !s.entropyOk || (cmd == 2 && (s.keys.unlock.isNone || s.keys.image.isNone)) ||
  (cmd == 3 && ones s.keys.fuses 9 2 == 8)

/-- A command word is written to LC_UNLOCK. -/
def State.lcCommand (s : State) (cmd : Nat) : State :=
  if s.keys.halted then s
  else if s.keys.exchange.isSome then s.wr Reg.LC_RESULT 5
  else if s.lcRefused cmd then s.wr Reg.LC_RESULT 3
  else if cmd = 1 then s.transition 1
  else
    let d := s.drawBytes 32
    let s := (List.range 8).foldl (fun s i => s.wr (Reg.LC_CHALLENGE i) (wordAt d.2 (4 * i))) d.1
    let s := ((s.wr Reg.LC_RESULT 0).setBit Reg.LC_STATE 12 true).count Reg.UNLOCK_ATTEMPTS
    s.onKeys (fun k => { k with exchange := some { cmd := cmd, challenge := d.2, words := [], start := s.now } })

/-- The response that UNLOCK_KEY gives: none while the key is not programmed. -/
def Keys.response (k : Keys) (e : Exchange) : Option (List Byte) :=
  k.unlock.map (fun key => hmac key (e.challenge ++ toBytes 4 (0x4C430000 + e.cmd)))

/-- The eight words have arrived: a match makes the transition, a mismatch counts. -/
def State.lcCompare (s : State) (e : Exchange) : State :=
  if s.keys.response e = some (e.words.flatMap (fun w => toBytes 4 w.toNat)) then (s.setFails 0).transition e.cmd
  else
    let n := min 8 (s.fld Reg.LC_STATE 11 8 + 1)
    let s := (s.setFails n).lcEnd e.cmd 2
    if n = 8 then s.tocsin 32 else s

/-- A word is written to LC_UNLOCK while an exchange waits for its response. -/
def State.lcResponse (s : State) (w : Word) : State :=
  match s.keys.exchange with
  | none => s
  | some e =>
    let e := { e with words := e.words ++ [w] }
    let s := s.onKeys (fun k => { k with exchange := some e })
    if e.words.length = 8 then s.lcCompare e else s

/-- The command that a word written to LC_UNLOCK spells. -/
def lcCmdOf (w : Word) : Option Nat := if 0x4C430001 ≤ w.toNat ∧ w.toNat ≤ 0x4C430005 then some (w.toNat - 0x4C430000) else none

/-- LC_UNLOCK written: a command word, a response word, or a word that spells no command and is refused. -/
def State.lcUnlock (s : State) (w : Word) : State :=
  match lcCmdOf w with
  | some c => s.lcCommand c
  | none => if s.keys.exchange.isSome then s.lcResponse w else if s.keys.halted then s else s.wr Reg.LC_RESULT 3

/-- The response has not arrived within 10 s. -/
def State.lcTimeout (s : State) : State :=
  match s.keys.exchange with
  | some e => if e.start + 10000000 ≤ s.now then s.lcEnd e.cmd 4 else s
  | none => s

/-! ### Commands -/

/-- TOCSIN_EVENT, with the sources found in this tick and what the monitors read. -/
def execTocsinEvent (sources : BitVec 7) (mon : Word) (s : State) : Host.Outcome State Fault Refusal := .next (s.tocsinEvent sources.toNat mon)
/-- KEYS_ERASE, with the last of the three steps that completes. -/
def execKeysErase (last : Fin 4) (s : State) : Host.Outcome State Fault Refusal := .next (s.keysErase last)
/-- FUSE_RECHECK, with whether the loaded values equal the fuses. -/
def execFuseRecheck (ok : Bool) (s : State) : Host.Outcome State Fault Refusal := .next (s.fuseRecheck ok)
/-- KEY_CMD_SET_IMAGE_ROOT. -/
def execKeyCmdSetImageRoot (s : State) : Host.Outcome State Fault Refusal :=
  .next (s.atBlock 10 (fun s => (s.keyCmdWrite s.hostSrc 1)))
/-- KEY_CMD_SET_SITE_KEY. -/
def execKeyCmdSetSiteKey (s : State) : Host.Outcome State Fault Refusal :=
  .next (s.atBlock 10 (fun s => (s.keyCmdWrite s.hostSrc 2)))
/-- KEY_CMD_NEW_ENROLL_KEY. -/
def execKeyCmdNewEnrollKey (s : State) : Host.Outcome State Fault Refusal :=
  .next (s.atBlock 10 (fun s => (s.keyCmdWrite s.hostSrc 3)))
/-- KEY_CMD_PROG_UNLOCK_KEY. -/
def execKeyCmdProgUnlockKey (s : State) : Host.Outcome State Fault Refusal :=
  .next (s.atBlock 10 (fun s => (s.keyCmdWrite s.hostSrc 4)))
/-- LC_UNLOCK_PROVISION. -/
def execLcUnlockProvision (s : State) : Host.Outcome State Fault Refusal :=
  .next (s.busWrite (fun s => s.slotAt 10 (·.lcCommand 1)))
/-- LC_UNLOCK_FIELD. -/
def execLcUnlockField (s : State) : Host.Outcome State Fault Refusal :=
  .next (s.busWrite (fun s => s.slotAt 10 (·.lcCommand 2)))
/-- LC_UNLOCK_SERVICE. -/
def execLcUnlockService (s : State) : Host.Outcome State Fault Refusal :=
  .next (s.busWrite (fun s => s.slotAt 10 (·.lcCommand 3)))
/-- LC_UNLOCK_RETURN. -/
def execLcUnlockReturn (s : State) : Host.Outcome State Fault Refusal :=
  .next (s.busWrite (fun s => s.slotAt 10 (·.lcCommand 4)))
/-- LC_UNLOCK_SCRAP. -/
def execLcUnlockScrap (s : State) : Host.Outcome State Fault Refusal :=
  .next (s.busWrite (fun s => s.slotAt 10 (·.lcCommand 5)))
/-- LC_UNLOCK_RESPONSE, with the word written. -/
def execLcUnlockResponse (w : Word) (s : State) : Host.Outcome State Fault Refusal :=
  .next (s.busWrite (fun s => s.slotAt 10 (·.lcUnlock w)))
/-- LC_UNLOCK_TIMEOUT. -/
def execLcUnlockTimeout (s : State) : Host.Outcome State Fault Refusal := .next s.lcTimeout
/-- ENTROPY_SAMPLE, with whether the sample passes. -/
def execEntropySample (ok : Bool) (s : State) : Host.Outcome State Fault Refusal := .next (s.entropySample ok)

end Sys2Proof.Machine
end

