-- ==== Sys2Proof/Machine/HostBus.lean ====
section
/-! DEFINITION. The host bus: the posted write buffer, the fabric window, the remote-operation port, interrupts and time
(R497 to R516, R519, R520). -/

namespace Sys2Proof.Machine

/-! ### The window address -/

/-- The window address and the remote-operation address. -/
def State.winAddr (s : State) : Addr := BitVec.ofNat 40 ((s.rd Reg.WIN_ADDR_LO).toNat + 2 ^ 32 * s.fld Reg.WIN_ADDR_HI 7 0)
def State.opAddr (s : State) : Addr := BitVec.ofNat 40 ((s.rd Reg.OP_ADDR_LO).toNat + 2 ^ 32 * s.fld Reg.OP_ADDR_HI 7 0)

/-- Set the window address. -/
def State.setWinAddr (s : State) (a : Addr) : State := (s.wr Reg.WIN_ADDR_LO (wd (a.toNat % 2 ^ 32))).wr Reg.WIN_ADDR_HI (wd (a.toNat / 2 ^ 32))

/-- WIN_CTRL.SIZE and PRIO as they act (Table 14.12). -/
def State.winSize (s : State) : Nat := if s.fld Reg.WIN_CTRL 2 0 ≤ 1 then s.fld Reg.WIN_CTRL 2 0 else 2
def State.winPrio (s : State) : Nat := if s.fld Reg.WIN_CTRL 5 4 = 1 then 2 else 1

/-- Advance the window address when AUTOINC is set. -/
def State.winAdvance (s : State) (size : Nat) : State :=
  if s.bit Reg.WIN_CTRL 3 then s.setWinAddr (s.winAddr + BitVec.ofNat 40 (2 ^ size)) else s

/-- The state with the host port changed. -/
def State.onHost (s : State) (f : HostPort → HostPort) : State := { s with host := f s.host }

/-- WIN_STATUS as it now stands: FREE and BUSY are views of the port (Table 14.13). -/
def State.winStatus (s : State) : Word :=
  let w := s.rd Reg.WIN_STATUS
  let busy := !s.host.buf.isEmpty || s.host.out.any (fun o => o.use != .op)
  wSetBit (wSetFld w 20 16 (16 - s.host.buf.length)) 22 busy

/-! ### Completion -/

/-- End a remote operation: OP_STATUS, OP_RESULT, OP_DONE (Table 14.15). -/
def State.opDone (s : State) (code flags epoch : Nat) (result : Word) : State :=
  ((s.wr Reg.OP_STATUS (wd (2 ^ 8 * code + 2 ^ 16 * flags + 2 ^ 24 * epoch))).wr Reg.OP_RESULT result).raiseInt 3

/-- A window write that completes with an error: the first since WR_ERR was cleared gives WR_CODE (Table 14.13). -/
def State.winWriteDone (s : State) (code : Nat) : State :=
  if code = 0 ∨ s.bit Reg.WIN_STATUS 24 then s
  else ((s.setBit Reg.WIN_STATUS 24 true).setFld Reg.WIN_STATUS 31 25 code).raiseInt 4

/-- A window read that completes (R501): its value, code and flags; the address advances. -/
def State.winReadDone (s : State) (size : Nat) (r : RespFlit) : State :=
  let code := r.status.toNat
  let v := if code = 0 then wd (r.data0.toNat % 2 ^ (8 * 2 ^ size)) else 0
  let s := ((s.setFld Reg.WIN_STATUS 7 0 code).setFld Reg.WIN_STATUS 12 8 r.flags.toNat).setBit Reg.WIN_STATUS 21 false
  let s := { s.onHost (fun h => { h with read := none }) with readData := v }
  let s := s.winAdvance size
  if code = 0 then s else s.raiseInt 4

/-- Whether a FENCE mask names a priority; 0 names all (R62). -/
def fenceHas (m : BitVec 3) (prio : BitVec 2) : Bool := m == 0 || m.getLsbD prio.toNat

/-- A host FENCE completes when no operation issued before it, at its priorities, is under way (R62, R63). -/
def State.hostFenceCheck (s : State) : State :=
  match s.host.fence with
  | some (q, m) =>
    if s.host.out.any (fun o => decide (o.seq < q) && fenceHas m o.prio) then s
    else (s.onHost (fun h => { h with fence := none, failed := 0 })).opDone 0 0 0 (wd (min 0xFFFF s.host.failed))
  | none => s

/-! ### Issue (R498, R501, R512, R515) -/

/-- Acknowledged operations of the host port under way (R67). -/
def State.hostAcked (s : State) : Nat := (s.host.out.filter (·.acked)).length

/-- The lowest free tag of the host port, if one is free (R548). -/
def State.hostTagFor (s : State) : Option Nat := lowestBelow 1024 (fun t =>
  !s.host.out.any (fun o => o.acked && o.tag == BitVec.ofNat 10 t) && !s.host.late.any (fun e => e.1 == t && decide (s.now < e.2)))

/-- The tag that the next acknowledged operation of the host port gets. -/
def State.hostTag (s : State) : BitVec 10 := BitVec.ofNat 10 (s.hostTagFor.getD 0)

/-- Issue a request of the host port. -/
def State.hostIssue (s : State) (u : HostUse) (r0 : ReqFlit) : State :=
  let r := { r0 with tag := if r0.ack then s.hostTag else 0 }
  let t := s.now
  (s.onHost (fun h => { h with seq := h.seq + 1, out := h.out ++
    [{ seq := h.seq, use := u, acked := r.ack, prio := r.prio, tag := r.tag, target := targetKey r.addr, since := t }] })).issue r

/-- Whether a route fence holds the host port at a priority for a target (R551). -/
def State.hostFenced (s : State) (a : Addr) (prio : Nat) : Bool := Addr.chip a != s.chipId.toNat && s.fenced (16 * 0xFF + 8) (BitVec.ofNat 2 prio)

/-- Whether an operation of the host port to an address must wait: for a route fence, or for a place on its way to a tile (R235, R551). -/
def State.hostHeld (s : State) (a : Addr) (prio : Nat) : Bool := s.hostFenced a prio || s.meshFull (mkReq s 1 true prio a 2 0 0xFF 8 0 [])

/-- Whether the host port may have one more acknowledged operation under way (R67, R548). -/
def State.hostRoom (s : State) : Bool := decide (s.hostAcked < 16) && s.hostTagFor.isSome

/-- Issue the GET of a window read that waits, once the buffer is empty and an operation may be outstanding (R501). -/
def State.readPump (s : State) : State :=
  match s.host.read with
  | some x =>
    if x.active ∧ x.tag = none ∧ s.host.buf = [] ∧ s.hostRoom ∧ !s.hostHeld x.addr s.winPrio then
      let t := s.hostTag
      let s := s.onHost (fun h => { h with read := some { x with tag := some t } })
      s.hostIssue .winRead { mkReq s 1 true s.winPrio x.addr x.size 0 0xFF 8 0 [] with anyEpoch := true }
    else s
  | none => s

/-- Whether the port issues an opcode with a type (R92): FENCE, and the six operations of 4 B. -/
def opTypeOk (op ty : Nat) : Bool :=
  op == 9 || op == 1 || op == 2 || (op == 3 && (ty == 0 || ty == 2)) || (op == 4 && decide (ty ≤ 2)) || ((op == 5 || op == 6) && ty == 0)

/-- Issue a buffered OP_CMD (R515). -/
def State.opIssue (s : State) (a : Addr) (arg arg2 cmd : Word) : State :=
  let op := wfld cmd 4 0
  let ty := wfld cmd 12 10
  let ack := wbit cmd 5
  let pr := if wfld cmd 9 8 = 2 then 2 else 1
  if !opTypeOk op ty || (!ack && (op == 1 || op == 5 || op == 6)) then s.opDone cOp 0 0 0
  else if op = 9 then
    let q := s.host.seq
    (s.onHost (fun h => { h with fence := some (q, BitVec.ofNat 3 (wfld arg 2 0)), seq := h.seq + 1 })).hostFenceCheck
  else
    let r := { mkReq s op ack pr a 2 ty 0xFF 8 arg (if op = 6 then toBytes 4 arg2.toNat else []) with anyEpoch := wbit cmd 6 }
    let s := s.hostIssue .op r
    if ack then s else s.opDone 0 0 0 0

/-- The target and priority of the operation of an entry, if it sends one. -/
def HostEntry.sends : HostEntry → Option (Addr × Nat)
  | .window a _ prio _ => some (a, prio)
  | .op a _ _ cmd => if wfld cmd 4 0 = 9 then none else some (a, if wfld cmd 9 8 = 2 then 2 else 1)

/-- Whether a route fence holds an entry. -/
def State.entryFenced (s : State) (e : HostEntry) : Bool := match e.sends with | some x => s.hostFenced x.1 x.2 | none => false

/-- Whether an entry must wait for its way. -/
def State.entryHeld (s : State) (e : HostEntry) : Bool := match e.sends with | some x => s.hostHeld x.1 x.2 | none => false

/-- Whether an entry needs a response (R498). -/
def HostEntry.needsResponse : HostEntry → Bool
  | .window _ _ _ _ => true
  | .op _ _ _ cmd => wbit cmd 5 && wfld cmd 4 0 != 9

/-- A buffer entry enters the buffer: a window write advances the address, an OP_CMD sets BUSY (R497, R512). -/
def State.enter (s : State) (e : HostEntry) : State :=
  let s := s.onHost (fun h => { h with buf := h.buf ++ [e] })
  match e with
  | .window _ size _ _ => s.winAdvance size
  | .op _ _ _ _ => s.wr Reg.OP_STATUS (wSetBit (s.rd Reg.OP_STATUS) 0 true)

/-- A write to WIN_DATA or OP_CMD: into the buffer, or held open by a full one (R499). -/
def State.postEntry (s : State) (e : HostEntry) : State :=
  if s.host.buf.length < 16 then s.enter e else let t := s.now; s.onHost (fun h => { h with stalled := some (e, t) })

/-- POSTED_WRITE_ISSUE: the oldest entry is issued, a held bus cycle moves in, and a waiting window read follows. -/
def State.postedIssue (s : State) : State :=
  match s.host.buf with
  | [] => s
  | e :: rest =>
    if (e.needsResponse ∧ !s.hostRoom) ∨ s.entryHeld e then s
    else
      let s := s.onHost (fun h => { h with buf := rest })
      let s := match e with
        | .window a size prio data => s.hostIssue .winWrite { mkReq s 2 true prio a size 0 0xFF 8 data [] with anyEpoch := true }
        | .op a arg arg2 cmd => s.opIssue a arg arg2 cmd
      let s := match s.host.stalled with
        | some (x, _) => (s.onHost (fun h => { h with stalled := none })).enter x
        | none => s
      s.readPump

/-- POSTED_BUFFER_TIMEOUT: a bus cycle held for 2 µs ends, and its write is discarded (R499). -/
def State.postedTimeout (s : State) : State :=
  match s.host.stalled with
  | some (e, t) =>
    if t + 2 ≤ s.now then
      let s := (s.onHost (fun h => { h with stalled := none })).raiseInt 5
      match e with
      | .window _ _ _ _ => if s.bit Reg.WIN_STATUS 23 then s else (s.setBit Reg.WIN_STATUS 23 true).raiseInt 4
      | .op _ _ _ _ => s
    else s
  | none => s

/-- A write to WIN_ADDR_LO, WIN_ADDR_HI, WIN_CTRL or WIN_DATA ends a retry; the held response is discarded (R502). -/
def State.endRetry (s : State) : State :=
  if s.bit Reg.WIN_STATUS 21 then (s.setBit Reg.WIN_STATUS 21 false).onHost (fun h => { h with read := none }) else s

/-- WIN_DATA written (R512); before READY it is ignored with BUS_ERR and completes with ERR_BUSY (R503). -/
def State.winWrite (s : State) (v : Word) : State :=
  let s := s.endRetry
  if s.ready then s.postEntry (.window s.winAddr s.winSize s.winPrio v) else (s.winWriteDone cBusy).raiseInt 5

/-- OP_CMD written (R93, R503). -/
def State.opCmd (s : State) (v : Word) : State :=
  if !s.ready then (s.setFld Reg.OP_STATUS 15 8 cBusy).raiseInt 5
  else if s.bit Reg.OP_STATUS 0 then s
  else s.postEntry (.op s.opAddr (s.rd Reg.OP_ARG) (s.rd Reg.OP_ARG2) v)

/-- Whether the window address lies in the parameter store of this chip. -/
def State.winOnStore (s : State) : Bool := Addr.chip s.winAddr == s.chipId.toNat && Addr.space s.winAddr == 3 && Addr.tile s.winAddr == 9

/-- WIN_DATA read before READY (R503): a raw read of the parameter store is served (R489), any other gives ERR_BUSY; but LC_RESULT can be read after a
transition (R623: the exchange ends with a read of it; DEDUCED, log entry 51). -/
def State.earlyRead (s : State) : State :=
  if s.keys.halted && s.winAddr == mkAddr s.chipId.toNat 3 10 0x60 && s.winSize == 2 then
    s.winReadDone 2 { failResp (mkReq s 1 true s.winPrio s.winAddr 2 0 0xFF 8 0 []) 0 cOK with data0 := s.rd Reg.LC_RESULT }
  else if s.winOnStore && !s.bit Reg.BIST_BLOCKS 9 && !s.keys.halted then
    let o := Addr.off s.winAddr
    let n := s.winSize
    let x : State × Nat × List Byte :=
      if o % 2 ^ n ≠ 0 then (s, cAlign, []) else if n ≠ 2 then (s, cOp, []) else s.nvWindowGet o 4
    x.1.winReadDone n { failResp (mkReq s 1 true s.winPrio s.winAddr n 0 0xFF 8 0 []) 0 x.2.1 with data0 := wd (ofBytes x.2.2) }
  else { (s.setFld Reg.WIN_STATUS 12 0 cBusy).raiseInt 4 with readData := 0 }

/-- WIN_DATA read (R501 to R503). -/
def State.winRead (s : State) : State :=
  if !s.ready then s.earlyRead
  else
    let t := s.now
    match s.host.read with
    | some x =>
      if s.bit Reg.WIN_STATUS 21 then
        match x.resp with
        | some r => s.winReadDone x.size r
        | none => (s.onHost (fun h => { h with read := some { x with active := true, since := t } })).readPump
      else s
    | none =>
      let a := s.winAddr
      let n := s.winSize
      (s.onHost (fun h => { h with read := some { addr := a, size := n, active := true, since := t, tag := none, resp := none } })).readPump

/-- WIN_READ_TIMEOUT: a read without its response for 2 µs completes with RETRY set (R502). -/
def State.winTimeout (s : State) : State :=
  match s.host.read with
  | some x =>
    if x.active ∧ x.since + 2 ≤ s.now then
      let s := { s.onHost (fun h => { h with read := some { x with active := false } }) with readData := 0 }
      if s.bit Reg.WIN_STATUS 21 then s else (s.setBit Reg.WIN_STATUS 21 true).raiseInt 4
    else s
  | none => s

/-- A response reaches the host port; a window write that failed is among the failures that the next FENCE reports (R515). -/
def State.hostResponse (s : State) (r : RespFlit) : State :=
  match s.host.out.find? (fun o => o.acked && o.tag == r.tag) with
  | none => s
  | some o =>
    let s := s.onHost (fun h => { h with out := h.out.erase o })
    let s := match o.use with
      | .winWrite => (s.winWriteDone r.status.toNat).onHost (fun h => { h with failed := h.failed + (r.status != 0).toNat })
      | .op => s.opDone r.status.toNat r.flags.toNat r.epoch.toNat r.data0
      | .winRead =>
        match s.host.read with
        | some x =>
          if x.tag = some r.tag then
            (if x.active then s.winReadDone x.size r else s.onHost (fun h => { h with read := some { x with resp := some r } }))
          else s
        | none => s
    s.hostFenceCheck.readPump

/-- A report of posted operations reaches the host port: the oldest ones at that target and priority are done. -/
def State.hostCredit (s : State) (target : Nat) (prio : BitVec 2) (applied failed : Nat) : State :=
  let hit : HostOut → Bool := fun o => !o.acked && o.target == target && o.prio == prio
  let gone := (s.host.out.filter hit).take (applied + failed)
  (s.onHost (fun h => { h with out := h.out.filter (fun o => !gone.contains o), failed := h.failed + failed })).hostFenceCheck

/-! ### Interrupts and time -/

/-- INT_STATUS as it now stands: RESULT and MGMT_REPLY are levels (R507). -/
def State.intStatus (s : State) : Word :=
  let t := max 1 (s.fld Reg.HB_CONTROL 15 8)
  wSetBit (wSetBit (s.rd Reg.INT_STATUS) 0 (decide (t ≤ (s.rd Reg.RES_HEAD - s.rd Reg.RES_TAIL).toNat))) 12 (decide (0 < s.fld Reg.MGMT_LOAD 15 12))

/-- Whether the device pulls INT# low (R508). -/
def State.intPin (s : State) : Bool := s.bit Reg.HB_CONTROL 0 && (s.intStatus &&& s.rd Reg.INT_ENABLE) != 0

/-- INT_CLEAR written (R507, R509). -/
def State.intClear (s : State) (v : Word) : State := s.upd Reg.INT_STATUS (fun w => w &&& ~~~v)

/-- TIME_LO read: TIME_HI latches (R516). -/
def State.timeRead (s : State) : State := { s.wr Reg.TIME_HI ((s.time >>> 32).setWidth 32) with readData := s.now32 }

/-- POWER_CAP written: clamped to 800 to 2,500, and audited (R520). -/
def State.powerCap (s : State) (v : Word) : State :=
  s.audited 0xA8 v (fun s => s.wr Reg.POWER_CAP (wd (max 800 (min 2500 (wfld v 11 0)))))

/-- One field of ALARM_POLICY as it orders: LOG < LOCK < ERASE; the reserved code acts as LOCK. -/
def policyRank (c : Nat) : Nat := if c = 2 then 2 else if c = 0 then 0 else 1

/-- The sources whose field lies in a byte that a write of ALARM_POLICY enables (R493). -/
def policyFields (be : BitVec 4) : List Nat := (List.range 7).filter (fun n => be.getLsbD (n / 4))

/-- ALARM_POLICY after a write, field by field (R519). -/
def policyWrite (be : BitVec 4) (w v : Word) : Word :=
  (policyFields be).foldl (fun a n =>
    let x := wfld v (2 * n + 1) (2 * n)
    let a := wSetFld a (2 * n + 17) (2 * n + 16) x
    if policyRank (wfld w (2 * n + 1) (2 * n)) ≤ policyRank x then wSetFld a (2 * n + 1) (2 * n) x else a) w

/-- Whether a write lowers no field. -/
def policyRaises (be : BitVec 4) (w v : Word) : Bool :=
  (policyFields be).all (fun n => decide (policyRank (wfld w (2 * n + 1) (2 * n)) ≤ policyRank (wfld v (2 * n + 1) (2 * n))))

/-- The journal key under which NEXT is stored; the model's choice. -/
abbrev policyKey : Word := 0x8A000002#32

/-- ALARM_POLICY written: audited, with NEXT stored in the same transaction (R519); while JOURNAL is read-only, a write that only
raises fields acts on POLICY alone (R626). -/
def State.alarmPolicy (s : State) (be : BitVec 4) (v : Word) : State :=
  let old := s.rd Reg.ALARM_POLICY
  let new := policyWrite be old v
  if s.journalRo then
    if policyRaises be old v then s.wr Reg.ALARM_POLICY (wSetFld new 29 16 (wfld old 29 16)) else s.auditRefused
  else if s.auditRefuses then s.auditRefused
  else (s.wr Reg.ALARM_POLICY new).auditPut (s.auditPayload 1 s.hostSrc (busTarget 0x9C) old new (wd (wfld new 29 16))) (some (policyKey, toBytes 4 (wfld new 29 16)))

/-! ### Commands -/

/-- WIN_DATA_WRITE. -/
def execWinDataWrite (v : Word) (s : State) : Host.Outcome State Fault Refusal := .next (s.busOpen (fun s => (s.winWrite v)))
/-- WIN_DATA_READ. -/
def execWinDataRead (s : State) : Host.Outcome State Fault Refusal := .next (s.busRead (fun s => s.winRead))
/-- WIN_READ_TIMEOUT. -/
def execWinReadTimeout (s : State) : Host.Outcome State Fault Refusal := .next s.winTimeout
/-- POSTED_WRITE_ISSUE. -/
def execPostedWriteIssue (s : State) : Host.Outcome State Fault Refusal := .next s.postedIssue
/-- POSTED_BUFFER_TIMEOUT. -/
def execPostedBufferTimeout (s : State) : Host.Outcome State Fault Refusal := .next s.postedTimeout
/-- OP_CMD with OP GET; the other fields are those of the word. -/
def execOpCmdGet (v : Word) (s : State) : Host.Outcome State Fault Refusal := .next (s.busOpen (fun s => (s.opCmd (wSetFld v 4 0 1))))
/-- OP_CMD with OP PUT. -/
def execOpCmdPut (v : Word) (s : State) : Host.Outcome State Fault Refusal := .next (s.busOpen (fun s => (s.opCmd (wSetFld v 4 0 2))))
/-- OP_CMD with OP ADD. -/
def execOpCmdAdd (v : Word) (s : State) : Host.Outcome State Fault Refusal := .next (s.busOpen (fun s => (s.opCmd (wSetFld v 4 0 3))))
/-- OP_CMD with OP MAX. -/
def execOpCmdMax (v : Word) (s : State) : Host.Outcome State Fault Refusal := .next (s.busOpen (fun s => (s.opCmd (wSetFld v 4 0 4))))
/-- OP_CMD with OP SWAP. -/
def execOpCmdSwap (v : Word) (s : State) : Host.Outcome State Fault Refusal := .next (s.busOpen (fun s => (s.opCmd (wSetFld v 4 0 5))))
/-- OP_CMD with OP CAS. -/
def execOpCmdCas (v : Word) (s : State) : Host.Outcome State Fault Refusal := .next (s.busOpen (fun s => (s.opCmd (wSetFld v 4 0 6))))
/-- OP_CMD with OP FENCE. -/
def execOpCmdFence (v : Word) (s : State) : Host.Outcome State Fault Refusal := .next (s.busOpen (fun s => (s.opCmd (wSetFld v 4 0 9))))
/-- INT_CLEAR_WRITE. -/
def execIntClearWrite (v : Word) (s : State) : Host.Outcome State Fault Refusal := .next (s.busOpen (fun s => (s.intClear v)))
/-- TIME_LO_READ. -/
def execTimeLoRead (s : State) : Host.Outcome State Fault Refusal := .next (s.busRead (fun s => s.timeRead))
/-- POWER_CAP_WRITE. -/
def execPowerCapWrite (v : Word) (s : State) : Host.Outcome State Fault Refusal := .next (s.busWrite (·.powerCap v))
/-- ALARM_POLICY_WRITE. -/
def execAlarmPolicyWrite (v : Word) (s : State) : Host.Outcome State Fault Refusal := .next (s.busWrite (fun s => (s.alarmPolicy 15 v).policyRaised))

end Sys2Proof.Machine
end

