-- ==== Sys2Proof/Machine/Links.lean ====
section
/-! DEFINITION. Elvind links: frames and their control flits, credits, retry, training, spare lanes, failures, notices and
routes (R527 to R558, R694). -/

namespace Sys2Proof.Machine

/-! ### Ports -/

/-- LINK_STATUS.STATE (Table 15.9). -/
abbrev lnDisabled : Nat := 0
abbrev lnTraining : Nat := 1
abbrev lnUp : Nat := 2
abbrev lnDown : Nat := 3
abbrev lnRefused : Nat := 4

/-- A port. -/
def State.port (s : State) (p : Nat) : LinkPort := spGet (fun _ => LinkPort.reset) s.links.ports p

/-- The state with a port changed. -/
def State.onPort (s : State) (p : Nat) (f : LinkPort → LinkPort) : State :=
  { s with links := { s.links with ports := spSet (fun _ => LinkPort.reset) s.links.ports p (f (s.port p)) } }

/-- LINK_STATUS.STATE of a port. -/
def State.linkState (s : State) (p : Nat) : Nat := s.fld (Reg.LINK_STATUS p) 2 0

/-- Set STATE and CAUSE. -/
def State.setLink (s : State) (p st : Nat) (cause : Option Nat) : State :=
  let s := s.setFld (Reg.LINK_STATUS p) 2 0 st
  match cause with | some c => s.setFld (Reg.LINK_STATUS p) 20 18 c | none => s

/-- A bit of LINK_MAP: port p of chip c. -/
def State.mapBit (s : State) (c p : Nat) : Bool := s.bit (Reg.LINK_MAP ((8 * c + p) / 32)) ((8 * c + p) % 32)
def State.setMapBit (s : State) (c p : Nat) (b : Bool) : State := s.setBit (Reg.LINK_MAP ((8 * c + p) / 32)) ((8 * c + p) % 32) b

/-- LINK_MAP as one number. -/
def State.linkMap (s : State) : BitVec 128 := BitVec.ofNat 128 ((List.range 4).foldl (fun a i => a + (s.rd (Reg.LINK_MAP i)).toNat * 2 ^ (32 * i)) 0)

/-! ### Routes (R549, R551) -/

/-- The candidates of a ROUTE word: port, VALID, hops. -/
def routeCands (w : Word) : List (Nat × Bool × Nat) :=
  [(wfld w 2 0, wbit w 3, wfld w 5 4), (wfld w 8 6, wbit w 9, wfld w 11 10), (wfld w 14 12, wbit w 15, wfld w 17 16)]

/-- Whether a candidate port leads to a chip: it is UP, and its peer is that chip or has reported a usable route to it. -/
def State.leads (s : State) (p d : Nat) : Bool :=
  s.linkState p == lnUp &&
  (let c := s.fld (Reg.LINK_STATUS p) 6 3
   c == d || (spGet (fun _ => (0 : BitVec 16)) s.links.reported c).getLsbD d)

/-- SEL, FOUND and HOPS of ROUTE[d] as they now come out. -/
def State.routeWord (s : State) (d : Nat) : Word :=
  let w := s.rd (Reg.ROUTE d)
  if d = s.chipId.toNat then wSetFld w 23 18 0
  else
    match (routeCands w).find? (fun c => c.2.1 && s.leads c.1 d) with
    | some c => wSetFld w 23 18 (c.1 + 8 * 1 + 16 * c.2.2)
    | none => wSetBit w 21 false

/-- The operations that issuers have outstanding to other chips (R547). -/
def State.crossOut (s : State) : List FenceMark :=
  let me := s.chipId.toNat
  let far (t : Nat) : Bool := t / 512 != me
  let tiles := s.tiles.flatMap (fun kv => match s.logicalOf kv.1 with
    | some l => (kv.2.out.filter (fun o => far o.target)).map (fun o => ({ key := 16 * l + o.unit, prio := o.prio, seq := o.seq } : FenceMark))
    | none => [])
  tiles ++ (s.host.out.filter (fun o => far o.target)).map (fun o => { key := 16 * 0xFF + 8, prio := o.prio, seq := o.seq }) ++
  (s.fab.blockOut.filter (fun o => far o.target)).map (fun o => { key := 16 * 0xFF + o.unit, prio := o.prio, seq := o.seq })

/-- Whether an operation outstanding to another chip still waits in its tile's interface: one of the last issued of its unit and priority, as many
as the interface holds. -/
def State.stillIn (s : State) (m : FenceMark) : Bool :=
  let t := s.ltile (m.key / 16)
  let n := (t.router ++ t.chainWait).countP (fun r => Addr.chip r.addr != s.chipId.toNat && issuerKey r == m.key && r.prio == m.prio)
  decide ((s.crossOut.filter (fun x => x.key == m.key && x.prio == m.prio && decide (m.seq ≤ x.seq))).length ≤ n)

/-- The operations sent to other chips that a fence waits for (R551). -/
def State.sentOut (s : State) : List FenceMark := s.crossOut.filter (fun m => !s.stillIn m)

/-- The destination chip and virtual channel of a packet (Table 2.15, R694). -/
def packetDst : Packet → Nat
  | .req r => Addr.chip r.addr
  | .resp r => r.dstChip.toNat
  | .credit c => c.issuer.chip.toNat
  | .notice c _ => c.toNat
def packetVc : Packet → Nat
  | .req r => prioVc r.prio
  | .resp r => prioVc r.prio + 1
  | .credit c => prioVc c.issuer.prio + 1
  | .notice _ _ => 4

/-- The flits of a packet: its header and its payload (Table 2.10). -/
def packetFlits (k : Packet) : List DataFlit :=
  let n := match k with
    | .req r => reqFlits r - 1
    | .resp r => (r.payload.length + 15) / 16
    | .credit _ => 0
    | .notice _ n => (n.bytes.length + 15) / 16
  .head k :: List.replicate n .body

/-- The packets waiting for other chips, in order. -/
def State.outbound (s : State) : List Packet :=
  ((s.fab.inflight.map Packet.req) ++ (s.fab.resps.map Packet.resp) ++ (s.fab.credits.map Packet.credit) ++
    (s.fab.sentNotices.map (fun n => Packet.notice n.1 n.2))).filter (fun k => (packetDst k) != s.chipId.toNat)

/-- Take a packet out of the fabric. -/
def State.dropPacket (s : State) : Packet → State
  | .req r => { s with fab := { s.fab with inflight := s.fab.inflight.erase r } }
  | .resp r => { s with fab := { s.fab with resps := s.fab.resps.erase r } }
  | .credit c => { s with fab := { s.fab with credits := s.fab.credits.erase c } }
  | .notice c n => { s with fab := { s.fab with sentNotices := s.fab.sentNotices.erase (c, n) } }

/-- The packets in a port's transmit queues. -/
def State.queued (s : State) (p : Nat) : List Packet :=
  s.outbound.filter (fun k => s.bit (Reg.ROUTE (packetDst k)) 21 && s.fld (Reg.ROUTE (packetDst k)) 20 18 == p)

/-- A packet that has not left this chip finds no route any more: a request completes with the code of R549, as at issue, and a response, a
CREDIT flit or a notice is discarded (R694). -/
def State.loseRoute (s : State) (k : Packet) : State :=
  match k with
  | .req r => match s.issueError r.addr with | some e => (s.dropPacket k).failAtIssue r e | none => s.dropPacket k
  | _ => s.dropPacket k

/-- Recompute the routes: a change of SEL applies a route fence, packets that no longer have a route are lost, a stream that drives a WAKE pin of a
chip that has become unreachable breaks (R549, R551, Table 8.13), and a chip newly within reach is told of class-0 streams (R426). -/
def State.reroute (s : State) : State :=
  let reach (s : State) (d : Nat) : Bool := s.bit (Reg.ROUTE d) 21
  let was := (List.range 16).map (reach s)
  let old := (List.range 16).map (fun d => s.fld (Reg.ROUTE d) 21 18)
  let s := (List.range 16).foldl (fun s d => s.wr (Reg.ROUTE d) (s.routeWord d)) s
  let moved := (List.range 16).any (fun d => old.getD d 0 != s.fld (Reg.ROUTE d) 21 18 && (old.getD d 0 % 8 != s.fld (Reg.ROUTE d) 20 18))
  let s := if moved then (let ms := s.sentOut; { s.count Reg.ROUTE_FENCES with fab := { s.fab with fence := ms } }) else s
  let s := (s.outbound.filter (fun k => !reach s (packetDst k))).foldl State.loseRoute s
  let s := s.breakAll brLinkLost (fun e =>
    let c := s.desc e 0x1C 4 4
    s.wakes e && c != s.chipId.toNat && was.getD c false && !reach s c)
  s.forgetPeers.tellPeers

/-- ROUTE_STATUS as it now stands: whether any issuer waits for a fence. -/
def State.routeStatus (s : State) : Word :=
  let tileWaits := s.tiles.any (fun kv => kv.2.router.any (fun r => Addr.chip r.addr != s.chipId.toNat && s.fenced (issuerKey r) r.prio))
  let hostWaits := match s.host.buf, s.host.read with
    | e :: _, _ => s.entryFenced e
    | [], some x => x.active && x.tag.isNone && s.hostFenced x.addr s.winPrio
    | [], none => false
  wd ((tileWaits || hostWaits || s.fab.waiting.any (fun r => Addr.chip r.addr != s.chipId.toNat && s.fenced (issuerKey r) r.prio)).toNat)

/-- ROUTE[d] written. -/
def State.routeWrite (s : State) (d : Nat) (v : Word) : State :=
  (s.upd (Reg.ROUTE d) (fun w => (w &&& 0xFC0000#32) ||| (v &&& 0x3FFFF#32))).reroute

/-! ### Notices (R546) -/

/-- Send a link notice on every UP port but one. -/
def State.sendNotice (s : State) (n : LinkNotice) (but : Nat) : State :=
  let ps := (List.range 8).filter (fun q => q != but && s.linkState q == lnUp)
  { s with links := { s.links with sent := s.links.sent ++ ps.map (fun q => (q, n)) } }

/-- The notice of this chip. -/
def State.ownNotice (s : State) : LinkNotice :=
  { origin := s.chipId, number := s.links.number, map := s.linkMap,
    routes := BitVec.ofNat 16 ((List.range 16).foldl (fun a d => if s.bit (Reg.ROUTE d) 21 then a + 2 ^ d else a) 0) }

/-- A link of this chip has gone UP or DOWN: LINK_MAP shows it at both its ends, then routes, then a notice on the other ports. -/
def State.linkEvent (s : State) (p : Nat) : State :=
  let w := s.rd (Reg.LINK_STATUS p)
  let up := s.linkState p == lnUp
  let s := ((s.setMapBit s.chipId.toNat p up).setMapBit (wfld w 6 3) (wfld w 9 7) up).reroute
  let s := s.sendNotice s.ownNotice p
  { s with links := { s.links with number := s.links.number + 1 } }

/-- A link of the board has gone DOWN: the operations under way to other chips have LINK_TIMEOUT µs left (R547). -/
def State.catchOps (s : State) : State :=
  let t := s.now + max 1 (s.fld Reg.ROUTE_CFG 15 0)
  { s with links := { s.links with caught := s.links.caught ++ s.crossOut.map (fun m => (t, m.key, m.seq)) } }

/-- LINK_NOTICE on a port: a new notice updates LINK_MAP and what its chip reaches, and is forwarded once. -/
def State.linkNotice (s : State) (p : Nat) (n : LinkNotice) : State :=
  if s.linkState p ≠ lnUp ∨ s.links.known.contains n ∨ n.origin = s.chipId then s
  else
    let c := n.origin.toNat
    let fell := (List.range 8).any (fun q => s.mapBit c q && !n.map.getLsbD (8 * c + q))
    let s := { s with links := { s.links with known := s.links.known ++ [n], reported := spSet (fun _ => (0 : BitVec 16)) s.links.reported c n.routes } }
    let s := (List.range 8).foldl (fun s q => s.setMapBit c q (n.map.getLsbD (8 * c + q))) s
    let s := if fell then s.catchOps else s
    (s.sendNotice n p).reroute

/-! ### Going DOWN (R545) -/

/-- The packets that have arrived whole, in order: what is left of one that has not is lost with its link. -/
def wholePackets : List DataFlit → List DataFlit
  | [] => []
  | .body :: ds => wholePackets ds
  | .head k :: ds => (if (packetFlits k).length ≤ 1 + (ds.takeWhile (fun d => d == .body)).length then packetFlits k else []) ++ wholePackets ds

/-- A link ends: the transmit queues and the retry buffer of its port are discarded; flits already accepted stay. -/
def State.linkEnd (s : State) (p : Nat) : State :=
  let s := (s.queued p).foldl (fun s k => s.dropPacket k) s
  s.onPort p (fun x => { LinkPort.reset with rx := (List.range 6).foldl (fun m v => spSet (fun _ => []) m v (wholePackets (spGet (fun _ => []) x.rx v))) x.rx, freed := x.freed })

/-- A link goes DOWN with a cause. -/
def State.goDown (s : State) (p cause : Nat) : State :=
  let up := s.linkState p == lnUp
  let t := s.now
  let s := (s.setLink p lnDown (some cause)).linkEnd p
  let s := s.onPort p (fun x => { x with downAt := some t })
  let s := (s.raiseInt 16).logEvent 4 1 (wd (8 * s.chipId.toNat + p + cause * 2 ^ 24))
  if up then ((s.count (Reg.DOWN_EVENTS p)).catchOps).linkEvent p else s

/-- LINK_DOWN, by cause: a frame resent 16 times (5), silence for 10 µs (6). -/
def State.linkDown (s : State) (p cause : Nat) : State :=
  let x := s.port p
  let due := if cause = 5 then x.resends.any (fun e => decide (16 ≤ e.2)) else decide (x.heard + 10 ≤ s.now) && !x.parked
  if s.linkState p = lnUp ∧ due then s.goDown p cause else s

/-! ### Training (R539, R540) -/

/-- Start training: no lane is moved to the spare any more, and the transmitter takes its preset (R543, R558). -/
def State.startTrain (s : State) (p : Nat) : State :=
  let up := s.linkState p == lnUp
  let s := ((s.setLink p lnTraining none).linkEnd p).upd (Reg.LINK_STATUS p) (fun w => wSetFld w 28 21 0)
  let s := { s with links := { s.links with preset := spSet (fun _ => 1) s.links.preset p (s.fld (Reg.LINK_CFG p) 3 2) } }
  if up then s.catchOps.linkEvent p else s

/-- LINK_CMD TRAIN. -/
def State.linkTrain (s : State) (p : Nat) : State := if s.bit (Reg.LINK_CFG p) 0 && !s.bit Reg.BIST_BLOCKS (16 + p) then s.startTrain p else s

/-- LINK_CMD DISABLE: a REFUSED port stays so (R540). -/
def State.linkDisable (s : State) (p : Nat) : State :=
  if s.linkState p = lnUp ∨ s.linkState p = lnTraining then s.goDown p 7
  else if s.linkState p ≠ lnDown then s
  else let t := s.now; (s.setLink p lnDown (some 7)).onPort p (fun x => { x with downAt := some t })

/-- LINK_AUTO_RETRAIN: 1 ms after DOWN, with AUTO = 1. -/
def State.autoRetrain (s : State) (p : Nat) : State :=
  match (s.port p).downAt with
  | some t =>
    if s.linkState p = lnDown ∧ s.bit (Reg.LINK_CFG p) 0 ∧ s.bit (Reg.LINK_CFG p) 1 ∧ t + 1000 ≤ s.now then s.startTrain p else s
  | none => s

/-- Training refused (R540). -/
def State.refuse (s : State) (p cause : Nat) : State :=
  (((s.setLink p lnRefused (some cause)).count (Reg.LINK_REFUSALS p)).raiseInt 16).logEvent 4 1 (wd (8 * s.chipId.toNat + p + cause * 2 ^ 24))

/-- LINK_TRAIN_DONE: the lanes locked, and the peer's TS flit if phase 4 was reached and its 16 flits came. -/
def State.trainDone (s : State) (p : Nat) (locked : BitVec 5) (ts : Option TsFlit) : State :=
  if s.linkState p ≠ lnTraining then s
  else
    let lanes := (List.range 5).filter (fun l => locked.getLsbD l)
    let active := if lanes.length < 4 then 0 else (lanes.take 4).foldl (fun a l => a + 2 ^ l) 0
    let s := s.wr (Reg.LANE_STATUS p) (wd (locked.toNat + 2 ^ 10 * active))
    if lanes.length < 4 then s.goDown p 1
    else
      match ts with
      | none => s.goDown p 2
      | some t =>
        let rev := min 3 t.revMax.toNat
        let s := s.upd (Reg.LINK_STATUS p) (fun w => wSetFld (wSetFld (wSetFld w 6 3 t.chip.toNat) 9 7 t.port.toNat) 17 14 t.revMax.toNat)
        if t.chip = s.chipId then s.refuse p 3
        else if rev < max 2 t.revMin.toNat then s.refuse p 4
        else
          let now := s.now
          let s := s.upd (Reg.LINK_STATUS p) (fun w => wSetFld (wSetFld (wSetFld w 13 10 rev) 2 0 lnUp) 28 21 0)
          let s := s.onPort p (fun x => { LinkPort.reset with heard := now, rx := x.rx })
          (s.raiseInt 16).linkEvent p

/-- LINK_CFG[p] written: EN = 0 holds the port DISABLED; TX_EQ takes effect at the next training (R558). -/
def State.linkCfgWrite (s : State) (p : Nat) (v : Word) : State :=
  let s := s.wr (Reg.LINK_CFG p) (v &&& 0x1F#32)
  if wbit v 0 then s
  else
    let s := if s.linkState p = lnUp then s.goDown p 7 else s
    (s.setLink p lnDisabled none).onPort p (fun x => { x with downAt := none })

/-! ### Sending frames (R528, R533, R535) -/

/-- A port's transmit credits of a VC. -/
def LinkPort.credits (x : LinkPort) (v : Nat) : Nat := spGet (fun _ => 192) x.credit v

/-- The flits a port has ready in a VC. -/
def State.readyFlits (s : State) (p v : Nat) : List DataFlit :=
  spGet (fun _ => []) (s.port p).part v ++ ((s.queued p).filter (fun k => (packetVc k) == v)).flatMap packetFlits

/-- The order in which VCs are chosen (R533). -/
def vcOrder : List Nat := [1, 0, 3, 2, 5, 4]

/-- The control fields of a port's next control flit, in a frame. The two directions substitute independently: where both have a lane to name, their
frames take turns (R543; DEDUCED, log entry 80: a control flit has one SUB_LANE). -/
def LinkPort.control (x : LinkPort) (rev : Nat) (txSub : Option Nat) (f : LinkFrame) : LinkFrame :=
  let req := x.subReq.isSome && (txSub.isNone || x.subReq == txSub || !x.subTurn)
  let ack := txSub.isSome && (x.subReq.isNone || x.subReq == txSub || x.subTurn)
  let lane := if req then x.subReq.getD 0 else txSub.getD 0
  { f with ack := x.expect - 1, nak := x.discarding, subLane := BitVec.ofNat 3 lane, subReq := req && rev == 3, subAck := ack && rev == 3,
           credits := (List.range 6).map (fun v => BitVec.ofNat 8 (spGet (fun _ => 0) x.freed v)) }

/-- The lane that a port's transmitter mirrors on the spare. -/
def State.txSub (s : State) (p : Nat) : Option Nat := if s.bit (Reg.LINK_STATUS p) 24 then some (s.fld (Reg.LINK_STATUS p) 23 21) else none

/-- Put a frame on the wire with the control fields of the moment. -/
def State.sendFrame (s : State) (p : Nat) (f : LinkFrame) : State :=
  let sub := s.txSub p
  let rev := s.fld (Reg.LINK_STATUS p) 13 10
  s.onPort p (fun x => { x with wire := some (x.control rev sub f), subTurn := !x.subTurn })

/-- An idle frame. -/
def idleFrame : LinkFrame :=
  { fseq := 0, ack := 0, nak := false, vc := 0, subLane := 0, subReq := false, subAck := false, credits := [], data := [] }

/-- The packets of a list of flits. -/
def headsOf (ds : List DataFlit) : List Packet := ds.filterMap (fun d => match d with | .head k => some k | .body => none)

/-- A new data frame of a VC: as many ready and credited flits as it can carry, up to 21. -/
def State.newFrame (s : State) (p v : Nat) : State :=
  let x := s.port p
  let fs := s.readyFlits p v
  let n := min 21 (min (x.credits v) fs.length)
  let data := fs.take n
  let rest := ((fs.drop n).takeWhile (fun d => d == .body))
  let f : LinkFrame := { idleFrame with fseq := x.fseq + 1, vc := Fin.ofNat 6 v, data := data }
  let fresh := headsOf (data.drop (spGet (fun _ => []) x.part v).length)
  let s := fresh.foldl (fun s k => s.dropPacket k) s
  let s := s.onPort p (fun x => { x with
    part := spSet (fun _ => []) x.part v rest, credit := spSet (fun _ => 192) x.credit v (x.credits v - n), fseq := x.fseq + 1, retry := x.retry ++ [f] })
  (s.countBy (Reg.TX_FLITS p) n).sendFrame p f

/-- The VC that 32 frames have passed over, if its turn has come: the frame after such a one follows the order. -/
def LinkPort.exception (x : LinkPort) (can : List Nat) : Option Nat :=
  if x.excepted then none else can.find? (fun v => decide (32 ≤ spGet (fun _ => 0) x.starved v))

/-- The VC of the next data frame, of those that have a flit ready and a credit: one that 32 frames have passed over, else the first in the order
of R533. -/
def LinkPort.choose (x : LinkPort) (can : List Nat) : Option Nat :=
  match x.exception can with
  | some v => some v
  | none => can.head?

/-- A frame has passed over the VCs that had a flit ready, but for the one it carries. -/
def LinkPort.passOver (x : LinkPort) (ready can : List Nat) (pick : Option Nat) : LinkPort :=
  { x with
    excepted := if pick.isSome then (x.exception can).isSome else x.excepted
    starved := (List.range 6).foldl (fun m v =>
      spSet (fun _ => 0) m v (if pick = some v ∨ !ready.contains v then 0 else spGet (fun _ => 0) m v + 1)) x.starved }

/-- A frame is resent. -/
def LinkPort.resent (x : LinkPort) (f : LinkFrame) (rest : List LinkFrame) : LinkPort :=
  { x with resend := rest, resends := spSet (fun _ => 0) x.resends f.fseq.toNat (spGet (fun _ => 0) x.resends f.fseq.toNat + 1) }

/-- LINK_FRAME_SEND: a frame being resent, else a new data frame of the VC that R533 chooses, else an idle frame, as while 64 frames wait for
their ACK (R535). -/
def State.frameSend (s : State) (p : Nat) : State :=
  if s.linkState p ≠ lnUp ∨ (s.port p).parked then s
  else
    let s := s.releaseWaiting (fun r => Addr.chip r.addr != s.chipId.toNat)
    let x := s.port p
    let ready := vcOrder.filter (fun v => !(s.readyFlits p v).isEmpty)
    let can := ready.filter (fun v => decide (0 < x.credits v))
    let pick := if x.resend = [] ∧ x.retry.length < 64 then x.choose can else none
    let s := ready.foldl (fun s v => if x.credits v = 0 then s.count (Reg.CREDIT_WAITS p v) else s) s
    let s := s.onPort p (fun x => x.passOver ready can pick)
    match x.resend, pick with
    | f :: rest, _ => (s.onPort p (fun x => x.resent f rest)).sendFrame p f
    | [], some v => s.newFrame p v
    | [], none => s.sendFrame p idleFrame

/-! ### Control flits (Table 15.2) -/

/-- The six CREDITS counters, that of VC5 highest. -/
def creditBits (cs : List (BitVec 8)) : BitVec 48 :=
  cs.getD 5 0 ++ cs.getD 4 0 ++ cs.getD 3 0 ++ cs.getD 2 0 ++ cs.getD 1 0 ++ cs.getD 0 0

/-- Bits [95:0] of a frame's control flit. -/
def ctlBits (f : LinkFrame) : BitVec 96 :=
  creditBits f.credits ++ 0#2 ++ BitVec.ofBool f.subAck ++ BitVec.ofBool f.subReq ++ f.subLane ++ BitVec.ofNat 3 f.vc.val ++
    BitVec.ofNat 5 f.data.length ++ BitVec.ofBool f.nak ++ f.ack ++ f.fseq ++ 0xD2#8

/-- The CRC of a frame: over bits [95:0] of its control flit, then its data flits in order. -/
def frameCrc (w : BitVec 96) (body : List (BitVec 128)) : Word := crc32 (toBytes 12 w.toNat ++ body.flatMap (fun d => toBytes 16 d.toNat))

/-- The control flit of a frame whose data flits have these bits. -/
def ctlFlit (f : LinkFrame) (body : List (BitVec 128)) : BitVec 128 := frameCrc (ctlBits f) body ++ ctlBits f

/-- Whether a receiver takes a frame: BTYPE is 0xD2 and the CRC matches (R530). -/
def frameTaken (w : BitVec 128) (body : List (BitVec 128)) : Bool :=
  w.extractLsb' 0 8 == 0xD2#8 && w.extractLsb' 96 32 == frameCrc (w.extractLsb' 0 96) body

/-- The frame that a control flit and the data flits after it make: the first COUNT of them. -/
def ctlFrame (w : BitVec 128) (data : List DataFlit) : LinkFrame :=
  { fseq := w.extractLsb' 8 12, ack := w.extractLsb' 20 12, nak := w.getLsbD 32, vc := Fin.ofNat 6 (w.extractLsb' 38 3).toNat,
    subLane := w.extractLsb' 41 3, subReq := w.getLsbD 44, subAck := w.getLsbD 45,
    credits := (List.range 6).map (fun v => w.extractLsb' (48 + 8 * v) 8), data := data.take (w.extractLsb' 33 5).toNat }

/-! ### Data flits (Tables 2.9 and 2.16) -/

/-- The bits of a request header flit. -/
def reqBits (r : ReqFlit) : BitVec 128 :=
  r.arg0 ++ 0#5 ++ r.srcUnit ++ r.srcTile ++ r.srcChip ++ r.tag ++ r.type ++ r.size ++ r.addr ++ r.epoch ++ r.prio ++ BitVec.ofBool r.notice ++
    BitVec.ofBool r.anyEpoch ++ BitVec.ofBool r.ack ++ r.op

/-- The bits of a response header flit. -/
def respBits (r : RespFlit) : BitVec 128 :=
  r.aux ++ r.data0 ++ 0#4 ++ r.dstUnit ++ r.dstTile ++ r.dstChip ++ r.tag ++ r.flags ++ r.status ++ r.epoch ++ r.prio ++ 0#3 ++ 0x10#5

/-- The request that a header flit's bits spell, with the payload that follows it and, which no field of Table 2.9 holds, the thread of its unit. -/
def reqOfBits (w : BitVec 128) (payload : List Byte) (owner : BitVec 2) : ReqFlit :=
  { op := w.extractLsb' 0 5, ack := w.getLsbD 5, anyEpoch := w.getLsbD 6, notice := w.getLsbD 7, prio := w.extractLsb' 8 2, epoch := w.extractLsb' 10 8,
    addr := w.extractLsb' 18 40, size := w.extractLsb' 58 4, type := w.extractLsb' 62 3, tag := w.extractLsb' 65 10, srcChip := w.extractLsb' 75 4,
    srcTile := w.extractLsb' 79 8, srcUnit := w.extractLsb' 87 4, arg0 := w.extractLsb' 96 32, payload := payload, owner := owner }

/-- The response that a header flit's bits spell. -/
def respOfBits (w : BitVec 128) (payload : List Byte) : RespFlit :=
  { prio := w.extractLsb' 8 2, epoch := w.extractLsb' 10 8, status := w.extractLsb' 18 8, flags := w.extractLsb' 26 8, tag := w.extractLsb' 34 10,
    dstChip := w.extractLsb' 44 4, dstTile := w.extractLsb' 48 8, dstUnit := w.extractLsb' 56 4, data0 := w.extractLsb' 64 32,
    aux := w.extractLsb' 96 32, payload := payload }

/-- A payload over which the bits of the payload flits that follow its header in the frame are laid, byte 0 in bits [7:0] of the first (R75). -/
def laidOver (payload : List Byte) (rest : List (DataFlit × BitVec 128)) : List Byte :=
  let bs := (rest.takeWhile (fun d => d.1 == .body)).flatMap (fun d => toBytes 16 d.2.toNat)
  takeBytes payload.length (bs ++ payload.drop bs.length)

/-- The data flits of a frame as their bits spell them: the header flits of requests and responses, and the payload that follows in the frame. -/
def readFlits : List (DataFlit × BitVec 128) → List DataFlit
  | [] => []
  | (.head (.req r), w) :: rest => .head (.req (reqOfBits w (laidOver r.payload rest) r.owner)) :: readFlits rest
  | (.head (.resp r), w) :: rest => .head (.resp (respOfBits w (laidOver r.payload rest))) :: readFlits rest
  | (d, _) :: rest => d :: readFlits rest

/-! ### Receiving frames (R530, R536 to R538) -/

/-- Take up ACK: every frame up to and including it is released. -/
def LinkPort.takeAck (x : LinkPort) (a : BitVec 12) : LinkPort :=
  let keep : LinkFrame → Bool := fun f => decide (0 < (f.fseq - a).toNat ∧ (f.fseq - a).toNat ≤ 64)
  let r := x.retry.filter keep
  { x with retry := r, resend := x.resend.filter keep, resends := x.resends.filter (fun e => r.any (fun f => f.fseq.toNat == e.1)) }

/-- Take up CREDITS: each count grows by the difference to the last value, modulo 256. -/
def LinkPort.takeCredits (x : LinkPort) (cs : List (BitVec 8)) : LinkPort :=
  (List.range 6).foldl (fun x v =>
    let c := (cs.getD v 0).toNat
    let d := (c + 256 - spGet (fun _ => 0) x.seen v) % 256
    { x with seen := spSet (fun _ => 0) x.seen v c, credit := spSet (fun _ => 192) x.credit v (x.credits v + d) }) x

/-- Take up NAK: every unacknowledged frame is to be resent. -/
def State.takeNak (s : State) (p : Nat) (nak : Bool) : State :=
  let x := s.port p
  if nak && x.resend.isEmpty && !x.retry.isEmpty then
    (s.onPort p (fun x => { x with resend := x.retry })).count (Reg.RETRIES p)
  else s

/-- Take up SUB_REQ: the transmitter mirrors the lane on the spare (R543, step 2). -/
def State.takeSubReq (s : State) (p : Nat) (f : LinkFrame) : State :=
  if f.subReq && s.fld (Reg.LINK_STATUS p) 13 10 == 3 && s.bit (Reg.LINK_CFG p) 4 && !s.bit (Reg.LINK_STATUS p) 24 then
    s.upd (Reg.LINK_STATUS p) (fun w => wSetFld w 24 21 (f.subLane.toNat + 8))
  else s

/-- Take up SUB_ACK: the receiver reads the lane from the spare (step 3). -/
def State.takeSubAck (s : State) (p : Nat) (f : LinkFrame) : State :=
  match (s.port p).subReq with
  | some l =>
    if f.subAck ∧ f.subLane.toNat = l then
      let w := s.rd (Reg.LANE_STATUS p)
      let spare := ((List.range 5).find? (fun k => !wbit w (10 + k) && wbit w k)).getD 4
      let s := s.wr (Reg.LANE_STATUS p) (wSetBit (wSetBit w (10 + l) false) (10 + spare) true)
      let s := s.upd (Reg.LINK_STATUS p) (fun w => wSetFld w 28 25 (l + 8))
      ((s.onPort p (fun x => { x with subReq := none })).count (Reg.SUBSTITUTIONS p)).raiseInt 16
    else s
  | none => s

/-- A move to the spare that the peer has not acknowledged 50 µs after the failure is not one that R543 covers, as where the peer's SPARE_EN is 0: the
link goes DOWN (R544; DEDUCED, log entry 80). -/
def State.subLapse (s : State) (p : Nat) : State :=
  if (s.port p).subReq.isSome ∧ (s.port p).subSince + 50 ≤ s.now then s.goDown p 1 else s

/-- LINK_FRAME_RECEIVE: a frame, whose BTYPE and CRC are right or not (R530). -/
def State.frameReceive (s : State) (p : Nat) (ok : Bool) (f : LinkFrame) : State :=
  if s.linkState p ≠ lnUp then s
  else if !ok then (s.onPort p (fun x => { x with discarding := true })).count (Reg.CRC_ERRORS p)
  else
    let t := s.now
    let s := s.onPort p (fun x => { (x.takeAck f.ack).takeCredits f.credits with heard := t })
    let s := (((s.takeNak p f.nak).takeSubReq p f).takeSubAck p f).subLapse p
    if f.data.isEmpty ∨ s.linkState p ≠ lnUp then s
    else
      let x := s.port p
      if f.fseq = x.expect then
        let v := f.vc.val
        (s.onPort p (fun x => { x with
          expect := x.expect + 1, discarding := false, rx := spSet (fun _ => []) x.rx v (spGet (fun _ => []) x.rx v ++ f.data) })).countBy (Reg.RX_FLITS p) f.data.length
      else s.onPort p (fun x => { x with discarding := true })

/-- The oldest packet that has arrived whole in a port's receive buffer of a VC, and its flits. -/
def arrived (ds : List DataFlit) : Option (Packet × Nat) :=
  match ds with
  | .head k :: rest => if (packetFlits k).length ≤ 1 + (rest.takeWhile (fun d => d == .body)).length then some (k, (packetFlits k).length) else none
  | _ => none

/-- A packet that came over a link enters the mesh: to this chip, or onward by this chip's ROUTE (R694). -/
def State.enterMesh (s : State) (k : Packet) : State :=
  let fits := (packetDst k) == s.chipId.toNat || s.bit (Reg.ROUTE (packetDst k)) 21
  match k with
  | .req r =>
    if fits then { s with fab := { s.fab with inflight := s.fab.inflight ++ [r] } }
    else match s.issueError r.addr with | some e => s.failAtIssue r e | none => s
  | .resp r => if fits then { s with fab := { s.fab with resps := s.fab.resps ++ [r] } } else s
  | .credit c => if fits then { s with fab := { s.fab with credits := s.fab.credits ++ [c] } } else s
  | .notice c n =>
    if c = s.chipId then s.noticeTo n.tile.toNat (takeBytes 16 n.bytes)
    else if fits then { s with fab := { s.fab with sentNotices := s.fab.sentNotices ++ [(c, n)] } } else s

/-- Whether the mesh has no place for a packet: a request to a tile whose ingress and last hop are full (R235). -/
def State.noPlace (s : State) : Packet → Bool
  | .req r => s.meshFull r
  | _ => false

/-- The oldest packet of a VC leaves a port's receive buffer, and its slots are freed, when the mesh has a place for it (R532). -/
def State.portAdvance (s : State) (p v : Nat) : State :=
  match arrived (spGet (fun _ => []) (s.port p).rx v) with
  | some (k, n) =>
    if s.noPlace k then s else (s.onPort p (fun x => { x with
      rx := spSet (fun _ => []) x.rx v ((spGet (fun _ => []) x.rx v).drop n), freed := spSet (fun _ => 0) x.freed v ((spGet (fun _ => 0) x.freed v + n) % 256) })).enterMesh k
  | none => s

/-! ### Lanes (R542 to R544) -/

/-- LANE_FAIL of an active receive lane: it moves to the spare, or the link goes DOWN. Whether it has lost block lock, or only shows errors (R542), is
a free value. -/
def State.laneFail (s : State) (p l : Nat) : State :=
  let w := s.rd (Reg.LANE_STATUS p)
  if s.linkState p ≠ lnUp ∨ !wbit w (10 + l) then s
  else
    let d := s.draw
    let s := d.1.wr (Reg.LANE_STATUS p) (wSetBit (wSetBit w (5 + l) true) l (wbit w l && d.2 % 2 == 1))
    let spare := (List.range 5).any (fun k => !wbit w (10 + k) && wbit w k && !wbit w (5 + k))
    let may := s.fld (Reg.LINK_STATUS p) 13 10 == 3 && s.bit (Reg.LINK_CFG p) 4 && !s.bit (Reg.LINK_STATUS p) 28 && (s.port p).subReq.isNone && spare
    let now := s.now
    if may then s.onPort p (fun x => { x with subReq := some l, subSince := now }) else s.goDown p 1

/-! ### Operations caught by a failure (R547) -/

/-- Complete one operation with ERR_LINK, or count it failed. -/
def State.failCaught (s : State) (key seq : Nat) : State :=
  if key = 16 * 0xFF + 8 then
    match s.host.out.find? (fun o => o.seq == seq) with
    | some o =>
      let t := s.now + 1000
      let s := s.count Reg.LINK_FAILED_OPS
      if o.acked then
        (s.onHost (fun h => { h with late := h.late ++ [(o.tag.toNat, t)] })).hostResponse
          { prio := o.prio, epoch := 0, status := 8, flags := 0, tag := o.tag, dstChip := s.chipId, dstTile := 0xFF, dstUnit := 8, data0 := 0, aux := 0, payload := [] }
      else (s.onHost (fun h => { h with out := h.out.erase o, failed := h.failed + 1 })).hostFenceCheck
    | none => s
  else if 16 * 0xFF + 8 < key then
    match s.fab.blockOut.find? (fun o => 16 * 0xFF + o.unit == key && o.seq == seq) with
    | some o =>
      let s : State := { s.count Reg.LINK_FAILED_OPS with fab := { s.fab with blockOut := s.fab.blockOut.erase o } }
      if o.acked then (({ s with fab := { s.fab with late := s.fab.late ++ [(o.tag.toNat, s.now + 1000)] } } : State).coreAnswer o.req cLink) else s.pushDone o.req false
    | none => s
  else
    let l := key / 16
    match (s.ltile l).out.find? (fun o => o.unit == key % 16 && o.seq == seq) with
    | some o =>
      let t := s.now + 1000
      let s := s.count Reg.LINK_FAILED_OPS
      if o.acked then
        (s.onL l (fun x => { x with late := x.late ++ [(o.tag.toNat, t)] })).tileResponse l
          { prio := o.prio, epoch := 0, status := 8, flags := 0, tag := o.tag, dstChip := s.chipId, dstTile := BitVec.ofNat 8 l,
            dstUnit := BitVec.ofNat 4 o.unit, data0 := 0, aux := 0, payload := [] }
      else s.onL l (fun x => (({ x with out := x.out.erase o } : Tile).onThread o.owner (fun h => { h with failed := h.failed + 1 })).settleAll)
    | none => s

/-- LINK_OP_TIMEOUT: the operations caught by a failure whose time is over. -/
def State.opTimeout (s : State) : State :=
  let due := s.links.caught.filter (fun c => decide (c.1 ≤ s.now))
  let s := { s with links := { s.links with caught := s.links.caught.filter (fun c => decide (s.now < c.1)) } }
  due.foldl (fun s c => s.failCaught c.2.1 c.2.2) s

/-! ### Skew and resuming (R555, R646, R648) -/

/-- LINK_SKEW_MEASURE: two measurements in a row above 1 µs raise TIME. -/
def State.skew (s : State) (p : Nat) (ns : Int) : State :=
  if s.linkState p ≠ lnUp then s
  else
    let high := decide (1000 < ns.natAbs)
    let again := high && (s.port p).skewHigh
    let s := (s.wr (Reg.LINK_SKEW p) (wi ns)).onPort p (fun x => { x with skewHigh := high })
    if again then s.raiseInt 18 else s

/-- A parked port resumes, with or without a wake notice from the peer: a waking device sends its own notice, and one in LISTEN that takes notices
starts a wake without marks. -/
def State.portResume (s : State) (p : Nat) (notice : Bool) : State :=
  if !(s.port p).parked then s
  else
    let t := s.now
    let s := s.onPort p (fun x => { x with parked := false, heard := t })
    let peers := s.bit Reg.PWR_CFG 3
    let s := if peers && s.pwr.waking.isSome then { s with links := { s.links with wakeSent := s.links.wakeSent ++ [p] } } else s
    if notice && peers && s.fld Reg.PWR_STATUS 1 0 == 0 && s.pwr.waking.isNone then { s with pwr := { s.pwr with waking := some t } } else s

/-! ### Commands -/

/-- LINK_CMD TRAIN. -/
def execLinkCmdTrain (p : Fin 8) (s : State) : Host.Outcome State Fault Refusal :=
  .next (s.atBlock 13 (fun s => (s.linkTrain p)))
/-- LINK_CMD DISABLE. -/
def execLinkCmdDisable (p : Fin 8) (s : State) : Host.Outcome State Fault Refusal :=
  .next (s.atBlock 13 (fun s => (s.linkDisable p)))
/-- LINK_TRAIN_DONE. -/
def execLinkTrainDone (p : Fin 8) (locked : BitVec 5) (ts : Option TsFlit) (s : State) : Host.Outcome State Fault Refusal := .next (s.trainDone p locked ts)
/-- LINK_AUTO_RETRAIN. -/
def execLinkAutoRetrain (p : Fin 8) (s : State) : Host.Outcome State Fault Refusal := .next (s.autoRetrain p)
/-- LINK_FRAME_SEND. -/
def execLinkFrameSend (p : Fin 8) (s : State) : Host.Outcome State Fault Refusal := .next (s.frameSend p)
/-- LINK_FRAME_RECEIVE: the control flit as it came, and the data flits after it, each with its bits, over which the CRC goes. -/
def execLinkFrameReceive (p : Fin 8) (w : BitVec 128) (data : List (DataFlit × BitVec 128)) (s : State) : Host.Outcome State Fault Refusal :=
  .next (s.frameReceive p (frameTaken w (data.map (·.2))) (ctlFrame w (readFlits data)))
/-- LANE_FAIL. -/
def execLaneFail (p : Fin 8) (l : Fin 5) (s : State) : Host.Outcome State Fault Refusal := .next (s.laneFail p l)
/-- LINK_DOWN: RETRY, or SILENT. -/
def execLinkDown (p : Fin 8) (silent : Bool) (s : State) : Host.Outcome State Fault Refusal := .next (s.linkDown p (if silent then 6 else 5))
/-- LINK_NOTICE. -/
def execLinkNotice (p : Fin 8) (n : LinkNotice) (s : State) : Host.Outcome State Fault Refusal := .next (s.linkNotice p n)
/-- LINK_OP_TIMEOUT. -/
def execLinkOpTimeout (s : State) : Host.Outcome State Fault Refusal := .next s.opTimeout
/-- LINK_SKEW_MEASURE, in ns. -/
def execLinkSkewMeasure (p : Fin 8) (ns : Int) (s : State) : Host.Outcome State Fault Refusal := .next (s.skew p ns)
/-- PORT_RESUME: traffic is queued for a parked port, or it detects activity of its peer. -/
def execPortResume (p : Fin 8) (notice : Bool) (s : State) : Host.Outcome State Fault Refusal := .next (s.portResume p notice)

end Sys2Proof.Machine
end

