-- ==== Sys2Proof/Machine/Peal.lean ====
section
/-! DEFINITION. The peal: scheduled steps, LBIST slices, march elements with repairs, the V/f calibration, and BIST_CMD (R578 to R581,
R585, R589 to R592, R600, R632). -/

namespace Sys2Proof.Machine

/-! ### What a test may do, and how it ends -/

/-- Whether slices, elements and steps may start: ARMED or FULL, no mode change, no limiting (R579, Table 17.2). -/
def State.pealMayRun (s : State) : Bool :=
  (s.fld Reg.PWR_STATUS 1 0 == 1 || s.fld Reg.PWR_STATUS 1 0 == 2) && !s.bit Reg.PWR_STATUS 2 && !s.limiting

/-- The test under way on a physical tile. -/
def State.testOf (s : State) (p : Nat) : Option PealTest := s.peal.tests.find? (fun t => t.phys == p)

/-- Replace the test of a tile. -/
def State.setTest (s : State) (t : PealTest) : State :=
  s.onPeal (fun c => { c with tests := c.tests.map (fun x => if x.phys = t.phys then t else x) })

/-- What follows when a test has come to its end: a peal step counts, a host command ends. -/
def State.testOver (s : State) (t : PealTest) (pass : Bool) : State := (if t.step then s.count Reg.PEAL_STEPS else s).testEnds t pass

/-- A test retires its tile. -/
def State.testRetires (s : State) (t : PealTest) (cause mem addr bit : Nat) : State :=
  ((s.retireTile t.phys cause mem addr bit t.origin).testOver t false).rechoose

/-- The lowest logical tile of a row without a physical tile, no takeover under way. -/
def State.lostRole (s : State) (r : Nat) : Option Nat :=
  ((List.range 16).map (fun i => 16 * r + i)).find? (fun l => s.mapState l == 3 && (s.relocOf l).isNone)

/-- A test has passed: the tile's lines are cleared and it is free; after UNRETIRE it takes a role that has no tile. -/
def State.testPasses (s : State) (t : PealTest) : State :=
  let p := t.phys
  let s := s.onPeal (fun c => { c with tests := c.tests.filter (fun x => x.phys != p), retest := c.retest.filter (· != p) })
  let s := (s.clearLines false p).clearLines true p
  let s := (s.setPhys p phFree).setBit (Reg.PHYS_STATUS p) 2 false
  let s := s.testOver t true
  let s := if t.unretire then
      match s.lostRole (p / 17) with
      | some l => (((s.setFld (Reg.TILE_MAP l) 8 0 p).setMap l 0).setPhys p phInRole).admitUpdate l
      | none => s
    else s
  s.relocateFaulted

/-! ### LBIST (R589, R590) -/

/-- LBIST_SLICE: the next slice of a tile's test; a tile whose test LISTEN stopped starts anew. -/
def State.lbistSlice (s : State) (p : Nat) (ok : Bool) : State :=
  if !s.pealMayRun then s
  else
    let s := if s.peal.retest.contains p && s.phys p == phFree && !s.chosen p then
        (s.startTest p 1 none false false).onPeal (fun c => { c with retest := c.retest.filter (· != p) })
      else s
    match s.testOf p with
    | none => s
    | some t =>
      let s := s.onTile p Tile.wake
      if 24 ≤ t.slice then s
      else if t.slice = 0 ∧ (s.tile p).spareBad then s.testRetires t 3 6 0 0xFFFF
      else
        match t.seed with
        | some seed =>
          let x := if ok then (s, Config.lbistSignature seed.toNat t.slice) else s.draw
          let t := { t with slice := t.slice + 1, sigs := t.sigs ++ toBytes 4 x.2 }
          let s := if t.slice = 24 then x.1.wr Reg.BIST_SIGNATURE (crc32 t.sigs) else x.1
          s.setTest t
        | none =>
          if ok then
            (s.setTest { t with slice := t.slice + 1 }).setBit (Reg.PHYS_STATUS p) 3 ((s.tile p).bit Reg.CLK_STATUS 11)
          else (s.count Reg.LBIST_FAILS).testRetires t 1 5 t.slice 0xFFFF

/-! ### MBIST (R591) -/

/-- Journal a column's sparing (R451): physical tile and spared bank. -/
def State.journalSparing (s : State) (p : Nat) : State :=
  s.deviceRecord .journal 0x11 (wd (0x8C010000 + p)) (toBytes 2 p ++ toBytes 1 (wfld (s.col p).status 7 4) ++ toBytes 1 1)

/-- The bank of a column is held by physical bank 16 from now on (R451). -/
def State.spareBank (s : State) (p bank : Nat) : State :=
  let s := s.onCol p (fun c => { c with status := wSetFld (wSetBit c.status 3 true) 7 4 bank })
  let s := ((s.count Reg.BANK_SPARES).raiseInt 8).setBit (Reg.PHYS_STATUS p) 13 true
  s.journalSparing p

/-- Mark a column faulted (R452): as for a poison, a clap and an interrupt follow. -/
def State.markColumn (s : State) (p cause bank : Nat) : State :=
  let s := s.onCol p (fun c =>
    { c with status := wSetFld (wSetFld (wSetBit c.status 0 true) 2 1 cause) 11 8 bank, poisoned := satInc c.poisoned })
  (((s.count Reg.COLUMN_FAULTS).count Reg.POISONED_LINES).noteClap 4).raiseInt 8

/-- The log entry for a clay bank or column of a tile under test (Table 20.6): the tile holds no role, so the logical tile that ARG names is a free
value (log entry 81). -/
def State.clayLogged (s : State) (sev cause : Nat) : State := let d := s.draw; d.1.logEvent 8 sev (wd (d.2 % 256 + cause))

/-- One failing cell that MBIST finds: its memory, address and bit. The answer is whether the tile was retired. A row that this test has repaired
needs no more; one repaired before fails on its spare row and takes another, while its macro has one (R449, R591). A cell found after the one that
retires the tile is reported as LOGGED. -/
def State.mbistCell (s : State) (t : PealTest) (out : Bool) (mem addr bit : Nat) : State × PealTest × Bool :=
  let p := t.phys
  if out then (s.repairEntry p mem 3 addr bit t.origin, t, true)
  else if mem = 0 then
    let row := 128 * (addr % 8) + addr / 8 / 4
    let rows := s.repaired p
    if t.fixed.contains row then (s.repairEntry p mem 3 addr bit t.origin, t, false)
    else if ((Config.productionRows p ++ rows).filter (fun x => x / 128 == addr % 8)).length < 2 then
      let s := s.onPeal (fun c => { c with rows := spSet (fun _ => []) c.rows p (rows ++ [row]) })
      let s := s.setFld (Reg.PHYS_STATUS p) 12 8 (rows.length + 1)
      let s := ((s.count Reg.REPAIRS).raiseInt 17).repairEntry p mem 0 addr bit t.origin
      ((s.journalTile p).logEvent 3 0 (wd p), { t with fixed := t.fixed ++ [row] }, false)
    else (s.testRetires t 2 mem addr bit, t, true)
  else if mem = 4 then
    let bank := addr / 0x20000
    let c := (s.col p).status
    if !wbit c 3 then
      let s := (s.spareBank p bank).count Reg.REPAIRS
      ((((s.raiseInt 17).repairEntry p mem 1 addr bit t.origin).logEvent 3 0 (wd (p + 2 ^ 24))).clayLogged 1 0, { t with spared := true }, false)
    else if t.spared ∧ wfld c 7 4 = bank then (s.repairEntry p mem 3 addr bit t.origin, t, false)
    else (((s.markColumn p 1 bank).clayLogged 2 (2 ^ 24)).testRetires t 4 mem addr bit, t, true)
  else (s.testRetires t 2 mem addr bit, t, true)

/-- MBIST_ELEMENT: the next march element, with the failing cells it finds. -/
def State.mbistElement (s : State) (p : Nat) (cells : List (Nat × Nat × Nat)) : State :=
  match s.testOf p with
  | none => s
  | some t =>
    if !s.pealMayRun ∨ t.slice < 24 ∨ 24 ≤ t.elem then s
    else
      let x := cells.foldl (fun (a : State × PealTest × Bool) c => a.1.mbistCell a.2.1 a.2.2 c.1 c.2.1 c.2.2)
        ((s.onTile p Tile.wake).wakeBanks p true 0 0x200000, t, false)
      if x.2.2 then x.1
      else
        let t := { x.2.1 with elem := x.2.1.elem + 1 }
        let s := x.1.setTest t
        if t.elem < 24 ∨ t.origin = 1 then s else s.testPasses t

/-! ### V/f calibration (R632) -/

/-- VF_CALIBRATE: the highest 25 MHz step at which the freed tile passed, 0 for none. -/
def State.vfCalibrate (s : State) (p top : Nat) : State :=
  match s.testOf p with
  | none => s
  | some t =>
    if t.elem < 24 ∨ t.origin ≠ 1 then s
    else if top < 500 then s.testRetires t 1 5 0 0xFFFF
    else
      let v := s.vlevelOf p
      let m := min (min 1150 (top / 25 * 25) - 25) (s.droopCap p v)
      let s := if s.cal p v = m then s else (s.setCal p v m).journalVf p
      s.testPasses t

/-! ### Steps (R578 to R581) -/

/-- The interval between a row's steps in µs (R578). -/
def State.pealInterval (s : State) (r : Nat) : Nat :=
  s.fld Reg.PEAL_CFG 8 1 * 3600000000 / max 1 ((rowTiles r).filter (fun p => s.phys p != phRetired)).length

/-- The tile that gives up its role next (R580). -/
def State.victim (s : State) (r : Nat) : Option Nat :=
  let first := match spGet (fun _ => none) s.peal.prev r with | some c => c + 1 | none => 0
  ((List.range 17).map (fun i => 17 * r + (first + i) % 17)).find? (fun p => s.phys p == phInRole && (s.logicalOf p).isSome)

/-- The scheduled time after one that has come (R578). -/
def nextDue (due interval now : Nat) : Nat := if now < due then due else due + interval

/-- PEAL_STEP_START: a row whose step is due, or asked for by STEP, starts it when every condition of R579 holds. -/
def State.pealStepStart (s : State) (r : Nat) : State :=
  let asked := s.peal.stepCmd == some (r, false)
  let due := match spGet (fun _ => none) s.peal.due r with
    | some t => decide (t ≤ s.now) && s.bit Reg.PEAL_CFG 0 && s.bit Reg.PEAL_ROWS r
    | none => false
  if (!asked && !due) || !s.ready || s.stepping r || s.lcState == lcScrapped || !s.pealMayRun then s
  else
    match s.freeTile r, s.victim r with
    | some q, some v =>
      match s.logicalOf v with
      | none => s
      | some l =>
        if s.untested q || s.mapState l != 0 then s
        else
          let s := s.onPeal (fun c => { c with prev := spSet (fun _ => none) c.prev r (some (v % 17)) })
          let s := if asked then s.onPeal (fun c => { c with stepCmd := some (r, true) })
            else s.onPeal (fun c => { c with due := spSet (fun _ => none) c.due r ((spGet (fun _ => none) c.due r).map (fun t => nextDue t (s.pealInterval r) s.now)) })
          s.startReloc l q true false
    | _, _ => s

/-- The rows' first steps, staggered from READY (R578). -/
def State.pealArm (s : State) : State :=
  (List.range 16).foldl (fun (s : State) r => s.onPeal (fun c => { c with due := spSet (fun _ => none) c.due r (some (s.now + s.pealInterval r * r / 16)) })) s

/-! ### BIST_CMD (R600) -/

/-- BIST_CMD refuses. -/
def State.bistErr (s : State) (e : Nat) : State := s.setFld Reg.BIST_STATUS 3 1 e

/-- Start a command that is accepted. -/
def State.bistBusy (s : State) : State := (s.setFld Reg.BIST_STATUS 3 1 0).setBit Reg.BIST_STATUS 0 true

/-- A command on the tile of BIST_ARG: STATE first, then RANGE, then its own reason. -/
def State.bistCmd (s : State) (state : Bool) (reason : State → Nat → Option Nat) (act : State → Nat → State) : State :=
  if s.bit Reg.BIST_STATUS 0 then s
  else
    let p := s.fld Reg.BIST_ARG 8 0
    if s.lcState = lcScrapped ∨ state then s.bistErr 1
    else if 271 < p then s.bistErr 4
    else
      match reason s p with
      | some e => s.bistErr e
      | none => act s.bistBusy p

/-- NOT_FREE. -/
def State.notFree (s : State) (p : Nat) : Option Nat := if s.phys p = phFree ∧ !s.chosen p then none else some 2

/-- TEST_TILE. -/
def State.bistTest (s : State) : State :=
  let useSeed := s.bit Reg.BIST_ARG 20
  s.bistCmd (useSeed && s.lcState != lcBlank && s.lcState != lcService) State.notFree
    (fun s p => s.startTest p 2 (if useSeed then some (s.rd Reg.BIST_SEED) else none) false false)

/-- RETIRE. -/
def State.bistRetire (s : State) : State :=
  s.bistCmd false State.notFree (fun s p => (s.retireTile p 5 7 0 0xFFFF 2).setBit Reg.BIST_STATUS 0 false)

/-- UNRETIRE: the journal record goes, and with it the field repairs it holds, which the test finds anew; the tile is tested. -/
def State.bistUnretire (s : State) : State :=
  s.bistCmd (s.lcState != lcService) (fun s p => if s.phys p = phRetired then none else some 5)
    (fun s p =>
      let s := s.deviceRecord .journal 2 (wd (0x8E000000 + p)) []
      let s := (s.onPeal (fun c => { c with rows := spSet (fun _ => []) c.rows p [] })).setFld (Reg.PHYS_STATUS p) 12 8 0
      let s := ((s.onTile p (fun t => t.bare.setBit Reg.CLK_STATUS 10 true)).endFault p).setFld (Reg.PHYS_STATUS p) 7 4 0
      s.startTest p 2 none false true)

/-- STEP. -/
def State.bistStep (s : State) : State :=
  if s.bit Reg.BIST_STATUS 0 then s
  else
    let r := s.fld Reg.BIST_ARG 19 16
    if s.lcState = lcScrapped then s.bistErr 1
    else if s.stepping r then s.bistErr 3
    else if !(rowTiles r).any (fun p => s.phys p == phFree) then s.bistErr 2
    else State.pealStepStart (s.bistBusy.onPeal (fun c => { c with stepCmd := some (r, false) })) r

/-! ### Views and LISTEN -/

/-- PEAL_STATUS as read. -/
def State.pealStatus (s : State) : Word :=
  wd (((List.range 16).map (fun r => if (rowTiles r).any (fun p => s.phys p == phTesting) then 2 ^ r else 0)).sum +
      2 ^ 16 * (!s.pealMayRun).toNat)

/-- ROW_STATUS[r] as read. -/
def State.rowStatus (s : State) (r : Nat) : Word :=
  let free := (rowTiles r).find? (fun p => s.phys p == phFree || s.phys p == phTesting)
  wd ((match free with | some p => p % 17 + 32 | none => 16) + 2 ^ 6 * (match s.victim r with | some p => p % 17 | none => 0) +
      2 ^ 11 * ((rowTiles r).filter (fun p => s.phys p == phRetired)).length)

/-- A request for LISTEN stops every test (Table 17.2): the tile is tested again first after the wake. -/
def State.stopTests (s : State) : State :=
  s.peal.tests.foldl (fun s t =>
    (s.stopTest t.phys).onPeal (fun c => { c with retest := c.retest ++ [t.phys] })) s

/-! ### Commands -/

/-- PEAL_STEP_START. -/
def execPealStepStart (r : Fin 16) (s : State) : Host.Outcome State Fault Refusal := .next (s.pealStepStart r)
/-- LBIST_SLICE, with whether the tile's logic is sound in this slice. -/
def execLbistSlice (p : Fin 272) (ok : Bool) (s : State) : Host.Outcome State Fault Refusal := .next (s.lbistSlice p ok)
/-- MBIST_ELEMENT, with the failing cells: memory (MEM of Table 17.3), address, bit. -/
def execMbistElement (p : Fin 272) (cells : List (Nat × Nat × Nat)) (s : State) : Host.Outcome State Fault Refusal := .next (s.mbistElement p cells)
/-- VF_CALIBRATE, with the highest step passed in MHz. -/
def execVfCalibrate (p : Fin 272) (top : Nat) (s : State) : Host.Outcome State Fault Refusal := .next (s.vfCalibrate p top)
/-- BIST_CMD_TEST_TILE. -/
def execBistCmdTestTile (s : State) : Host.Outcome State Fault Refusal :=
  .next (s.atBlock 14 (fun s => s.bistTest))
/-- BIST_CMD_RETIRE. -/
def execBistCmdRetire (s : State) : Host.Outcome State Fault Refusal :=
  .next (s.atBlock 14 (fun s => s.bistRetire))
/-- BIST_CMD_UNRETIRE. -/
def execBistCmdUnretire (s : State) : Host.Outcome State Fault Refusal :=
  .next (s.atBlock 14 (fun s => s.bistUnretire))
/-- BIST_CMD_STEP. -/
def execBistCmdStep (s : State) : Host.Outcome State Fault Refusal :=
  .next (s.atBlock 14 (fun s => s.bistStep))

end Sys2Proof.Machine
end

