-- ==== Sys2Proof/Machine/Ports.lean ====
section
/-! DEFINITION. TDM ports, address-event ports and host-injected frames (R398 to R420). -/

namespace Sys2Proof.Machine

/-! ### TDM ports -/

/-- A TDM port. -/
def State.tdm (s : State) (p : Nat) : TdmPort := spGet (fun _ => TdmPort.reset) s.ports.tdm p

/-- The state with a TDM port changed. -/
def State.onTdm (s : State) (p : Nat) (f : TdmPort → TdmPort) : State :=
  { s with ports := { s.ports with tdm := spSet (fun _ => TdmPort.reset) s.ports.tdm p (f (s.tdm p)) } }

/-- TDM_STATUS.STATE (Table 11.7). -/
abbrev tdmOff : Nat := 0
abbrev tdmSeeking : Nat := 1
abbrev tdmLocked : Nat := 2
abbrev tdmLost : Nat := 3
def State.tdmState (s : State) (p : Nat) : Nat := s.fld (Reg.TDM_STATUS p) 1 0

/-- Slots of a port. -/
def State.tdmSlots (s : State) (p : Nat) : Nat := s.fld (Reg.TDM_CFG p) 6 3 + 1

/-- The bits of a word length code. -/
def wlenBits (c : Nat) : Nat := if c = 0 then 16 else if c = 1 then 24 else 32

/-- TDM_CFG[p] written (R399). -/
def State.tdmCfgWrite (s : State) (p : Nat) (v : Word) : State × Nat :=
  let o := s.rd (Reg.TDM_CFG p)
  let v := v &&& 0xFFFFF#32
  if wbit o 0 && wSetBit v 19 false != wSetBit o 19 false then (s, 0x0B)
  else
    let ok := decide (wfld v 8 7 ≤ 2) && decide (wfld v 11 9 ≤ 4) && decide (1 ≤ wfld v 6 3) && decide (wfld v 18 14 ≤ 16) &&
      (wfld v 6 3 == 1 || (wfld v 2 1 != 0 && wfld v 2 1 != 3))
    let en := wbit v 0 && ok
    let s := s.wr (Reg.TDM_CFG p) (wSetBit v 0 en)
    let s := if wbit v 19 && !wbit o 19 then s.onTdm p (fun x => { x with txNow := [], txNext := none }) else s
    if en && !wbit o 0 then ((s.setFld (Reg.TDM_STATUS p) 1 0 tdmSeeking).onTdm p (fun _ => TdmPort.reset), 0) else (s, 0)

/-- DELIV_HI of a TDM port written (Table 9.5). -/
def State.tdmDelivHiWrite (s : State) (p : Nat) (v : Word) : State :=
  s.upd (Reg.TDM_DELIV_HI p) (fun o => (o &&& 0x4000#32) ||| (wSetBit (v &&& 0x3FFF#32) 8 (wbit v 8 && decide (wfld v 13 10 ≤ 8))))

/-- Whether a stream draws on a TDM port. -/
def State.onTdmPort (s : State) (p e : Nat) : Bool := s.desc e 0 0 4 == 3 && s.desc e 0 4 12 / 16 == p

/-- TDM_LOCK: two frame syncs at the expected spacing take a seeking port to LOCKED, and its sample times count anew (R400, R404). -/
def State.tdmLock (s : State) (p : Nat) : State :=
  if s.bit (Reg.TDM_CFG p) 0 ∧ (s.tdmState p = tdmSeeking ∨ s.tdmState p = tdmLost) then
    (s.wr (Reg.TDM_STATUS p) (wd tdmLocked)).onTdm p (fun x => { x with queue := [], sent := 0, drops := [], fails := 0, txNow := [], txNext := none })
  else s

/-- TDM_LOST, by cause: BCLK absent for 1 ms (0), 4 failed frames (1), a rate outside ±1 % (2), which sets RATE_ERR of a port that seeks again, too. -/
def State.tdmLose (s : State) (p cause : Nat) : State :=
  if !s.bit (Reg.TDM_CFG p) 0 || (cause == 1 && decide ((s.tdm p).fails < 4)) then s
  else if s.tdmState p = tdmLost then (if cause = 2 then s.setBit (Reg.TDM_STATUS p) 2 true else s)
  else
    let s := s.setFld (Reg.TDM_STATUS p) 1 0 tdmLost
    let s := if cause = 2 then s.setBit (Reg.TDM_STATUS p) 2 true else s
    (s.onTdm p (fun x => { x with queue := [], fails := 0 })).breakAll brSourceLost (fun e => s.onTdmPort p e)

/-- FS and DIN of a BCLK as the port captures them, at the edge that BCLK_POL selects (Table 11.2). -/
def captureEdge (pol : Bool) (x : BclkSample) : Bool × Bool := if pol then (x.fsFall, x.dinFall) else (x.fsRise, x.dinRise)

/-- The level of FS at a frame sync: low with framing 0, high with the others; and how many BCLKs later the first data bit comes (Table 11.1). -/
def syncLevel (framing : Nat) : Bool := framing != 0
def syncDelay (framing : Nat) : Nat := if framing < 2 then 1 else 0

/-- The data bits of a captured frame: those from the first data bit of its frame sync on. -/
def frameBits (cfg : Word) (f : List BclkSample) : List Bool :=
  let xs := f.map (captureEdge (wbit cfg 12))
  ((xs.dropWhile (fun x => x.1 != syncLevel (wfld cfg 2 1))).drop (syncDelay (wfld cfg 2 1))).map (·.2)

/-- The value of slot j of a frame (R398, R402): the WLEN bits that come first of its 32, MSB first, as a signed integer. -/
def slotValue (cfg : Word) (bits : List Bool) (j : Nat) : Int :=
  let n := wlenBits (wfld cfg 8 7)
  let w := (List.range n).foldl (fun a i => 2 * a + (bits.getD (32 * j + i) false).toNat) 0
  sext n w

/-- Captured frames, each from the BCLK of its frame sync on, join the port's queue; slots at or beyond the slot count read 0. -/
def State.tdmFrames (s : State) (p : Nat) (frames : List (List BclkSample)) : State :=
  let n := s.tdmSlots p
  let cfg := s.rd (Reg.TDM_CFG p)
  let vs := frames.map (fun f => let bits := frameBits cfg f; (List.range 16).map (fun j => if j < n then slotValue cfg bits j else 0))
  s.onTdm p (fun x => { x with queue := x.queue ++ vs, fails := if frames.isEmpty then x.fails else 0 })

/-- TDM_FS_ERROR, after the frames captured before it: the frame it cuts short is zeros (R401). -/
def State.tdmFsError (s : State) (p : Nat) (frames : List (List BclkSample)) : State :=
  if s.tdmState p = tdmLocked then
    ((s.tdmFrames p frames).onTdm p (fun x => { x with queue := x.queue ++ [List.replicate 16 0], fails := x.fails + 1 })).count (Reg.FS_ERR p)
      |>.count (Reg.TDM_GAP_SAMPLES p)
  else s

/-- A block of n sample times in a port's format (R402). -/
def State.tdmBlock (s : State) (p n : Nat) : List Byte :=
  let cfg := s.rd (Reg.TDM_CFG p)
  ((s.tdm p).queue.take n).flatMap (fun f => f.flatMap (fun v =>
    if wbit cfg 13 then sampleBytes 4 v else sampleBytes 2 (clampI (-32768) 32767 (rneShift v (wfld cfg 18 14)))))

/-- TDM_DELIV_PUSH, with the frames captured since the last block or sync error: a complete block goes to the port's ring with
the frames that end in it, or is dropped (R402 to R404). Without delivery the sample times pass by. -/
def State.tdmDelivPush (s : State) (p : Nat) (frames : List (List BclkSample)) : State :=
  if s.tdmState p ≠ tdmLocked then s
  else
    let s := s.tdmFrames p frames
    let n := if s.bit (Reg.TDM_CFG p) 13 then 4 else 8
    if (s.tdm p).queue.length < n then s
    else
      let hi := s.rd (Reg.TDM_DELIV_HI p)
      let on := wbit hi 8 && !s.inListen
      let x := s.tdm p
      let lo := x.sent
      let ends := s.frameEnds lo (lo + n) (outRate (s.fld (Reg.TDM_CFG p) 11 9)) (x.drops.map (fun d => ((d.1 : Int), (d.2 : Int)))) (fun e => s.onTdmPort p e)
      let y := if on then s.pushBlock feUnit (s.addrAt (Reg.TDM_DELIV_LO p) (Reg.TDM_DELIV_HI p)) (wbit hi 14) 8 (s.tdmBlock p n) ends else (s, false)
      let s := if on && !y.2 then y.1.count (Reg.TDM_DELIV_LOST p) else y.1
      let drops := (if y.2 then x.drops else x.drops ++ [(lo, lo + n)]).filter (fun d => decide (lo < d.2 + 2000))
      s.onTdm p (fun x => { x with queue := x.queue.drop n, sent := lo + n, drops := drops })

/-- A GET or PUT of a port to a tile of this chip, applied at once (R36). -/
def State.portOp (s : State) (op size : Nat) (a : Addr) (arg : Word) : State × Reply :=
  let r := s.stampEpoch (mkReq s op true 1 a size 0 feTile feUnit arg [])
  match s.issueError a with
  | some e => (s, Reply.err e)
  | none => if s.tileShut (Addr.tile a) ∨ s.wayFree r = false then (s, Reply.err cBusy) else (s.wakeL (Addr.tile a)).tileApply (Addr.tile a) r

/-- The next block of a TX ring of this chip, with TAIL moved past it; none where the ring holds none or refuses (R405). -/
def State.txFetch (s : State) (a : Addr) : State × Option (List Byte) :=
  let h := s.portOp 1 6 a 0
  let tail := wordAt h.2.payload 8
  let occ := (wordAt h.2.payload 4 - tail).toNat
  match lowestBelow 8 (fun n => (s.ltile (Addr.tile a)).ringOn n && (s.ltile (Addr.tile a)).ringBase n == Addr.off a) with
  | some n =>
    if h.2.status ≠ cOK ∨ occ = 0 ∨ ringSlotSize ((s.ltile (Addr.tile a)).rd (Reg.RING_CFG n)) ≠ 256 then (h.1, none)
    else
      let g := h.1.portOp 1 8 (BitVec.ofNat 40 (a.toNat - Addr.off a + (s.ltile (Addr.tile a)).ringSlot n tail.toNat)) 0
      if g.2.status ≠ cOK then (g.1, none)
      else ((g.1.portOp 2 2 (a + 8) (tail + 1)).1, some g.2.payload)
  | none => (h.1, none)

/-- A GET of a port to another chip. -/
def State.farGet (s : State) (a : Addr) (size : Nat) : State :=
  s.issue { mkReq s 1 true 1 a size 0 feTile feUnit 0 [] with owner := 2 }

/-- The next block of a TX ring on another chip: GETs of its header and of the slot at TAIL, and a PUT that moves TAIL past it. What the other
chip answers is given: TAIL, the logarithm of the ring's slots, and the block; none where it holds none or refuses, or no way leads there. -/
def State.txFar (s : State) (a : Addr) (remote : Option (Word × Nat × List Byte)) : State × Option (List Byte) :=
  if (s.issueError a).isSome then (s, none)
  else
    let s := s.farGet a 6
    match remote with
    | some (tail, k, b) =>
      let s := s.farGet (BitVec.ofNat 40 (a.toNat + 64 + 256 * (tail.toNat % 2 ^ k))) 8
      (s.issue (mkReq s 2 false 1 (a + 8) 2 0 feTile feUnit (tail + 1) []), some (takeBytes 256 b))
    | none => (s, none)

/-- TDM_TX_FETCH: the block fetched ahead goes out, and the next one is fetched; a block not there in time is zeros, and so is one of a port
whose TX ring is not enabled (R405). -/
def State.tdmTx (s : State) (p : Nat) (remote : Option (Word × Nat × List Byte)) : State :=
  let a := s.addrAt (Reg.TX_LO p) (Reg.TX_HI p)
  if !s.bit (Reg.TDM_CFG p) 19 || s.tdmState p != tdmLocked || s.inListen then s
  else
    let x : State × Option (List Byte) :=
      if !s.bit (Reg.TX_HI p) 8 then (s, none) else if Addr.chip a = s.chipId.toNat then s.txFetch a else s.txFar a remote
    let s := if x.2.isNone then x.1.count (Reg.TX_UNDERRUN p) else x.1
    s.onTdm p (fun t => { t with txNow := t.txNext.getD (List.replicate 256 0), txNext := some (x.2.getD (List.replicate 256 0)) })

/-- What DOUT sends in a slot at a sample time of the block: left-justified, 0 where it does not transmit (R405, R406). -/
def State.tdmOut (s : State) (p t j : Nat) : Word :=
  let cfg := s.rd (Reg.TDM_CFG p)
  if !wbit cfg 19 || s.tdmState p != tdmLocked || s.inListen || decide (s.tdmSlots p ≤ j) then 0
  else if wbit cfg 13 then wd (natAt (s.tdm p).txNow (4 * (16 * t + j)) 4 * 2 ^ (32 - wlenBits (wfld cfg 8 7)))
  else wd (natAt (s.tdm p).txNow (2 * (16 * t + j)) 2 * 2 ^ 16)

/-! ### Address-event ports -/

/-- An address-event port. -/
def State.aer (s : State) (p : Nat) : AePort := spGet (fun _ => AePort.reset) s.ports.ae p

/-- The state with an address-event port changed. -/
def State.onAer (s : State) (p : Nat) (f : AePort → AePort) : State :=
  { s with ports := { s.ports with ae := spSet (fun _ => AePort.reset) s.ports.ae p (f (s.aer p)) } }

/-- Note an event of a map: issued, or discarded. -/
def State.aeNote (s : State) (m : Nat) (dropped : Bool) : State :=
  { s with ports := { s.ports with log := s.ports.log.filter (fun e => decide (s.now < e.2.1 + 20001)) ++ [(m, s.now, dropped)] } }

/-- Whether the POSTs of a map travel urgent (R409). -/
def State.mapUrgent (s : State) (m : Nat) : Bool :=
  s.liveStreams.any (fun e => s.desc e 0 0 4 == 4 && s.desc e 0 4 12 == m && s.strClass e == 0 && s.strServed e)

/-- Acknowledge an event: the handshake completes and the event is counted. -/
def State.aeAck (s : State) (p : Nat) : State := (s.onAer p (fun x => { x with held := none })).count (Reg.AE_EVENTS p)

/-- Withhold ACK of an event presented at a time. -/
def State.aeHold (s : State) (p a t : Nat) : State := s.onAer p (fun x => { x with held := some (a, t) })

/-- The weight of an event (R408): negating −32,768 leaves a value the spec does not state. -/
def State.aeWeight (s : State) (w : Nat) (neg : Bool) : State × Nat :=
  if !neg then (s, w) else if w = 0x8000 then (let d := s.draw; (d.1, d.2 % 65536)) else (s, (65536 - w) % 65536)

/-- Look an event up and queue it, discard it, or withhold its ACK (R408, R410, R413). -/
def State.aeLookup (s : State) (p a t : Nat) : State :=
  let lo := s.rd (Reg.MAP_ENTRY_LO p (a / 256))
  let hi := s.rd (Reg.MAP_ENTRY_HI p (a / 256))
  let m := wfld hi 15 8
  if !wbit lo 28 then (s.aeAck p).count (Reg.AE_UNMAPPED p)
  else if s.inListen ∧ ¬ (wfld lo 27 24 = s.chipId.toNat ∧ 240 ≤ wfld lo 23 16) then
    ((s.aeAck p).count (Reg.AE_DROPPED p)).aeNote m true
  else
    let urgent := s.mapUrgent m
    if 16 ≤ (if urgent then (s.aer p).urgent else (s.aer p).normal).length then s.aeHold p a t
    else
      let pol := wbit lo 29
      let n := (wfld lo 15 0 + (if pol then a % 256 / 2 else a % 256)) % 65536
      let w := s.aeWeight (wfld hi 31 16) (pol && a % 2 == 1)
      let s := w.1
      let r := mkReq s 8 false (if urgent then 0 else 1) (mkAddr (wfld lo 27 24) 0 (wfld lo 23 16) n) 0 0 feTile 11 (wd (wfld hi 5 0 + 2 ^ 16 * w.2)) []
      (s.aeAck p).onAer p (fun x => if urgent then { x with urgent := x.urgent ++ [(r, m)] } else { x with normal := x.normal ++ [(r, m)] })

/-- An event meets the rate window (R411), then the map. -/
def State.aeTry (s : State) (p a t : Nat) : State :=
  let w := s.now / 10
  let s := if (s.aer p).window = w then s else s.onAer p (fun x => { x with window := w, taken := 0 })
  let n := s.fld (Reg.AE_CFG p) 8 1
  if n ≠ 0 ∧ n ≤ (s.aer p).taken then s.aeHold p a t
  else
    let s' := s.aeLookup p a t
    if (s'.aer p).held.isSome then s' else s'.onAer p (fun x => { x with taken := x.taken + 1 })

/-- AE_EVENT: the sender presents an address; while EN = 0 or an ACK is withheld nothing is taken. -/
def State.aeEvent (s : State) (p a : Nat) : State :=
  if s.bit (Reg.AE_CFG p) 0 && (s.aer p).held.isNone then s.aeTry p a s.now else s

/-- Try again an event whose ACK is withheld. -/
def State.aeRetry (s : State) (p : Nat) : State :=
  match (s.aer p).held with
  | some (a, t) => if s.bit (Reg.AE_CFG p) 0 then s.aeTry p a t else s
  | none => s

/-- AE_POST_ISSUE: the oldest POST of a queue goes to the network, urgent while a stream of its map asks for it (R409). -/
def State.aeIssue (s : State) (p : Nat) (urgent : Bool) : State :=
  match (if urgent then (s.aer p).urgent else (s.aer p).normal) with
  | [] => s
  | (r, m) :: rest =>
    let s := s.onAer p (fun x => if urgent then { x with urgent := rest } else { x with normal := rest })
    ((s.issue { r with prio := if s.mapUrgent m then 0 else 1 }).aeNote m false).aeRetry p

/-- AE_RATE_WINDOW: in a new window a withheld event is tried again. -/
def State.aeWindow (s : State) (p : Nat) : State := if (s.aer p).window = s.now / 10 then s else s.aeRetry p

/-- AE_HOLD_EXPIRE: an event withheld for HOLD_LIMIT µs is acknowledged and discarded. -/
def State.aeExpire (s : State) (p : Nat) : State :=
  let h := s.fld (Reg.AE_CFG p) 24 9
  match (s.aer p).held with
  | some (a, t) =>
    if s.bit (Reg.AE_CFG p) 0 ∧ h ≠ 0 ∧ t + h ≤ s.now then
      ((s.aeAck p).count (Reg.AE_DROPPED p)).aeNote (s.fld (Reg.MAP_ENTRY_HI p (a / 256)) 15 8) true
    else s
  | none => s

/-- AE_FRAME_END of stream e at a multiple of its hop: the summary is pushed, and the frame ends when that push completes, unless it
is dropped (R414). -/
def State.aeFrameEnd (s : State) (e : Nat) : State :=
  let h := s.hopUs e
  if s.desc e 0 0 4 ≠ 4 ∨ ¬ (s.strState e = stActivating ∨ s.strState e = stActive) ∨ s.now % h ≠ 0 then s
  else
    let m := s.desc e 0 4 12
    let mine (drop : Bool) : Nat := (s.ports.log.filter (fun x => x.1 == m && x.2.2 == drop && decide (s.now ≤ x.2.1 + h) && decide (x.2.1 < s.now))).length
    let bs := toBytes 2 m ++ [0, 0] ++ toBytes 4 (mine false) ++ toBytes 4 (mine true) ++ toBytes 4 s.now
    (s.pushBlock 11 (s.descAddr e 4) (s.mapUrgent m) 4 bs [e]).1

/-- AE_STATUS as it now stands. -/
def State.aeStatus (s : State) (p : Nat) : Word :=
  wd ((s.aer p).held.isSome.toNat + 2 * (s.aer p).urgent.length + 2 ^ 6 * (s.aer p).normal.length)

/-! ### Host-injected frames (R416, R418) -/

/-- HOST_FRAME[n] written: the frame end of every kind-5 stream with that SRC_ID, unless it comes early. -/
def State.hostFrame (s : State) (n : Nat) : State :=
  (s.liveStreams.filter (fun e => s.desc e 0 0 4 == 5 && s.desc e 0 4 12 == n)).foldl (fun s e =>
    let early := match (s.run e).lastEnd with
      | some x => decide (2 * s.now < 2 * x + s.hopUs e)
      | none => false
    if early then s.count Reg.HOST_EARLY else s.acceptFrame e s.now false) s

/-! ### Commands -/

/-- TDM_LOCK. -/
def execTdmLock (p : Fin 2) (s : State) : Host.Outcome State Fault Refusal := .next (s.tdmLock p)
/-- TDM_LOST. -/
def execTdmLost (p : Fin 2) (cause : Fin 3) (s : State) : Host.Outcome State Fault Refusal := .next (s.tdmLose p cause)
/-- TDM_FS_ERROR. -/
def execTdmFsError (p : Fin 2) (frames : List (List BclkSample)) (s : State) : Host.Outcome State Fault Refusal := .next (s.tdmFsError p frames)
/-- TDM_DELIV_PUSH. -/
def execTdmDelivPush (p : Fin 2) (frames : List (List BclkSample)) (s : State) : Host.Outcome State Fault Refusal := .next (s.tdmDelivPush p frames)
/-- TDM_TX_FETCH. -/
def execTdmTxFetch (p : Fin 2) (remote : Option (Word × Nat × List Byte)) (s : State) : Host.Outcome State Fault Refusal := .next (s.tdmTx p remote)
/-- AE_EVENT. -/
def execAeEvent (p : Fin 2) (a : Fin 65536) (s : State) : Host.Outcome State Fault Refusal := .next (s.aeEvent p a)
/-- AE_POST_ISSUE. -/
def execAePostIssue (p : Fin 2) (urgent : Bool) (s : State) : Host.Outcome State Fault Refusal := .next (s.aeIssue p urgent)
/-- AE_RATE_WINDOW. -/
def execAeRateWindow (p : Fin 2) (s : State) : Host.Outcome State Fault Refusal := .next (s.aeWindow p)
/-- AE_HOLD_EXPIRE. -/
def execAeHoldExpire (p : Fin 2) (s : State) : Host.Outcome State Fault Refusal := .next (s.aeExpire p)
/-- AE_FRAME_END. -/
def execAeFrameEnd (e : Fin 2048) (s : State) : Host.Outcome State Fault Refusal := .next (s.aeFrameEnd e)
/-- HOST_FRAME_WRITE: any value. -/
def execHostFrameWrite (n : Fin 16) (_v : Word) (s : State) : Host.Outcome State Fault Refusal :=
  .next (s.atBlock 2 (fun s => s.hostFrame n))

end Sys2Proof.Machine
end

