-- ==== Sys2Proof/Machine/Power.lean ====
section
/-! DEFINITION. Power and device time: mode changes, LISTEN and waking, the guard band, droop, voltage levels, the power limiter, SYNC
(R629 to R655, R689). -/

namespace Sys2Proof.Machine

/-- The state with power changed. -/
def State.onPwr (s : State) (f : Power → Power) : State := { s with pwr := f s.pwr }

/-- The mode in effect, and PWR_STATUS.CHANGING. -/
def State.mode (s : State) : Nat := s.fld Reg.PWR_STATUS 1 0
def State.changing (s : State) : Bool := s.bit Reg.PWR_STATUS 2

/-! ### Requests (R520, R641) -/

/-- A request is refused with a code. -/
def State.modeRefuse (s : State) (code : Nat) : State := (s.setFld Reg.PWR_STATUS 5 3 code).raiseInt 14

/-- A change completes in mode m. -/
def State.modeDone (s : State) (m : Nat) : State :=
  (((s.setFld Reg.PWR_STATUS 1 0 m).setBit Reg.PWR_STATUS 2 false).count Reg.MODE_CHANGES).raiseInt 14

/-- A request for mode m, with the first case of R641 that refuses it. -/
def State.modeRequest (s : State) (m : Nat) : State :=
  if s.changing then s.modeRefuse 3
  else if m = 0 ∧ s.urgentServed then s.modeRefuse 1
  else if m = 0 ∧ s.matched then s.modeRefuse 2
  else
    let s := s.setFld Reg.PWR_STATUS 5 3 0
    if m = s.mode then s.raiseInt 14
    else if m = 0 then
      let s := (s.setBit Reg.PWR_STATUS 2 true).onPwr (fun p => { p with target := some 0 })
      { s with cu := { s.cu with asleep := true } }
    else if s.mode = 0 then
      let t := s.now
      (s.setBit Reg.PWR_STATUS 2 true).onPwr (fun p => { p with waking := some (p.waking.getD t) })
    else s.modeDone m

/-- PWR_CTRL written: LIMIT_EN is taken, and MODE is a request unless it is 3. Before READY the write is ignored and the request refused with
NOT_READY. -/
def State.pwrCtrlWrite (s : State) (m : Nat) (limit : Bool) : State :=
  if s.boot.low || s.boot.safe then s
  else if !s.ready then (s.raiseInt 5).modeRefuse 4
  else
    let s := s.setBit Reg.PWR_CTRL 4 limit
    if 3 ≤ m then s else (s.setFld Reg.PWR_CTRL 1 0 m).modeRequest m

/-! ### Voltage levels (R629, R630, R636) -/

/-- TILE_F[t] as it reads: RUN_MHZ is F_run of a tile that has power. -/
def State.tileF (s : State) (t : Nat) : Word :=
  wSetFld (s.rd (Reg.TILE_F t)) 29 20 (if s.ready && !s.tileDark t then s.runMhz t else 0)

/-- The tiles of rows 0 to 14 whose clocks run. -/
def State.clocked (s : State) : List Nat := (List.range 240).filter (fun l => (s.ltile l).bit Reg.CLK_STATUS 10)

/-- The level the device wants: 0 in LISTEN and from the opening of the power gates on, 3 once a wake has started. -/
def State.levelWanted (s : State) : Nat :=
  if !s.bit Reg.PWR_CFG 0 then 3
  else if s.pwr.waking.isSome then 3
  else if s.mode = 0 ∨ s.pwr.gated then 0
  else if s.bit Reg.PWR_ACT 14 then 3
  else (lowestBelow 4 (fun v => s.clocked.all (fun l => decide (s.guarded (s.physOf l) 3 ≤ s.guarded (s.physOf l) v)))).getD 3

/-- VLEVEL_STEP: one level towards the wanted one, 50 µs after the step before. -/
def State.vlevelStep (s : State) : State :=
  let v := s.fld Reg.PWR_ACT 13 12
  let wait := match s.pwr.stepAt with | some t => decide (s.now < t + 50) | none => false
  let w := s.levelWanted
  if wait || v == w then s
  else
    let t := s.now
    (s.setFld Reg.PWR_ACT 13 12 (if v < w then v + 1 else v - 1)).onPwr (fun p => { p with stepAt := some t })

/-- The VID code on GPIO[1:0] while VID_EN = 1. -/
def State.vidPins (s : State) : Option Nat := if s.bit Reg.PWR_CFG 0 then some (s.fld Reg.PWR_ACT 13 12) else none

/-- PWR_CFG written: without VID_EN the device takes VDD_CORE to be at level 3. -/
def State.pwrCfgWrite (s : State) (v : Word) : State :=
  let s := s.wr Reg.PWR_CFG (v &&& 0x1F#32)
  if wbit v 0 then s else s.setFld Reg.PWR_ACT 13 12 3

/-- SHADOW written: an area outside the table pool leaves EN at 0 (R645). -/
def State.shadowWrite (s : State) (v : Word) : State :=
  let b := wfld v 5 0
  let ok := decide (b ≤ 54) && decide (s.poolRecords 0 * 0x20000 ≤ b * 0x8000)
  s.wr Reg.SHADOW (wd (b + 64 * (wbit v 6 && ok).toNat))

/-! ### Activity and droop (R633, R637) -/

/-- The percentage of the 256 logical tiles whose clocks ran, averaged over the ticks since the last update; where it is no whole number, which of the
two next to it is taken is open (DESIGN CHOICE, log entry 82). -/
def State.activity (s : State) (up : Bool) : Nat :=
  let n := 256 * s.pwr.ranFor
  min 100 (100 * s.pwr.ran / n + (up && 100 * s.pwr.ran % n != 0).toNat)

/-- ACTIVITY_UPDATE, 10 µs after the one before: ACTIVITY, and GUARD as the highest guard computed in the last 100 µs. -/
def State.activityUpdate (s : State) (up : Bool) : State :=
  if s.pwr.ranFor < 10 then s
  else
    let a := s.activity up
    let g := 3 * ((a + 24) / 25)
    let t := s.now
    let gs := (s.pwr.guards.filter (fun e => decide (t < e.1 + 100))) ++ [(t, g)]
    let s := s.onPwr (fun p => { p with guards := gs, ran := 0, ranFor := 0 })
    (s.setFld Reg.PWR_ACT 6 0 a).setFld Reg.PWR_ACT 11 8 (gs.foldl (fun m e => max m e.2) 0)

/-- DROOP_EVENT of a physical tile: its tile counts it, and more than LIMIT of them within 1 s lower CAL and the cap at the level in use. -/
def State.droopEvent (s : State) (p : Nat) : State :=
  let s := s.onTile p (·.countBy Reg.DROOP_STRETCH 1)
  let t := s.now
  let ev := (spGet (fun _ => []) s.pwr.droops p).filter (fun e => decide (t < e + 1000000)) ++ [t]
  let limit := max 1 (s.fld Reg.DROOP_CFG 7 0)
  let again := match spGet (fun _ => none) s.pwr.droopAt p with | some e => decide (t < e + 1000000) | none => false
  if (if again then limit else limit + 1) ≤ ev.length then
    let v := s.vlevelOf p
    let m := s.cal p v - 25
    let s := s.onPwr (fun w => { w with droops := spSet (fun _ => []) w.droops p [], droopAt := spSet (fun _ => none) w.droopAt p (some t),
                                        droopCap := spSet (fun _ => 0) w.droopCap (4 * p + v) m })
    ((((s.setCal p v m).journalVf p).count Reg.DROOP_LOWERS)).logEvent 7 1 (wd p)
  else s.onPwr (fun w => { w with droops := spSet (fun _ => []) w.droops p ev })

/-! ### Entering LISTEN (R335, R643 to R645) -/

/-- Entries of one sparse map put into another at a new place, whose old entries go, over 0x1000 lines of k entries each: those of a line that is not
ok stay as they are. -/
def spCopy {α : Type} [DecidableEq α] (d : Nat → α) (src dst : Sparse α) (lo new k : Nat) (ok : Nat → Bool) : Sparse α :=
  let kept := dst.filter (fun e => decide (e.1 < new) || decide (new + 0x1000 * k ≤ e.1) || !ok ((e.1 - new) / k))
  spSetAll d kept ((src.filter (fun e => decide (lo ≤ e.1) && decide (e.1 < lo + 0x1000 * k) && ok ((e.1 - lo) / k))).map (fun e => (e.1 - lo + new, e.2)))

/-- The SRAM of a tile copied into its shadow area at a clay offset, with written bits, poison bits and errors, but for lines that are not ok. -/
def Memory.toShadow (m : Memory) (p o : Nat) (ok : Nat → Bool) : Memory :=
  { m with
    clay := spCopy (fun _ => 0) m.sram m.clay (p * 0x40000) (p * 0x200000 + o) 64 ok
    clayWr := spCopy (fun _ => false) m.sramWr m.clayWr (p * 0x1000) ((p * 0x200000 + o) / 64) 1 ok
    clayPo := spCopy (fun _ => false) m.sramPo m.clayPo (p * 0x1000) ((p * 0x200000 + o) / 64) 1 ok
    clayErr := spCopy (fun _ => 0) m.sramErr m.clayErr (p * 0x8000) ((p * 0x200000 + o) / 8) 8 ok }

/-- The SRAM of a tile brought back from its shadow area, but for lines that are not ok. -/
def Memory.fromShadow (m : Memory) (p o : Nat) (ok : Nat → Bool) : Memory :=
  { m with
    sram := spCopy (fun _ => 0) m.clay m.sram (p * 0x200000 + o) (p * 0x40000) 64 ok
    sramWr := spCopy (fun _ => false) m.clayWr m.sramWr ((p * 0x200000 + o) / 64) (p * 0x1000) 1 ok
    sramPo := spCopy (fun _ => false) m.clayPo m.sramPo ((p * 0x200000 + o) / 64) (p * 0x1000) 1 ok
    sramErr := spCopy (fun _ => 0) m.clayErr m.sramErr ((p * 0x200000 + o) / 8) (p * 0x8000) 8 ok }

/-- Whether line i of a shadow area at column offset o can be accessed (R452). -/
def State.shadowOk (s : State) (p o i : Nat) : Bool := !s.colRefuses p (o / 64 + i)

/-- Words of tile control space from an offset, as bytes. -/
def Tile.ctlBytes (t : Tile) (o n : Nat) : List Byte := (List.range n).flatMap (fun i => toBytes 4 (t.rd (o + 4 * i)).toNat)

/-- What a shadow area keeps of a tile: no job, no operation under way, nothing queued. -/
def Tile.rested (t : Tile) : Tile :=
  { t with jobs := [], out := [], late := [], router := [], moved := [], chainWait := [], held := [], fwdHeld := [], posts := [], spikes := [],
           cursors := [], ready := [], evClear := false }

/-- The offset of the shadow area in each column. -/
def State.shadowOff (s : State) : Nat := 0x8000 * s.fld Reg.SHADOW 5 0

/-- Copy logical tile l into its shadow area (Table 19.5): SRAM, microcode, accumulators and gate programs stand in the column; where the
words of the last part stand there is not given, and they are free bytes beside the tile's state. The SRAM is read as any copy reads it (R430, R433), and
no line of a faulted column is written (R452). -/
def State.shadowSave (s : State) (l : Nat) : State :=
  let p := s.physOf l
  let t := s.tile p
  let o := s.shadowOff
  let d := s.drawBytes 0x7C00
  let bs := t.ctlBytes 0x4000 4096 ++ t.ctlBytes 0x8000 4096 ++ t.ctlBytes 0xC000 256 ++ d.2
  let s := d.1.wakeBanks p true o 0x50000
  let s := (s.mem.badLines false p).foldl (fun s ln => (s.checkLine l p false ln 2).1) (s.metaReads false (p * 0x1000) 0x1000)
  let ok := s.shadowOk p o
  let s := (s.onMem (fun m => m.toShadow p o ok)).metaAnew true (p * 0x8000 + o / 64) 0x1400
  let s := (List.range 0x400).foldl (fun s i =>
    if ok (0x1000 + i) then s.onMem (fun m => m.store true (clayKey p (o + 0x40000 + 64 * i)) ((bs.drop (64 * i)).take 64)) else s) s
  { s with shadow := spSet (fun _ => Tile.reset) s.shadow l t.rested }

/-- Close the ingress of logical tile l: what it holds fails. -/
def State.tileClose (s : State) (l : Nat) : State :=
  let t := s.ltile l
  let s := (t.held ++ t.posts).foldl (fun s r => s.gatedAnswer r) s
  s.onL l (fun t => { t with held := [], fwdHeld := [], posts := [] })

/-- Whether thread i of logical tile l has come to rest. -/
def State.atRest (s : State) (l i : Nat) : Bool := (s.ltile l).tstate i == tIdle || (s.ltile l).tstate i == tHalted

/-- Stop logical tile l: a thread that is not IDLE or HALTED is halted as by T_CMD HALT and counted, and what waits in its router goes on. -/
def State.tileHalt (s : State) (l : Nat) : State :=
  let s := (List.range 4).foldl (fun s i => if s.atRest l i then s else (s.threadHalt l i).count Reg.LISTEN_HALTS) s
  let t := s.ltile l
  let s := s.onL l (fun t => { t with router := [], moved := [], chainWait := [] })
  { s with fab := { s.fab with inflight := s.fab.inflight ++ t.router ++ t.chainWait } }

/-- Whether entry can be completed: no record due, no peal copy. -/
def State.entryReady (s : State) : Bool :=
  s.fab.relocs == [] && s.liveStreams.all (fun e => !s.strServed e || s.strClass e == 3 || (s.run e).frames == [])

/-- A stream is swapped out and suspended; one that drains returns to REGISTERED. -/
def State.suspend (s : State) (e : Nat) : State :=
  let sw := (s.run e).swap
  let s := s.onRun e (fun r => { r with frames := [], expect := none })
  let s := if sw = .inWaiting then s.coreOut e else if sw = .outDone then s else s.swapOutNow e true
  if s.strState e = stDraining then s.toRegistered e
  else (s.setStr e stSuspended).onRun e (fun r => { r with swap := .none })

/-- The logical tiles of rows 0 to 14 that have a tile. -/
def State.lowTiles (s : State) : List Nat := (List.range 240).filter (fun l => s.mapState l != 3)

/-- The tiles on the way into LISTEN: stopped, copied into their shadow areas when SHADOW.EN is set, and without power. -/
def State.listenTiles (s : State) : State :=
  let s := s.lowTiles.foldl (fun s l => s.tileHalt l) s
  let o := s.shadowOff
  let s := if s.bit Reg.SHADOW 6 then (s.lowTiles.foldl (fun s l => s.shadowSave l) s).onPwr (fun p => { p with saved := some o })
    else { s with shadow := [] }
  (List.range 255).foldl (fun s p => s.onTile p Tile.gatedOff) s

/-- The links on the way into LISTEN: those that are up are parked. -/
def State.parkLinks (s : State) : State :=
  (List.range 8).foldl (fun s p => if s.linkState p = lnUp then s.onPort p (fun x => { x with parked := true }) else s) s

/-- Steps 2 to 4 of R643: the streams are swapped out, idle cores are written, tests stop, and the tiles of rows 0 to 14 close their ingress. -/
def State.listenClose (s : State) : State :=
  let s := ((s.liveStreams.filter s.strServed).foldl (fun s e => s.suspend e) s).refresh
  let s := (s.liveStreams.filter (fun e => s.strState e == stRegistered)).foldl (fun s e => s.coreOut e) s
  let t := s.now
  let s := s.stopTests.onPwr (fun p => { p with closed := true, closedAt := t })
  s.lowTiles.foldl (fun s l => s.tileClose l) s

/-- Whether the closed tiles can be stopped: no copy runs, and their threads have come to rest or had 10 ms to do so. -/
def State.entryQuiet (s : State) : Bool :=
  s.fab.relocs == [] && (decide (s.pwr.closedAt + 10000 ≤ s.now) || s.lowTiles.all (fun l => (List.range 4).all (fun i => s.atRest l i)))

/-- Steps 4 to 6 of R643: the tiles are stopped, saved and gated, the array clocks stop, the ports park, and the clay banks are retained. -/
def State.listenGate (s : State) : State := (s.listenTiles.feSleep.parkLinks.retainAll).onPwr (fun p => { p with gated := true })

/-- Step 7 of R643: the device is in LISTEN, and a wake held meanwhile starts. -/
def State.listenEnd (s : State) : State :=
  let s := (s.modeDone 0).count Reg.LISTEN_ENTRIES
  let gs := s.pwr.heldWake
  let s := s.onPwr (fun p => { p with target := none, heldWake := none })
  match gs with
  | some m => s.wakeNow ((List.range 4).filter (fun g => m.testBit g))
  | none => s

/-- LISTEN_ENTRY_DONE: the part of the entry that is due is done (R643): the tiles are closed once no record is due and no copy runs, they are
gated once they are at rest, and the device is in LISTEN once VDD_CORE is at level 0, to which VLEVEL_STEP takes it. -/
def State.listenEntryDone (s : State) : State :=
  if !s.enteringListen then s
  else if !s.pwr.closed then (if s.entryReady then s.listenClose else s)
  else if !s.pwr.gated then (if s.entryQuiet then s.listenGate else s)
  else if s.fld Reg.PWR_ACT 13 12 = 0 ∨ !s.bit Reg.PWR_CFG 0 then s.listenEnd
  else s

/-! ### Waking (R362, R363, R647) -/

/-- The SRAM of logical tile l comes back from its shadow area: lines are read as any copy reads them, and a written line that cannot be read arrives
poisoned (R430, R431, R433, R452). -/
def State.shadowLines (s : State) (l o : Nat) : State :=
  let p := s.physOf l
  let first := o / 64
  let s := (s.mem.badLines true p).foldl (fun s ln => if first ≤ ln ∧ ln < first + 0x1400 then (s.checkLine l p true ln 2).1 else s)
    (s.metaReads true (p * 0x8000 + first) 0x1400)
  let ok := s.shadowOk p o
  let s := s.onMem (fun m => m.fromShadow p o ok)
  let lost := (s.mem.writtenLines p).filter (fun ln => decide (first ≤ ln) && decide (ln < first + 0x1000) && !ok (ln - first))
  lost.foldl (fun s ln => (s.onMem (fun m => m.setWritten false (p * 0x1000 + (ln - first)) true)).newPoisonFrom p l p false (ln - first) 2) s

/-- Word i of the part of a shadow area behind the SRAM as it comes back into a tile, whose unreadable lines give words in error to the microcode store
and the accumulators, and free words to the gate programs (R104, R125, log entry 53). -/
def Tile.shadowWord (t : Tile) (bs : List Byte) (bad : Nat → Bool) (i : Nat) : Tile :=
  let t := t.wr (0x4000 + 4 * i) (wordAt bs (4 * i))
  if !bad (i / 16) then t
  else if i < 4096 then { t with ucodeErr := spSet (fun _ => 0) t.ucodeErr (i / 2) 2 }
  else if i < 8192 then { t with accErr := spSet (fun _ => 0) t.accErr (i - 4096) 2 }
  else t

/-- Bring logical tile l back from its shadow area at column offset o: its threads, settings, microcode and memory. -/
def State.shadowRestore (s : State) (l o : Nat) : State :=
  let p := s.physOf l
  let s := s.shadowLines l o
  let ok := s.shadowOk p o
  let bad (i : Nat) : Bool := !ok (0x1000 + i) || s.mem.poison true (p * 0x8000 + o / 64 + 0x1000 + i)
  let d := if (List.range 0x210).any bad then s.drawBytes 0x8400 else (s, [])
  let bs := (List.range 0x210).flatMap (fun i => if bad i then (d.2.drop (64 * i)).take 64 else s.mem.bytes true (clayKey p (o + 0x40000 + 64 * i)) 64)
  let s := d.1.onTile p (fun t => overBelow 0x2100 (fun i t => t.shadowWord bs bad i) ((spGet (fun _ => Tile.reset) s.shadow l).movedTo t))
  let s := s.onL l (fun t => overBelow 32 (fun n t => t.setBit (Reg.SYNC_CFG n) 7 false) t)
  s.takeoverStart l

/-- Phase 1 of a wake (Table 19.6), with what R363 gives its first 10 µs: the array clocks start, the pin of LISTEN_PIN is asserted, and the parked
ports resume. -/
def State.wakeBegin (s : State) : State :=
  let s := ((s.setBit Reg.PWR_STATUS 2 true).onPwr (fun p => { p with begun := true })).feWake
  let s := if s.bit Reg.WAKE_CTRL 24 then s.assertWake (s.fld Reg.WAKE_CTRL 23 21) else s
  (List.range 8).foldl (fun s p => s.portResume p false) s

/-- Phases 2 to 5 of a wake: the power gates close, the bits of the SRAM lines are cleared, the clay banks leave retention, the oscillators start, and
the tiles come back from their shadow areas. -/
def State.wakeRestore (s : State) : State :=
  let s := overBelow 255 (fun p s => s.clearLines false p) s
  let s : State := { s with integ := { s.integ with retained := [] } }
  let s := s.onPwr (fun p => { p with gated := false, closed := false, restored := true })
  let s := s.lowTiles.foldl (fun s l => s.onL l Tile.wake) s
  match s.pwr.saved with
  | some o => s.lowTiles.foldl (fun s l => s.shadowRestore l o) s
  | none => s

/-- WAKE_START: the first phase of a wake, and, once VDD_CORE is at level 3, to which VLEVEL_STEP takes it, the phases up to the restore. -/
def State.wakeStart (s : State) : State :=
  if s.pwr.waking.isNone || s.pwr.restored || s.mode != 0 then s
  else
    let s := if s.pwr.begun then s else s.wakeBegin
    if s.bit Reg.PWR_CFG 0 ∧ s.fld Reg.PWR_ACT 13 12 ≠ 3 then s else s.wakeRestore

/-- WAKE_DONE: every port is resumed, the mode of WAKE_MODE is reached, and suspended streams swap in. -/
def State.wakeDone (s : State) : State :=
  if s.pwr.waking.isNone || !s.pwr.restored || (List.range 8).any (fun p => (s.port p).parked) then s
  else
    let m := if s.fld Reg.PWR_CFG 2 1 = 1 then 1 else 2
    let s := (((s.setFld Reg.PWR_CTRL 1 0 m).modeDone m).count Reg.WAKES_DONE).raiseInt 15
    let s := s.onPwr (fun p => { p with waking := none, begun := false, restored := false, saved := none })
    let s : State := { s with cu := { s.cu with asleep := false }, shadow := [] }
    let t := s.now32
    let es := s.liveStreams.filter (fun e => s.strState e == stSuspended)
    let s := es.foldl (fun (s : State) e =>
      let s := (s.homeTiles e).foldl (fun s l => s.onL l (fun x => x.setFld (Reg.T_CONFIG (s.desc e 0x20 12 2)) 13 12 (s.strClass e))) s
      (s.setStr e stActivating).onRun e (fun r =>
        { r with fromT := if r.waits && !reached t r.fromT then r.fromT else t + 1, waits := true, swap := .inWaiting, expect := none })) s
    s.refresh

/-! ### The power limiter (R333, R649, R650, R689) -/

/-- The tier of a tile (Table 19.7). -/
def State.tierOf (s : State) (t : Nat) : Nat :=
  if s.rd (Reg.LOAD0 t) = 0 ∧ s.rd (Reg.LOAD12 t) = 0 then 1
  else if s.rd (Reg.LOAD0 t) = 0 ∧ (s.liveStreams.filter (fun e => (s.chargedTiles (s.run e).charges).contains t)).all (fun e => 2 ≤ s.strClass e) ∧
    (s.cu.held.filter (fun h => decide (h.kind ≤ 1) && h.idx == t)).all (fun h => decide (2 ≤ h.cls)) then 2
  else 3

/-- The lowest CAP_MHZ of a tile: its floor rounded up to 25 MHz, and for the first tier at least 100 (R333, Table 19.7). -/
def State.capFloor (s : State) (cs : List Charge) (t : Nat) : Nat :=
  let f := min 1000 ((s.tileFloor cs t + 24) / 25 * 25)
  if s.tierOf t = 1 then max 100 f else f

/-- CAP_MHZ. -/
def State.capMhz (s : State) (t : Nat) : Nat := s.fld (Reg.TILE_F t) 19 10

/-- Set CAP_MHZ of tiles. -/
def State.setCaps (s : State) (ts : List Nat) (f : Nat → Nat → Nat) : State :=
  ts.foldl (fun s t => s.setFld (Reg.TILE_F t) 19 10 (f t (s.capMhz t))) s

/-- Lower the first tier that has a tile above its lowest value, by 25 MHz. -/
def State.limitLower (s : State) (cs : List Charge) : State :=
  match [1, 2, 3].find? (fun k => (List.range 240).any (fun t => s.tierOf t == k && decide (s.capFloor cs t < s.capMhz t))) with
  | none => s
  | some k =>
    let ts := (List.range 240).filter (fun t => s.tierOf t == k)
    let lows := ts.map (fun t => (t, s.capFloor cs t))
    let s := s.setCaps ts (fun t c => max (min c (((lows.find? (fun x => x.1 == t)).map (·.2)).getD 100)) (c - 25))
    (s.onPwr (fun p => { p with lowered := k :: p.lowered.filter (· != k) })).count Reg.LIMIT_STEPS

/-- Raise the tier lowered last among those with a tile below 1,000, by 25 MHz. -/
def State.limitRaise (s : State) : State :=
  match (s.pwr.lowered ++ [3, 2, 1]).find? (fun k => (List.range 240).any (fun t => s.tierOf t == k && decide (s.capMhz t < 1000))) with
  | none => s
  | some k => s.setCaps ((List.range 240).filter (fun t => s.tierOf t == k)) (fun _ c => min 1000 (c + 25))

/-- The stream that POWER_CAP breaks next (R333): class 2, then class 1, the latest activation first; class 0 when CAP is below its floor. -/
def State.capBreaks (s : State) : Option Nat :=
  let live := s.liveStreams.filter (fun e => !s.broken e && (s.strServed e || s.strState e == stSuspended))
  let latest (k : Nat) : Option Nat := (live.filter (fun e => s.strClass e == k)).foldl (fun a e =>
    match a with
    | none => some e
    | some b => if (s.run b).order < (s.run e).order then some e else some b) none
  match latest 2 with
  | some e => some e
  | none =>
    match latest 1 with
    | some e => some e
    | none =>
      let zero := (live.filter (fun e => s.strClass e == 0)).flatMap (fun e => (s.run e).charges) ++
        (s.cu.held.filter (fun h => h.cls == 0)).filterMap (·.charge s.chipId.toNat)
      if s.fld Reg.POWER_CAP 11 0 < s.floorEst zero then latest 0 else none

/-- LIMITER_UPDATE: a new POWER estimate and the hottest sensor. -/
def State.limiterUpdate (s : State) (power : Nat) (temp : BitVec 16) : State :=
  let s := (s.setFld Reg.PWR_STATUS 31 16 (min 0xFFFF power)).setFld Reg.MON_STATUS 31 16 temp.toNat
  let t := s.now
  let hot : Option Nat :=
    if 105 ≤ temp.toInt then some t
    else match s.pwr.hotAt with
      | some h => if 100 ≤ temp.toInt then some t else if t < h + 1000000 then some h else none
      | none => none
  let cap := if s.bit Reg.PWR_CTRL 4 then s.fld Reg.POWER_CAP 11 0 else 2500
  let exceeds := decide (cap < power) || hot.isSome
  let cs := s.liveCharges
  let s := s.onPwr (fun p => { p with hotAt := hot, above := if exceeds then p.above + 1 else 0 })
  let s := s.setCaps (List.range 240) (fun x c => max c (s.capFloor cs x))
  let lowest := (List.range 240).all (fun x => decide (s.capMhz x ≤ s.capFloor cs x))
  let since : Option Nat := if exceeds && lowest then some (s.pwr.floorAt.getD t) else none
  let s := s.onPwr (fun p => { p with floorAt := since })
  let s := if exceeds && decide (2 ≤ s.pwr.above) then s.limitLower cs
           else if !exceeds && decide (100 * power < 95 * cap) then s.limitRaise else s
  let due := match since with | some a => decide (a + 1000 ≤ t) | none => false
  let s := if due then
      match s.capBreaks with
      | some e =>
        let b := (s.breakStream e brPowerCap).setBit Reg.PWR_STATUS 7 true
        if s.bit Reg.PWR_STATUS 7 then b else b.raiseInt 14
      | none => s
    else s
  s.setBit Reg.PWR_STATUS 6 ((List.range 240).any (fun x => decide (s.capMhz x < 1000)))

/-! ### Device time (R652 to R654) -/

/-- d in ns: device time less the nearest multiple of 1,000,000 µs, and a fraction of a tick. -/
def State.syncD (s : State) (frac : Nat) : Int :=
  let r := s.now % 1000000
  (if r < 500000 then (r : Int) else (r : Int) - 1000000) * 1000 + (frac % 1000 : Nat)

/-- An edge is taken while TIME_SET is armed: it is loaded, and SYNC_ERR clears. -/
def State.timeLoad (s : State) : State :=
  let s : State := { s with time := (s.rd Reg.TIME_SET_HI ++ s.rd Reg.TIME_SET_LO) }
  let t := s.now
  let s := ((((s.setBit Reg.TIME_STATUS 3 false).setBit Reg.TIME_STATUS 4 false).setBit Reg.TIME_STATUS 2 true).setFld Reg.TIME_STATUS 31 16 0)
  { s with sync := { s.sync with edgeAt := some t, edgeD := 0, streak := 0, slew := 0 } }

/-- The part of d, in ns, that the previous edge left, or that the slew has not taken off yet. -/
def Sync.leftOver (y : Sync) : Int := y.edgeD + Int.tdiv y.slew 100000

/-- An edge with d ns, sent or received: a near one trims the rate by what d has grown since the previous edge, and d is taken off from then on; a far
one leaves time unchanged. A rate that is no whole number of 0.01 ppm is cut off towards 0 (DESIGN CHOICE, log entry 82). -/
def State.syncTake (s : State) (d : Int) : State :=
  if s.bit Reg.TIME_STATUS 3 then s.timeLoad
  else
    let t := s.now
    let near := decide (d.natAbs ≤ 50000)
    let tight := decide (d.natAbs ≤ 100)
    let s := (s.setBit Reg.TIME_STATUS 2 true).setFld Reg.TIME_STATUS 31 16 (wi (clampI (-32768) 32767 d)).toNat
    let s := if near then
        match s.sync.edgeAt with
        | some e => let secs : Int := max 1 ((t - e + 500000) / 1000000 : Nat); s.wr Reg.TIME_TRIM (s.rd Reg.TIME_TRIM - wi (Int.tdiv (d - s.sync.leftOver) (10 * secs)))
        | none => s
      else ((s.setBit Reg.TIME_STATUS 4 true).count Reg.SYNC_ERRS).raiseInt 18
    let n := if tight then s.sync.streak + 1 else 0
    let s : State := { s with sync := { s.sync with edgeAt := some t, streak := n,
                                                     edgeD := if near then 0 else d, slew := if near then d * 100000 else 0 } }
    s.setBit Reg.TIME_STATUS 1 (decide (2 ≤ n))

/-- The level this device drives on SYNC. -/
def State.syncPin (s : State) : Bool := match s.sync.pulse with | some t => decide (s.now < t) | none => false

/-- SYNC_DRIVE: the timing master drives SYNC high for 10 µs at a whole second after self-test phase 1, once. -/
def State.syncDrive (s : State) : State :=
  if s.chipId ≠ 0 ∨ s.boot.low ∨ s.boot.safe ∨ s.now % 1000000 ≠ 0 ∨ s.now = 0 ∨ s.syncPin then s
  else
    let s := s.syncTake 0
    let t := s.now
    { s with sync := { s.sync with pulse := some (t + 10) } }

/-- SYNC_EDGE: another device samples a rising edge. -/
def State.syncEdge (s : State) (frac : Nat) : State := if s.chipId = 0 ∨ s.boot.low ∨ s.boot.safe then s else s.syncTake (s.syncD frac)

/-- SYNC_MISSED: no edge within 1,000,050 µs of the one before. -/
def State.syncMissed (s : State) : State :=
  match s.sync.edgeAt with
  | some e =>
    if e + 1000050 < s.now then
      let s := ((s.count Reg.SYNC_MISSED).setBit Reg.TIME_STATUS 2 false).setBit Reg.TIME_STATUS 1 false
      State.raiseInt { s with sync := { s.sync with edgeAt := some (e + 1000000), streak := 0 } } 18
    else s
  | none => s

/-- TIME_CMD written with ARM. -/
def State.timeArm (s : State) : State := s.setBit Reg.TIME_STATUS 3 true

/-- TIME_STATUS as it reads: MASTER is the strap CHIP_ID 0. -/
def State.timeStatus (s : State) : Word := wSetBit (s.rd Reg.TIME_STATUS) 0 (s.chipId == 0)

/-! ### Commands -/

/-- PWR_MODE_LISTEN: PWR_CTRL written with MODE 0, and LIMIT_EN. -/
def execPwrModeListen (limit : Bool) (s : State) : Host.Outcome State Fault Refusal := .next (s.pwrCtrlWrite 0 limit)
/-- PWR_MODE_ARMED. -/
def execPwrModeArmed (limit : Bool) (s : State) : Host.Outcome State Fault Refusal := .next (s.pwrCtrlWrite 1 limit)
/-- PWR_MODE_FULL. -/
def execPwrModeFull (limit : Bool) (s : State) : Host.Outcome State Fault Refusal := .next (s.pwrCtrlWrite 2 limit)
/-- LISTEN_ENTRY_DONE. -/
def execListenEntryDone (s : State) : Host.Outcome State Fault Refusal := .next s.listenEntryDone
/-- WAKE_START. -/
def execWakeStart (s : State) : Host.Outcome State Fault Refusal := .next s.wakeStart
/-- WAKE_DONE. -/
def execWakeDone (s : State) : Host.Outcome State Fault Refusal := .next s.wakeDone
/-- ACTIVITY_UPDATE, with the way that an average which is no whole percentage is taken. -/
def execActivityUpdate (up : Bool) (s : State) : Host.Outcome State Fault Refusal := .next (s.activityUpdate up)
/-- LIMITER_UPDATE, with the power in units of 10 mW and the hottest sensor in °C. -/
def execLimiterUpdate (power : Nat) (temp : BitVec 16) (s : State) : Host.Outcome State Fault Refusal := .next (s.limiterUpdate power temp)
/-- DROOP_EVENT. -/
def execDroopEvent (p : Fin 272) (s : State) : Host.Outcome State Fault Refusal := .next (s.droopEvent p)
/-- VLEVEL_STEP. -/
def execVlevelStep (s : State) : Host.Outcome State Fault Refusal := .next s.vlevelStep
/-- SYNC_DRIVE. -/
def execSyncDrive (s : State) : Host.Outcome State Fault Refusal := .next s.syncDrive
/-- SYNC_EDGE, with the fraction of a µs in ns. -/
def execSyncEdge (frac : Nat) (s : State) : Host.Outcome State Fault Refusal := .next (s.syncEdge frac)
/-- SYNC_MISSED. -/
def execSyncMissed (s : State) : Host.Outcome State Fault Refusal := .next s.syncMissed
/-- TIME_CMD_ARM. -/
def execTimeCmdArm (s : State) : Host.Outcome State Fault Refusal :=
  .next (s.atBlock 15 (fun s => s.timeArm))

end Sys2Proof.Machine
end

