-- ==== Sys2Proof/Machine/Repair.lean ====
section
/-! DEFINITION. Commands of memory integrity: the scrubber, retention, bank sparing, column faults, the pool split and the stale ring
(R425, R428, R444, R446 to R453). -/

namespace Sys2Proof.Machine

/-! ### Scrubber (R446 to R448) -/

/-- Whether the device is in LISTEN. -/
def State.listening (s : State) : Bool := s.fld Reg.PWR_STATUS 1 0 == 0

/-- Move the scrubber to a line. -/
def State.scrubTo (s : State) (l : Nat) (clay : Bool) (line : Nat) : State :=
  s.wr Reg.SCRUB_STATUS (wd (l + 2 ^ 8 * clay.toNat + 2 ^ 9 * line))

/-- The pass ends: it is counted, the banks' counts start anew, and the next pass begins. -/
def State.scrubPassEnd (s : State) : State :=
  let s := s.count Reg.SCRUB_PASSES
  State.scrubTo { s with integ := { s.integ with bankCorr := [], bankPois := [], skipped := [], revisit := false } } 0 false 0

/-- Go on to the next tile: the next one, then those skipped, then the end of the pass. -/
def State.scrubNextTile (s : State) (l : Nat) : State :=
  if s.integ.revisit then
    match s.integ.skipped with
    | _ :: m :: r => State.scrubTo { s with integ := { s.integ with skipped := m :: r } } m false 0
    | _ => s.scrubPassEnd
  else if l < 255 then s.scrubTo (l + 1) false 0
  else
    match s.integ.skipped with
    | m :: _ => State.scrubTo { s with integ := { s.integ with revisit := true } } m false 0
    | [] => s.scrubPassEnd

/-- Go on to the next line. -/
def State.scrubAdvance (s : State) (l : Nat) (clay : Bool) (line : Nat) : State :=
  if clay then (if line < 32767 then s.scrubTo l true (line + 1) else s.scrubNextTile l)
  else if line < 4095 then s.scrubTo l false (line + 1) else s.scrubTo l true 0

/-- Check the line and correct or poison it (R447); its bank is woken, and in LISTEN it is the one bank that the scrubber keeps awake (R448). -/
def State.scrubLine (s0 : State) (l : Nat) (clay : Bool) (line : Nat) : State :=
  let p := s0.physOf l
  let g := memKey clay p 0 / 64 + line
  let s := s0.metaFix clay g
  if (clay && s.colRefuses p line) || !s.mem.written clay g || s.mem.poison clay g then s
  else
    let s := (if clay && s.listening then s.retainAll else s).wakeBanks p clay (64 * line) 64
    let errs := (List.range 8).map (fun i => s.mem.err clay (8 * g + i))
    if errs.any (· == 2) then s.newPoison l p clay line 0
    else if errs.any (· == 1) then ((s.checkLine l p clay line 0).1).countBy Reg.SCRUB_CORRECTED (errs.count 1)
    else s

/-- SCRUB_VISIT: one line; a tile whose STATE is not ACTIVE is passed over and visited again at the end of the pass, and in LISTEN the
SRAM of unpowered tiles is passed over. -/
def State.scrubVisit (s : State) : State :=
  if !s.bit Reg.SCRUB_CFG 0 || !s.ready then s
  else
    let l := s.fld Reg.SCRUB_STATUS 7 0
    let clay := s.bit Reg.SCRUB_STATUS 8
    let line := s.fld Reg.SCRUB_STATUS 23 9
    if s.mapState l ≠ 0 then
      let s : State := if s.integ.revisit then s else { s with integ := { s.integ with skipped := s.integ.skipped ++ [l] } }
      s.scrubNextTile l
    else if s.listening && !clay && decide (l < 240) then s.scrubTo l true 0
    else (s.scrubLine l clay line).scrubAdvance l clay line

/-! ### Retention and sparing (R425, R450, R451) -/

/-- BANK_RETENTION: a bank of a physical tile's column without an access for so many µs. -/
def State.bankRetention (s : State) (p bank idle : Nat) : State :=
  let us := s.fld Reg.RET_CFG 15 0
  if s.listening || (decide (us ≠ 0) && decide (us ≤ idle) && !s.bit Reg.RET_CFG 16) then
    { s with integ := { s.integ with retained := spSet (fun _ => false) s.integ.retained (16 * p + bank) true } }
  else s

/-- BANK_SPARE: the copy of a failing bank begins, when the column has its spare left. -/
def State.bankSpare (s : State) (l bank : Nat) : State :=
  let p := s.physOf l
  if !wbit (s.col p).status 3 && !wbit (s.col p).status 0 && s.bankFailing (16 * p + bank) && !s.integ.sparing.any (fun e => e.1 == p) then
    { s with integ := { s.integ with sparing := s.integ.sparing ++ [(p, bank)] } }
  else s

/-- BANK_SPARE_DONE: every line has been copied, read as any read reads it; the bank is on the spare in one step (R451, R703). -/
def State.bankSpareDone (s : State) (l : Nat) : State :=
  let p := s.physOf l
  match s.integ.sparing.find? (fun e => e.1 == p) with
  | none => s
  | some e =>
    let s := (s.wakeBanks p true (0x20000 * e.2) 0x20000).metaReads true (p * 0x8000 + 2048 * e.2) 2048
    let s := ((s.mem.badLines true p).filter (fun ln => ln / 2048 == e.2)).foldl (fun s ln => (s.checkLine l p true ln 2).1) s
    let s : State := { s with integ := { s.integ with
      sparing := s.integ.sparing.filter (fun x => x.1 != p)
      bankCorr := spSet (fun _ => 0) s.integ.bankCorr (16 * p + e.2) 0
      bankPois := spSet (fun _ => 0) s.integ.bankPois (16 * p + e.2) 0 } }
    (s.spareBank p e.2).logEvent 8 1 (wd l)

/-! ### Column faults (R452, R453) -/

/-- COLUMN_FAULT: a bank fails while the spare is in use (cause 1), the bond interface (2) or the supply switch (3) fails. The streams whose
records lie in the column fall back to residency, and the peal is asked to move the role. -/
def State.columnFault (s : State) (l cause bank : Nat) : State :=
  let p := s.physOf l
  let c := (s.col p).status
  let holds := if cause = 1 then wbit c 3 && s.bankFailing (16 * p + bank) else cause == 2 || cause == 3
  if wbit c 0 || !holds || s.boot.low || s.boot.safe then s
  else
    let s := s.markColumn p cause (if cause = 1 then bank else 0)
    let s := (s.fallBackDue p).logEvent 8 2 (wd (l + 2 ^ 24 * cause))
    (s.onPeal (fun x => { x with cols := x.cols ++ [l] })).relocateFaulted

/-! ### Guarded registers (R428, R444) -/

/-- A write of POOL_CFG and its completion code: 0x0B while a stream table entry is in use and CTX_UNITS would change. -/
def State.poolCfgPut (s : State) (v : Word) : State × Nat :=
  let u := wfld v 5 0
  let old := s.fld Reg.POOL_CFG 5 0
  let new := if 32 < u then old else u
  if new ≠ old ∧ s.liveStreams ≠ [] then (s, 0x0B)
  else (s.wr Reg.POOL_CFG (wSetFld (v &&& 0x300#32) 5 0 new), 0)

/-- A write of a ring's tail: ignored when it would leave more than 64 entries unread. -/
def State.ringTailWrite (s : State) (head tail : Nat) (v : Word) : State := if 64 < (s.rd head - v).toNat then s else s.wr tail v

/-! ### Commands -/

/-- SCRUB_VISIT. -/
def execScrubVisit (s : State) : Host.Outcome State Fault Refusal := .next s.scrubVisit
/-- BANK_RETENTION, with the time the bank has been idle in µs. -/
def execBankRetention (p : Fin 272) (bank : Fin 16) (idle : Nat) (s : State) : Host.Outcome State Fault Refusal := .next (s.bankRetention p bank idle)
/-- BANK_SPARE. -/
def execBankSpare (l : Fin 256) (bank : Fin 16) (s : State) : Host.Outcome State Fault Refusal := .next (s.bankSpare l bank)
/-- BANK_SPARE_DONE. -/
def execBankSpareDone (l : Fin 256) (s : State) : Host.Outcome State Fault Refusal := .next (s.bankSpareDone l)
/-- COLUMN_FAULT, with its FAULT_CAUSE and bank. -/
def execColumnFault (l : Fin 256) (cause : Fin 4) (bank : Fin 16) (s : State) : Host.Outcome State Fault Refusal := .next (s.columnFault l cause bank)
/-- POOL_CFG_WRITE. -/
def execPoolCfgWrite (v : Word) (s : State) : Host.Outcome State Fault Refusal :=
  .next (s.atBlock 14 (fun s => (let x := s.poolCfgPut v; { x.1 with lastStatus := BitVec.ofNat 8 x.2 })))
/-- STALE_TAIL_WRITE. -/
def execStaleTailWrite (v : Word) (s : State) : Host.Outcome State Fault Refusal :=
  .next (s.atBlock 14 (fun s => { s.ringTailWrite Reg.STALE_HEAD Reg.STALE_TAIL v with lastStatus := 0 }))

end Sys2Proof.Machine
end

