-- ==== Sys2Proof/Machine/Blocks.lean ====
section
/-! DEFINITION. Chip block space: what a GET of each register returns and what a PUT to each register does (R8 to R11, R31, R32, R44, R51,
R55, R76, and the layout table of each block). -/

namespace Sys2Proof.Machine

/-! ### Who writes -/

/-- The originator of a request, for an audit record (R522). -/
def srcOf (q : ReqFlit) : AuditSrc := { chip := q.srcChip.toNat, unit := q.srcUnit.toNat, tile := q.srcTile.toNat }

/-- The originator as MAP_CMD tells it apart (R48). -/
def originOf (q : ReqFlit) : Origin := if q.srcUnit = 8 then .host else if q.srcUnit = 12 then .mgmt else .tile

/-- The index of a place in a two-dimensional register array. -/
def arrIdx2 (k base s1 n1 s2 n2 : Nat) : Option (Nat × Nat) :=
  if base ≤ k ∧ (k - base) / s1 < n1 ∧ (k - base) % s1 % s2 = 0 ∧ (k - base) % s1 / s2 < n2 then some ((k - base) / s1, (k - base) % s1 / s2) else none

/-! ### Writes with an effect of their own -/

/-- A write whose effect an array index selects. -/
def onIdx (o : Option Nat) (f : Nat → State × Nat) (other : Option (State × Nat)) : Option (State × Nat) :=
  match o with
  | some i => some (f i)
  | none => other

/-- A state as an accepted write. -/
def State.took (s : State) : State × Nat := (s, cOK)

/-- Block 0x00. -/
def State.putFrontEnd (s : State) (k : Nat) (v : Word) : Option (State × Nat) :=
  if k = Reg.FE_CTRL then some (s.feCtrlWrite v)
  else if k = Reg.FE_CMD then some (if wfld v 1 0 = 1 then s.loadCal else if wfld v 1 0 = 2 then s.wakeReq s.prerollGroups else s).took
  else if k = Reg.WAKE_REQ then some (s.wakeReq (wfld v 3 0)).took
  else
    onIdx (arrIdx k (Reg.FE_CLK 0) 4 4) (fun g => s.feClkWrite g v) (
    onIdx (arrIdx k (Reg.FE_DELIV_HI 0) 16 4) (fun g => (s.delivHiWrite g v).took) (
    onIdx (arrIdx k (Reg.ALIGN 0) 4 64) (fun c => (s.alignWrite c v).took) (
    onIdx (arrIdx k (Reg.PREROLL_CFG 0) 32 4) (fun g => (s.prerollCfgWrite g v).took) none)))

/-- Block 0x01. -/
def State.putChains (s : State) (k : Nat) (v : Word) : Option (State × Nat) :=
  let quiet (x : State × Nat) : State × Nat := (s.followChains x.1, x.2)
  onIdx (arrIdx k Reg.DC_START_LO 4 3) (fun r => quiet (s.dcStart (Fin.ofNat 3 r) v).took) (
  onIdx (arrIdx k Reg.DC_STOP_LO 4 3) (fun r => quiet (s.dcStop (Fin.ofNat 3 r) v).took) (
  onIdx (arrIdx k (Reg.CH_CFG0 0) 16 64) (fun c => quiet (s.chCfg0Write c v)) (
  onIdx (arrIdx k (Reg.CH_CFG1 0) 16 64) (fun c => quiet (s.shiftWrite c v).took) (
  onIdx (arrIdx k (Reg.FINE_CFG0 0) 16 8) (fun f => quiet (s.fineCfg0 f v)) (
  onIdx (arrIdx k (Reg.FINE_CFG1 0) 16 8) (fun f => quiet (s.shiftWrite (64 + f) v).took) (
  onIdx (arrIdx k (Reg.CH_STATUS 0) 16 64) (fun c => (if wbit v 6 then s.onPath (s.pairOf c) DcPath.clearStep else s).took) (
  onIdx (arrIdx k (Reg.FINE_STATUS 0) 16 8) (fun f => (if wbit v 6 then s.onPath (64 + f) DcPath.clearStep else s).took) (
  match arrIdx2 k (Reg.TH_CTRL 0 0) 64 64 32 2 with
  | some (c, u) => some (s.thCtrlWrite c u v).took
  | none => match arrIdx2 k (Reg.COMP_COEF 0 0) 128 4 4 32 with
  | some (b, _) => some (s.coefWrite 0 b k v)
  | none => match arrIdx2 k (Reg.HB_COEF 0 0) 32 4 4 8 with
  | some (b, _) => some (s.coefWrite 1 b k v)
  | none => match arrIdx2 k (Reg.FIR_COEF 0 0) 256 2 4 64 with
  | some (b, _) => some (s.coefWrite 2 b k v)
  | none => none))))))))

/-- Block 0x02. -/
def State.putTdm (s : State) (k : Nat) (v : Word) : Option (State × Nat) :=
  onIdx (arrIdx k (Reg.TDM_CFG 0) 0x100 2) (fun p => s.tdmCfgWrite p v) (
  onIdx (arrIdx k (Reg.TDM_DELIV_HI 0) 0x100 2) (fun p => (s.tdmDelivHiWrite p v).took) (
  onIdx (arrIdx k (Reg.HOST_FRAME 0) 4 16) (fun n => (s.hostFrame n).took) none))

/-- CU_CONFIG with LIMIT0 and LIMIT12 clamped (Table 8.9). -/
def cuConfig (v : Word) : Word := wSetFld (wSetFld (v &&& 0xFFFFFF#32) 7 0 (max 50 (min 95 (wfld v 7 0)))) 15 8 (max 50 (min 95 (wfld v 15 8)))

/-- Block 0x05: descriptors (R305). -/
def State.putDesc (s : State) (k : Nat) (v : Word) : Option (State × Nat) :=
  match arrIdx2 k (Reg.DESC 0 0) 64 2048 4 16 with
  | some (e, i) => some (if s.strState e ≤ stRegistered then (s.wr k (v &&& wd (descMask i))).took else (s, cBusy))
  | none => none

/-- MAP_CMD (Table 2.6). -/
def State.putMapCmd (s : State) (q : ReqFlit) (v : Word) : State :=
  if wfld v 3 0 = 1 then s.bumpEpoch else if wfld v 3 0 = 2 then s.relocate (originOf q) (srcOf q) else s

/-- Block 0x0A: every write is recorded (Table 14.23). -/
def State.putKeys (s : State) (q : ReqFlit) (o : Nat) (v : Word) : State × Nat :=
  let k := blockKey 0xA o
  match chipRow k with
  | none => (s.keyBlockWrite (srcOf q) o 0 0 id).took
  | some row =>
    if row.ro then (s.keyBlockWrite (srcOf q) o (s.rd k) (s.rd k) id, cProtect)
    else if k = Reg.KEY_CMD then (s.keyCmdWrite (srcOf q) (wfld v 2 0)).took
    else match arrIdx k (Reg.KEY_IN 0) 4 8 with
    | some i => (s.keyInWrite (srcOf q) i v).took
    | none => let w := plainWrite row (s.rd k) v; (s.keyBlockWrite (srcOf q) o (s.rd k) w (·.wr k w)).took

/-- Block 0x08: CLAP_CTRL stands here too (Table 16.3); a change of CAUSE_EN is recorded. -/
def State.putClap (s : State) (q : ReqFlit) (v : Word) : State :=
  let old := s.rd Reg.CLAP_CTRL
  if wfld v 30 24 = wfld old 30 24 then s.clapCtrlWrite v
  else if s.auditRefuses then s.auditRefused
  else
    let t := s.clapCtrlWrite v
    t.auditPut (s.auditPayload 2 (srcOf q) (blockTarget 8 0) old (t.rd Reg.CLAP_CTRL) 0) none

/-- Block 0x0C. -/
def State.putPower (s : State) (k : Nat) (v : Word) : Option (State × Nat) :=
  if k = Reg.PWR_CFG then some (s.pwrCfgWrite v).took else if k = Reg.SHADOW then some (s.shadowWrite v).took else none

/-- Block 0x0D. -/
def State.putLinks (s : State) (k : Nat) (v : Word) : Option (State × Nat) :=
  onIdx (arrIdx k (Reg.ROUTE 0) 4 16) (fun d => (s.routeWrite d v).took) (
  onIdx (arrIdx k (Reg.LINK_CFG 0) 0x100 8) (fun p => (s.linkCfgWrite p v).took) (
  onIdx (arrIdx k (Reg.LINK_CMD 0) 0x100 8) (fun p => (if wfld v 1 0 = 1 then s.linkTrain p else if wfld v 1 0 = 2 then s.linkDisable p else s).took) none))

/-- A field that keeps its value unless the new one lies in a range. -/
def keepUnless (lo hi f l : Nat) (old v : Word) : Word := if lo ≤ wfld v f l ∧ wfld v f l ≤ hi then v else wSetFld v f l (wfld old f l)

/-- Block 0x0E. -/
def State.putPeal (s : State) (k : Nat) (v : Word) : Option (State × Nat) :=
  let old := s.rd k
  if k = Reg.PEAL_CFG then some (s.wr k (keepUnless 500 1500 19 9 old (keepUnless 1 168 8 1 old (v &&& 0xFFFFF#32)))).took
  else if k = Reg.BIST_CMD then
    some (if wfld v 2 0 = 1 then s.bistTest else if wfld v 2 0 = 2 then s.bistRetire else if wfld v 2 0 = 3 then s.bistUnretire
      else if wfld v 2 0 = 4 then s.bistStep else s).took
  else if k = Reg.REPAIR_TAIL then some (s.ringTailWrite Reg.REPAIR_HEAD Reg.REPAIR_TAIL v).took
  else if k = Reg.POOL_CFG then some (s.poolCfgPut v)
  else if k = Reg.SCRUB_CFG then some (s.wr k (keepUnless 1 168 8 1 old (v &&& 0xFF01FF#32))).took
  else if k = Reg.STALE_TAIL then some (s.ringTailWrite Reg.STALE_HEAD Reg.STALE_TAIL v).took
  else none

/-- A write with an effect of its own, if the register of block b has one. -/
def State.putSpecial (s : State) (q : ReqFlit) (b k : Nat) (v : Word) : Option (State × Nat) :=
  match b with
  | 0x0 => s.putFrontEnd k v
  | 0x1 => s.putChains k v
  | 0x2 => s.putTdm k v
  | 0x4 => if k = Reg.CU_CONFIG then some (s.wr k (cuConfig v)).took else none
  | 0x5 => s.putDesc k v
  | 0x6 => onIdx (arrIdx k (Reg.GEN_SLOT 0) 4 2) (fun g => (s.genSlotWrite g v).took) none
  | 0x7 => if k = Reg.MAP_CMD then some (s.putMapCmd q v).took else none
  | 0xC => s.putPower k v
  | 0xD => s.putLinks k v
  | 0xE => s.putPeal k v
  | 0xF => if k = Reg.TIME_CMD then some (if wbit v 0 then s.timeArm else s).took else none
  | _ => none

/-- The record and hint windows of block 0x04: only a home tile of the stream may write there (R321, R324). -/
def State.putWindow (s : State) (q : ReqFlit) (o : Nat) (v : Word) : State × Nat :=
  let rec? := decide (o < 0x20000)
  let e := if rec? then (o - 0x10000) / 32 else (o - 0x20000) / 8
  if !s.fromHome e q || s.strState e == stFree then (s, cProtect)
  else if rec? then (s.recordWord e ((o - 0x10000) % 32 / 4) q v).took
  else (s.hintWord e (o % 8 == 4) q v).took

/-- What the contract unit of another chip writes here: WAKE pins (R332), reservations (R315), and whether that chip serves a class-0 stream (R426). -/
def State.peerPut (s : State) (q : ReqFlit) (b o : Nat) (v : Word) : Option (State × Nat) :=
  if q.srcUnit ≠ 9 ∨ q.srcChip = s.chipId then none
  else if b = 4 ∧ o = wakeOffset then some (s.assertWake (wfld v 2 0)).took
  else if b = 4 ∧ o = reserveOffset ∧ opBytes q = 8 then
    let x := s.peerReserve (peerCharge q.srcChip.toNat (operandOf q 8))
    some (x.1, if x.2 then cOK else cBusy)
  else if b = 4 ∧ o = reserveOffset + 4 then some s.took
  else if b = 14 ∧ o = holdOffset then
    let others := s.cu.peersUp.filter (· != q.srcChip.toNat)
    some (State.refresh { s with cu := { s.cu with peersUp := if wbit v 16 then others ++ [q.srcChip.toNat] else others } }).took
  else none

/-- A 4-byte PUT to offset o of block b. -/
def State.blockPut (s : State) (q : ReqFlit) (b o : Nat) (v : Word) : State × Nat :=
  let k := blockKey b o
  match s.peerPut q b o v with
  | some x => x
  | none =>
  if b = 0xA then s.putKeys q o v
  else if b = 4 ∧ 0x10000 ≤ o ∧ o < 0x24000 then s.putWindow q o v
  else if b = 8 ∧ o ≤ 0x10 then (if o = 0 then (s.putClap q v).took else (s, cProtect))
  else match chipRow k with
  | none => s.took
  | some row =>
    if row.ro then (s, cProtect)
    else match s.putSpecial q b k v with
    | some x => x
    | none => (s.wr k (plainWrite row (s.rd k) v)).took

/-! ### Reads -/

/-- A view that an array index selects. -/
def viewIdx (o : Option Nat) (f : Nat → Word) (other : Option Word) : Option Word :=
  match o with
  | some i => some (f i)
  | none => other

/-- A register whose value is a view of other state. -/
def State.blockView (s : State) (b o : Nat) : Option Word :=
  let k := blockKey b o
  match b with
  | 0x0 => if k = Reg.FE_STATUS then some s.feStatus else none
  | 0x1 =>
    viewIdx (arrIdx k (Reg.CH_STATUS 0) 16 64) s.chStatus (
    viewIdx (arrIdx k (Reg.FINE_STATUS 0) 16 8) (fun f => wd (s.path (64 + f)).status) (
    viewIdx (arrIdx k (Reg.CH_OUT_COUNT 0) 16 64) (fun c => (s.path (s.pairOf c)).count) (
    viewIdx (arrIdx k (Reg.FINE_OUT_COUNT 0) 16 8) (fun f => (s.path (64 + f)).count) (
    viewIdx (arrIdx k (Reg.CH_STEP_AT 0) 16 64) (fun c => (s.path (s.pairOf c)).stepAt) (
    viewIdx (arrIdx k (Reg.FINE_STEP_AT 0) 16 8) (fun f => (s.path (64 + f)).stepAt) none)))))
  | 0x3 => viewIdx (arrIdx k (Reg.AE_STATUS 0) 0x40 2) s.aeStatus none
  | 0x8 => if o ≤ 0x10 then some (s.rd (0x54 + o)) else none
  | 0xA => if k = Reg.SEC_STATUS then some s.secStatus else if k = Reg.SITE_GROUP then some (wd s.siteGroup)
      else if k = Reg.LC_FUSES then some s.keys.fuses else none
  | 0xB => if k = Reg.LOG_STATUS then some (wd s.nv.logq.length) else none
  | 0xC => viewIdx (arrIdx k (Reg.TILE_F 0) 4 256) s.tileF none
  | 0xD => if k = Reg.ROUTE_STATUS then some s.routeStatus else none
  | 0xE => if k = Reg.PEAL_STATUS then some s.pealStatus
      else viewIdx (arrIdx k (Reg.ROW_STATUS 0) 4 16) s.rowStatus (
      viewIdx (arrIdx k (Reg.COL_STATUS 0) 16 256) (fun l => (s.col (s.physOf l)).status) none)
  | 0xF => if k = Reg.TIME_STATUS then some s.timeStatus else none
  | _ => none

/-- A 4-byte GET of offset o of block b. -/
def State.blockGet (s : State) (b o : Nat) : State × Word :=
  let k := blockKey b o
  match s.blockView b o with
  | some w => (s, w)
  | none => match arrIdx k (Reg.CH_MAXABS 0) 16 64 with
  | some c => s.maxabsRead (s.pairOf c)
  | none => match arrIdx k (Reg.FINE_MAXABS 0) 16 8 with
  | some f => s.maxabsRead (64 + f)
  | none => match arrIdx k (Reg.COL_CORRECTED 0) 16 256 with
  | some l => (s.onCol (s.physOf l) (fun c => { c with corrected := 0 }), (s.col (s.physOf l)).corrected)
  | none => match arrIdx k (Reg.COL_POISONED 0) 16 256 with
  | some l => (s.onCol (s.physOf l) (fun c => { c with poisoned := 0 }), (s.col (s.physOf l)).poisoned)
  | none => match chipRow k with
  | none => (s, 0)
  | some row => (if row.rc = 0 then s else s.wr k (s.rd k &&& ~~~ (wd row.rc)), s.rd k)

/-- A GET of RESOLVE[g][x] with FOUND = 0 of an expert that a valid slot holds counts in RESOLVE_NONE, once (Table 7.5). -/
def State.resolveCount (s : State) (b o : Nat) : State :=
  match (if b = 6 then arrIdx (o / 8 * 8) 0x2000 8 128 else none) with
  | some i => if s.bit (Reg.GEN_SLOT (i / 64)) 24 && decide (i % 64 < s.fld (Reg.GEN_SLOT (i / 64)) 22 16) && !s.found (i / 64) (i % 64) then s.count Reg.RESOLVE_NONE else s
  | none => s

/-! ### One operation at a block -/

/-- Apply an operation to chip block space: only a GET or a PUT of 4 or 8 bytes has an effect; 8 bytes are two words, the lower first. -/
def State.blockApply (s : State) (q : ReqFlit) : State × Reply :=
  let b := Addr.tile q.addr
  let o := Addr.off q.addr
  let n := opBytes q
  if 16 ≤ b ∨ outOfRange q then (s, Reply.err cAddr)
  else if misaligned q then (s, Reply.err cAlign)
  else if notAllowed q then (s, Reply.err cOp)
  else if s.bit Reg.BIST_BLOCKS b || (s.keys.halted && b != 10) then (s, Reply.err cBusy)
  else if b = 9 then
    if q.op = 1 then (let x := s.nvWindowGet o n; (x.1, if x.2.1 = 0 then Reply.data 0 x.2.2 else Reply.err x.2.1)) else (s, Reply.err cProtect)
  else if q.op = 1 then
    let s := s.resolveCount b o
    let x := s.blockGet b o
    if n = 4 then (x.1, Reply.data 0 (toBytes 4 x.2.toNat))
    else let y := x.1.blockGet b (o + 4); (y.1, Reply.data 0 (toBytes 4 x.2.toNat ++ toBytes 4 y.2.toNat))
  else
    let bs := operandOf q n
    let x := s.blockPut q b o (wordAt bs 0)
    if n = 4 then (x.1, Reply.err x.2)
    else let y := x.1.blockPut q b (o + 4) (wordAt bs 4); (y.1, Reply.err (worse x.2 y.2))

end Sys2Proof.Machine
end

