-- ==== Sys2Proof/Machine/Fabric.lean ====
section
/-! DEFINITION. The fabric: requests reach their targets, responses, credits and notices reach their issuers, and flits advance
(R39, R51, R68 to R72, R76 to R85, R88, R136 to R142, R235, R548, R644). -/

namespace Sys2Proof.Machine

/-! ### Requests -/

/-- The column and row of a physical tile (R34). -/
def meshPlace (p : Nat) : Nat × Nat := (p % 17, p / 17)

/-- The port of a tile's router at which a request arrives (R72): 0 its own tile, 1 to 4 from tiles to the west, east, north and south, 5 from the
chip's blocks, and 6 + the chip for those of other chips. The spec names no ports: this numbering is the model's (DESIGN CHOICE, log entry 73). -/
def State.arrivalPort (s : State) (r : ReqFlit) : Nat :=
  if r.srcChip ≠ s.chipId then 6 + r.srcChip.toNat
  else if !tileUnit r.srcUnit then 5
  else
    let a := meshPlace (s.physOf r.srcTile.toNat)
    let b := meshPlace (s.physOf (Addr.tile r.addr))
    if Addr.space r.addr ≠ 3 ∧ r.srcTile.toNat = Addr.tile r.addr then 0
    else if a.1 < b.1 then 1 else if b.1 < a.1 then 2 else if a.2 < b.2 then 3 else 4

/-- A target as the round robin knows it: a tile, or 256 + a block. -/
def portKey (a : Addr) : Nat := (if Addr.space a = 3 then 256 else 0) + Addr.tile a

/-- How soon a request's port has its turn behind the one served last. -/
def State.turnOf (s : State) (r : ReqFlit) : Nat := (s.arrivalPort r + 22 - 1 - spGet (fun _ => 21) s.fab.lastPort (portKey r.addr)) % 22

/-- The order of a priority: urgent, normal, bulk. -/
def prioRank (p : BitVec 2) : Nat := prioVc p / 2

/-- Whether a request under way is behind another of its lane. -/
def State.behindLane (s : State) (r : ReqFlit) : Bool :=
  s.fab.inflight.contains r && s.fab.inflight.find? (sameLane r) != some r

/-- The lines that a request reaches at a tile of this chip, named by space, tile and line: those of its bytes, of the rows of a GATHER_SUM, and of
the slot of a POST. -/
def State.linesAt (s : State) (r : ReqFlit) : List (Nat × Nat × Nat) :=
  let l := Addr.tile r.addr
  let sp := Addr.space r.addr
  let o := Addr.off r.addr
  let lines : List Nat :=
    if r.op = 8 then
      match (s.ltile l).postBeat r with
      | some b => linesOf ((s.ltile l).slotAddr o b) 4
      | none => []
    else if r.op = 7 then
      let g := gatherOf r.payload
      (List.range g.count).flatMap (fun i => linesOf (gatherRow r.payload g o i) (2 ^ g.shift))
    else linesOf o (opBytes r)
  lines.map (fun n => (sp, l, n))

/-- Whether two requests reach one line. -/
def State.shareLine (s : State) (q r : ReqFlit) : Bool := (s.linesAt q).any (fun x => (s.linesAt r).contains x)

/-- Whether request q is applied ahead of r where both reach one line (R72): the more urgent one; within a priority the one whose port has its turn,
and at one port the one that came first. -/
def State.goesAhead (s : State) (q r : ReqFlit) : Bool :=
  decide (prioRank q.prio < prioRank r.prio) ||
  (prioRank q.prio == prioRank r.prio && (decide (s.turnOf q < s.turnOf r) ||
    (s.turnOf q == s.turnOf r && decide (s.fab.inflight.idxOf q < s.fab.inflight.idxOf r))))

/-- Whether a request must let another pass that has reached one of its lines from another source (R72). -/
def State.outranked (s : State) (ready : ReqFlit → Bool) (r : ReqFlit) : Bool :=
  s.fab.inflight.any (fun q => q != r && targetKey q.addr == targetKey r.addr && s.shareLine q r && !sameLane q r &&
    (q.srcChip != r.srcChip || q.srcTile != r.srcTile || q.srcUnit != r.srcUnit) && ready q && s.goesAhead q r)

/-- The request leaves the fabric, and its port has had its turn. -/
def State.takeFlit (s : State) (r : ReqFlit) : State :=
  { s with fab := { s.fab with inflight := s.fab.inflight.erase r, lastPort := spSet (fun _ => 21) s.fab.lastPort (portKey r.addr) (s.arrivalPort r) } }

/-- Whether a request is one that the old tile forwards; it is then no longer due. -/
def State.forwarded (s : State) (l : Nat) (r : ReqFlit) : State × Bool :=
  match s.relocOf l with
  | some c => if c.fwd.contains r then (s.setReloc l (some { c with fwd := c.fwd.erase r }), true) else (s, false)
  | none => (s, false)

/-- Whether a request of this chip can be applied now as far as its own way goes: it is at the head of its lane (R68), and at an open tile neither its
VC nor a relocation holds it (R88, R140, R208, R226). -/
def State.canServe (s : State) (r : ReqFlit) : Bool :=
  let l := Addr.tile r.addr
  Addr.chip r.addr == s.chipId.toNat && !s.behindLane r &&
  (Addr.space r.addr == 3 || s.mapState l == 3 || s.tileShut l || !((s.ltile l).vcHeld r || s.mustHold l r))

/-- A request reaches its target on this chip: a chip block or a tile. It waits behind its lane (R68), behind one that R72 puts first at its line,
behind a held push or POST of its VC (R140, R208, R226), and for a relocation (R88). A closed or gated tile answers ERR_BUSY before it looks at
the epoch, the address or the form (DESIGN CHOICE, log entry 73: R644 against the order of Table 2.17). -/
def State.serve (s : State) (r : ReqFlit) : State :=
  let l := Addr.tile r.addr
  if s.canServe r = false ∨ s.outranked s.canServe r then s
  else if Addr.space r.addr = 3 then
    let x := (s.takeFlit r).blockApply r
    x.1.complete r false x.2
  else if s.mapState l = 3 then (s.takeFlit r).complete r false (Reply.err cRetired)
  else if s.tileShut l then (s.takeFlit r).gatedAnswer r
  else
    let f := (s.takeFlit r).forwarded l r
    f.1.applyTile r f.2

/-- The request as a command names its operation; one with a reserved opcode keeps it, and its target answers ERR_OP (R51). -/
def asOp (op : Nat) (r : ReqFlit) : ReqFlit := if 1 ≤ r.op.toNat ∧ r.op.toNat ≤ 8 then { r with op := BitVec.ofNat 5 op } else r

/-- The ring whose BASE a request of this chip addresses. -/
def State.ringHit (s : State) (r : ReqFlit) (at_ : Nat) : Option Nat :=
  let t := s.ltile (Addr.tile r.addr)
  if Addr.space r.addr = 0 then lowestBelow 8 (fun n => t.ringOn n && t.ringBase n + at_ == Addr.off r.addr) else none

/-- Whether a PUT is a push: of a ring's slot size, to its BASE (R137). -/
def State.isPush (s : State) (r : ReqFlit) : Bool :=
  match s.ringHit r 0 with
  | some n => opBytes r == ringSlotSize ((s.ltile (Addr.tile r.addr)).rd (Reg.RING_CFG n))
  | none => false

/-! ### Responses and reports -/

/-- Whether a tag is one that an operation failed under R547 carried. -/
def lateTag (late : List (Nat × Nat)) (tag : BitVec 10) : Bool := late.any (fun e => e.1 == tag.toNat)

/-- A response reaches its unit on this chip; one that comes after its operation failed is discarded and counted (R70, R548). -/
def State.response (s : State) (r : RespFlit) : State :=
  if r.dstChip ≠ s.chipId then s
  else
    let s : State := { s with fab := { s.fab with resps := s.fab.resps.erase r } }
    let u := r.dstUnit.toNat
    if tileUnit r.dstUnit then
      let l := r.dstTile.toNat
      let t := s.ltile l
      if t.out.any (fun o => o.acked && o.tag == r.tag && o.unit == u) then s.tileResponse l r
      else if lateTag t.late r.tag then (s.wakeL l).count Reg.LATE_RESPONSES else s
    else if u = 8 then
      if s.host.out.any (fun o => o.acked && o.tag == r.tag) then s.hostResponse r
      else if lateTag s.host.late r.tag then s.count Reg.LATE_RESPONSES else s
    else
      match s.fab.blockOut.find? (fun o => o.unit == u && o.acked && o.tag == r.tag) with
      | some o => ({ s with fab := { s.fab with blockOut := s.fab.blockOut.erase o } } : State).coreAnswer o.req r.status.toNat
      | none => if lateTag s.fab.late r.tag then s.count Reg.LATE_RESPONSES else s

/-- CREDIT_SEND: what a target owes an issuer goes on its way (R81); a report that cannot be routed is discarded (R694). -/
def State.creditSend (s : State) (i : IssuerId) (target : Nat) : State :=
  match s.fab.owed.find? (fun o => o.issuer == i && o.target == target) with
  | some o =>
    let c : CreditFlit := { issuer := o.issuer, target := o.target, applied := o.applied, failed := o.failed }
    { s with fab := { s.fab with owed := s.fab.owed.erase o, credits := s.fab.credits ++ if s.routed i.chip then [c] else [] } }
  | none => s

/-- A report of posted operations reaches its issuer on this chip. Of several operations of a chip block that one report completes, those applied
count as the first of them (DESIGN CHOICE, log entry 76: R81 reports numbers only). -/
def State.credit (s : State) (c : CreditFlit) : State :=
  if c.issuer.chip ≠ s.chipId then s
  else
    let s : State := { s with fab := { s.fab with credits := s.fab.credits.erase c } }
    let u := c.issuer.unit.toNat
    if tileUnit c.issuer.unit then s.tileCredit c.issuer.tile.toNat c
    else if u = 8 then s.hostCredit c.target c.issuer.prio c.applied c.failed
    else
      let hit : BlockOut → Bool := fun o => o.unit == u && !o.acked && o.prio == c.issuer.prio && o.target == c.target
      let gone := (s.fab.blockOut.filter hit).take (c.applied + c.failed)
      let s : State := { s with fab := { s.fab with blockOut := s.fab.blockOut.filter (fun o => !gone.contains o) } }
      (gone.drop c.applied).foldl (fun s o => s.pushDone o.req false) ((gone.take c.applied).foldl (fun s o => s.pushDone o.req true) s)

/-! ### Notices (R84, R85) -/

/-- A notice record (Table 2.19). -/
def Notice.bytes (n : Notice) : List Byte :=
  toBytes 5 n.addr.toNat ++ toBytes 1 n.op.toNat ++ toBytes 1 n.status.toNat ++ toBytes 1 n.epoch.toNat ++ toBytes 2 n.count ++ toBytes 2 0 ++ toBytes 4 n.time

/-- NOTICE_SEND: the oldest record held for 10 µs leaves, to a tile of this chip or as a bulk push to one of another chip (R85). -/
def State.noticeSend (s : State) : State :=
  match s.fab.notices.find? (fun n => decide (n.time + 10 ≤ s.now)) with
  | none => s
  | some n =>
    let s : State := { s with fab := { s.fab with notices := s.fab.notices.erase n } }
    if n.dstChip = s.chipId then s.noticeTo n.dstTile.toNat n.bytes
    else { s with fab := { s.fab with sentNotices := s.fab.sentNotices ++ [(n.dstChip, { tile := n.dstTile, bytes := n.bytes })] } }

/-! ### Flits (R235) -/

/-- A CHAIN ADD that waits for an injection credit of a VC goes into the router when there is one (R235). -/
def State.chainRelease (s : State) (l vc : Nat) : State :=
  match (s.ltile l).chainWait.find? (fun r => prioVc r.prio == vc) with
  | some r => if (s.ltile l).canInject r.prio then (s.onL l (fun t => { t with chainWait := t.chainWait.erase r })).issueTile l r else s
  | none => s

/-- A request has left a tile's router whole: it fails for want of a route, or goes on its way. -/
def State.leaveRouter (s : State) (r : ReqFlit) : State :=
  if Addr.chip r.addr = s.chipId.toNat then s.launch r
  else
    match s.issueError r.addr with
    | some e => s.failAtIssue r e
    | none => s.launch r

/-- One flit of the oldest request of a VC in a tile's router goes on, unless a route fence holds the request (R551) or there is no place for it;
the interface regains the credit, and with its last flit the request has left (R235). -/
def State.routerAdvance (s : State) (l : Nat) (vc : Nat) : State :=
  match (s.ltile l).router.find? (fun r => prioVc r.prio == vc) with
  | none => s
  | some r =>
    if (Addr.chip r.addr ≠ s.chipId.toNat ∧ s.fenced (issuerKey r) r.prio) ∨ s.meshFull r then s
    else
      let n := spGet (fun _ => 0) (s.ltile l).moved vc + 1
      if n < reqFlits r then (s.onL l (fun t => { t with moved := spSet (fun _ => 0) t.moved vc n })).chainRelease l vc
      else ((s.onL l (fun t => { t with router := t.router.erase r, moved := spSet (fun _ => 0) t.moved vc 0 })).leaveRouter r).chainRelease l vc

/-- Requests of chip blocks that wait for a place on their way to tile l on a VC, or for a chip block's answer, go on when they can. -/
def State.blocksAdvance (s : State) (l vc : Nat) : State :=
  s.releaseWaiting (fun r => Addr.chip r.addr == s.chipId.toNat && prioVc r.prio == vc && (Addr.space r.addr == 3 || Addr.tile r.addr == l))

/-- FLIT_ADVANCE: at the router of a tile, a flit of its own interface, then requests of chip blocks on their way to the tile; or at a link. -/
def State.flitAdvance (s : State) (src : FlitAt) (vc : Nat) : State :=
  match src with
  | .tile l => (s.routerAdvance l vc).blocksAdvance l vc
  | .port p => s.portAdvance p vc

/-! ### Commands -/

/-- GET at its target. -/
def execGet (r : ReqFlit) (s : State) : Host.Outcome State Fault Refusal := .next (s.serve (asOp 1 r))
/-- PUT at its target. -/
def execPut (r : ReqFlit) (s : State) : Host.Outcome State Fault Refusal := .next (s.serve (asOp 2 r))
/-- ADD at its target. -/
def execAdd (r : ReqFlit) (s : State) : Host.Outcome State Fault Refusal := .next (s.serve (asOp 3 r))
/-- MAX at its target. -/
def execMax (r : ReqFlit) (s : State) : Host.Outcome State Fault Refusal := .next (s.serve (asOp 4 r))
/-- SWAP at its target. -/
def execSwap (r : ReqFlit) (s : State) : Host.Outcome State Fault Refusal := .next (s.serve (asOp 5 r))
/-- CAS at its target. -/
def execCas (r : ReqFlit) (s : State) : Host.Outcome State Fault Refusal := .next (s.serve (asOp 6 r))
/-- GATHER_SUM at its target. -/
def execGatherSum (r : ReqFlit) (s : State) : Host.Outcome State Fault Refusal := .next (s.serve (asOp 7 r))
/-- POST at its target. -/
def execPost (r : ReqFlit) (s : State) : Host.Outcome State Fault Refusal := .next (s.serve (asOp 8 r))
/-- RING_PUSH: a PUT of slot size to the BASE of an enabled ring. -/
def execRingPush (r : ReqFlit) (s : State) : Host.Outcome State Fault Refusal := .next (if s.isPush (asOp 2 r) then s.serve (asOp 2 r) else s)
/-- RING_CLAIM: an ADD or a CAS on HEAD. -/
def execRingClaim (r : ReqFlit) (s : State) : Host.Outcome State Fault Refusal :=
  .next (if (s.ringHit r 0).isSome then s.serve (if r.op = 6 then r else asOp 3 r) else s)
/-- RING_PUBLISH: a 4-byte PUT to PUBLISH. -/
def execRingPublish (r : ReqFlit) (s : State) : Host.Outcome State Fault Refusal :=
  .next (if (s.ringHit r 12).isSome ∧ r.size = 2 then s.serve (asOp 2 r) else s)
/-- RING_TAIL_MOVE: a 4-byte PUT to TAIL. -/
def execRingTailMove (r : ReqFlit) (s : State) : Host.Outcome State Fault Refusal :=
  .next (if (s.ringHit r 8).isSome ∧ r.size = 2 then s.serve (asOp 2 r) else s)
/-- RESPONSE_ARRIVAL. -/
def execResponseArrival (r : RespFlit) (s : State) : Host.Outcome State Fault Refusal := .next (s.response r)
/-- CREDIT_SEND. -/
def execCreditSend (i : IssuerId) (target : Nat) (s : State) : Host.Outcome State Fault Refusal := .next (s.creditSend i target)
/-- CREDIT_ARRIVAL. -/
def execCreditArrival (c : CreditFlit) (s : State) : Host.Outcome State Fault Refusal := .next (s.credit c)
/-- NOTICE_SEND of this chip, or a notice of another chip that arrives here. -/
def execNoticeSend (arrived : Option NoticeIn) (s : State) : Host.Outcome State Fault Refusal :=
  .next (match arrived with | none => s.noticeSend | some n => s.noticeTo n.tile.toNat (takeBytes 16 n.bytes))
/-- FLIT_ADVANCE. -/
def execFlitAdvance (src : FlitAt) (vc : Fin 6) (s : State) : Host.Outcome State Fault Refusal := .next (s.flitAdvance src vc)
/-- Whether a request lies in a window of a chip block. -/
def inWindow (r : ReqFlit) (b lo hi : Nat) : Bool := Addr.space r.addr == 3 && Addr.tile r.addr == b && decide (lo ≤ Addr.off r.addr) && decide (Addr.off r.addr < hi)
/-- RECORD_COMMIT: a PUT to the record window. -/
def execRecordCommit (r : ReqFlit) (s : State) : Host.Outcome State Fault Refusal := .next (if inWindow r 4 0x10000 0x20000 then s.serve (asOp 2 r) else s)
/-- HINT_WRITE: a PUT to the hint window. -/
def execHintWrite (r : ReqFlit) (s : State) : Host.Outcome State Fault Refusal := .next (if inWindow r 4 0x20000 0x24000 then s.serve (asOp 2 r) else s)
/-- WAKE_REQ_WRITE: a PUT to WAKE_REQ. -/
def execWakeReqWrite (r : ReqFlit) (s : State) : Host.Outcome State Fault Refusal := .next (if inWindow r 0 0xC 0x10 then s.serve (asOp 2 r) else s)

end Sys2Proof.Machine
end

