-- ==== Sys2Proof/Machine/Mgmt.lean ====
section
/-! DEFINITION. The management core: the mailbox, image loads, sealed enrollments, deferral, restarts and boot patches
(R297, R300 to R302, R506, R521, R609 to R614, R657 to R671). -/

namespace Sys2Proof.Machine

/-- Reply STATUS (Table 20.3). -/
abbrev mbOk : Nat := 0
abbrev mbBadCmd : Nat := 1
abbrev mbBadArg : Nat := 2
abbrev mbState : Nat := 3
abbrev mbLocked : Nat := 4
abbrev mbTagFail : Nat := 5
abbrev mbNv : Nat := 6
abbrev mbRestarted : Nat := 7
abbrev mbNotFound : Nat := 8

/-! ### Queues, load and deferral (R521, R661, R666) -/

/-- Milliseconds of deferral that have passed are counted. -/
def State.deferCount (s : State) : State :=
  match s.mgmt.deferAt with
  | some t =>
    let k := (s.now - t) / 1000
    if k = 0 then s else (s.countBy Reg.DEFER_MS k).onMgmt (fun m => { m with deferAt := some (t + 1000 * k) })
  | none => s

/-- QUEUE and REPLIES show the queues; DEFERRING is set at LOAD 75 or QUEUE 4; the core is calm while LOAD is below 50 and QUEUE is 0. -/
def State.mbSync (s : State) : State :=
  let t := s.now
  let q := s.mgmt.queue.length
  let s := (s.setFld Reg.MGMT_LOAD 11 8 q).setFld Reg.MGMT_LOAD 15 12 s.mgmt.replies.length
  let load := s.fld Reg.MGMT_LOAD 7 0
  let s := if !s.bit Reg.MGMT_LOAD 16 && (decide (75 ≤ load) || decide (4 ≤ q)) then
      (s.setBit Reg.MGMT_LOAD 16 true).onMgmt (fun m => { m with deferAt := some t }) else s
  s.onMgmt (fun m => { m with calmAt := if load < 50 ∧ q = 0 then some (m.calmAt.getD t) else none })

/-- The occupancy of the core as it now stands. -/
def State.setLoad (s : State) (load : Nat) : State := (s.deferCount.setFld Reg.MGMT_LOAD 7 0 load).mbSync

/-- DEFER_CLEAR: after 100 ms of calm. -/
def State.deferClear (s : State) : State :=
  match s.mgmt.calmAt with
  | some t =>
    if s.bit Reg.MGMT_LOAD 16 ∧ t + 100000 ≤ s.now then ((s.deferCount).setBit Reg.MGMT_LOAD 16 false).onMgmt (fun m => { m with deferAt := none }) else s
  | none => s

/-- Parameter page k. -/
def State.paramPage (s : State) (k : Nat) : List Byte := (List.range 512).flatMap (fun j => toBytes 4 (s.rd (Reg.PARAM k j)).toNat)

/-- Whether a command word spells an audited command. -/
def auditedCmd (v : Word) : Bool := match cmdRow (wfld v 7 0) with | some r => r.audited | none => false

/-- MGMT_MAILBOX written (R521, R524, R660): the record of an audited command takes its place in the queue now, and waits there for the reply that
it holds (R523, Table 18.11). -/
def State.mailboxWrite (s : State) (v : Word) : State :=
  if 8 ≤ s.mgmt.queue.length then s.setBit Reg.MGMT_LOAD 17 true
  else if auditedCmd v && s.auditRefuses then s.auditRefused
  else
    let s := if auditedCmd v then
        let t := s.auditPayload 4 s.hostSrc (busTarget 0xAC) v 0 0
        s.onNv (fun n => { n with audit := n.audit ++ [{ payload := t, device := false, extra := none, due := true }] })
      else s
    let c : MailCmd := { word := v, page := s.paramPage (wfld v 18 16) }
    ((s.onMgmt (fun m => { m with queue := m.queue ++ [c] })).count Reg.COMMANDS).mbSync

/-- The record that waits for a command's reply word gets it. -/
def AuditEntry.answer (w : Word) (e : AuditEntry) : AuditEntry :=
  { e with payload := e.payload.take 12 ++ toBytes 4 w.toNat ++ e.payload.drop 16, due := false }

/-- A reply enters the reply queue, or is held by a full one (R661); the record of an audited command holds it. -/
def State.reply (s : State) (c : MailCmd) (status data : Nat) : State :=
  let w := wd (c.tag + 2 ^ 7 + 2 ^ 8 * status + 2 ^ 16 * (data % 65536))
  let s := s.onNv (fun n =>
    match n.audit.findIdx? (fun e => e.due && wordAt e.payload 8 == c.word) with
    | some i => { n with audit := n.audit.modify i (AuditEntry.answer w) }
    | none => n)
  (s.onMgmt (fun m =>
    if m.replies.length < 8 then { m with replies := m.replies ++ [w] } else { m with heldReplies := m.heldReplies ++ [w] })).mbSync

/-- MGMT_REPLY read: the oldest reply leaves, and the oldest held one enters. -/
def State.replyRead (s : State) : State :=
  match s.mgmt.replies with
  | [] => { s with readData := 0 }
  | w :: r =>
    let s := s.onMgmt (fun m => { m with replies := r ++ m.heldReplies.take 1, heldReplies := m.heldReplies.drop 1 })
    { s.mbSync with readData := w }

/-- The command the core would run next: the most urgent one, the oldest of these. -/
def State.nextCmd (s : State) : Option MailCmd :=
  s.mgmt.queue.foldl (fun a c => match a with | none => some c | some b => if c.prio < b.prio then some c else a) none

/-- Take a command out of the queue. -/
def State.takeCmd (s : State) (c : MailCmd) : State := (s.onMgmt (fun m => { m with queue := m.queue.erase c })).mbSync

/-- Whether a command writes the die. -/
def MailCmd.writesDie (c : MailCmd) : Bool := [0x03, 0x04, 0x20, 0x22, 0x30].contains c.code

/-- The SPEAKER row that a command reads (Table 20.2). -/
def MailCmd.rowAt (c : MailCmd) : Option Addr :=
  match c.code with
  | 0x20 => some (BitVec.ofNat 40 (natAt c.page 0 5))
  | 0x21 => some (BitVec.ofNat 40 (natAt c.page 8 5))
  | 0x23 => some (BitVec.ofNat 40 (natAt c.page 0 5))
  | 0x24 => some (BitVec.ofNat 40 (natAt c.page 0 5))
  | _ => none

/-- Whether a command may start: only one runs at a time, a chunk giving way to one at priority 0; the appends go before the other priorities (R657,
R658); it waits for a die that it writes, and for the way to the row that it reads. -/
def State.mayStart (s : State) (c : MailCmd) : Bool :=
  s.coreTakes && s.mgmt.job.isNone && (c.prio == 0 || (s.mgmt.run.isNone && !s.nvAppends)) && (!c.writesDie || s.dieTakes) &&
  !c.rowAt.any (s.coreWaits 1)

/-- A chunk under way is suspended for a command. -/
def State.preempt (s : State) : State := if s.mgmt.run.isSome then s.count Reg.PREEMPTIONS else s

/-- Commands with a code that Table 20.2 does not hold are answered BAD_CMD as their turn comes. -/
def State.badCmds : Nat → State → State
  | 0, s => s
  | n + 1, s =>
    match s.nextCmd with
    | some c => if s.mayStart c && (cmdRow c.code).isNone then State.badCmds n ((s.preempt.takeCmd c).reply c mbBadCmd 0) else s
    | none => s

/-- CMD_RUNNING shows a chunk and a command that awaits answers. -/
def State.showRunning (s : State) : State := s.setBit Reg.MB_STATUS 20 (s.mgmt.run.isSome || s.mgmt.job.isSome)

/-- A load is complete: the measurement is shown and recorded (R612). -/
def State.loadDone (s : State) (l : Load) : State :=
  let e := l.envelope
  let plain := match l.key with | some k => gcmCrypt k ((e.drop 16).take 12) 0 l.body | none => l.body
  let m := sha256 (e.take 16 ++ plain)
  let s := (s.onMgmt (fun m => { m with ranges := [] })).loadClose
  let s := (List.range 8).foldl (fun s i => s.wr (Reg.IMG_MEASURE i) (wordAt m (4 * i))) s
  let s := if l.key.isSome then s.count Reg.KEY_OPS else s
  s.deviceAudit 0x31 (blockTarget 0xA 0x80) (wd (natAt e 6 2)) (wd (natAt e 8 1)) (wordAt m 0)

/-- A command whose writes have been answered ends with its reply: a load whose held writes failed fails, and so does one that has failed meanwhile; a
sealed record stands whatever became of the row (DESIGN CHOICE, log entry 79); any other command with a write that failed is answered BAD_ARG. -/
def State.jobDone (s : State) (j : CoreJob) : State :=
  let s := (s.onMgmt (fun m => { m with job := none })).showRunning
  if j.cmd.code = 0x12 then
    match s.mgmt.load with
    | none => s.reply j.cmd (if s.locked then mbLocked else mbBadArg) 0
    | some l => if j.code = cOK then (s.loadDone l).reply j.cmd mbOk 0 else s.loadFail.reply j.cmd mbBadArg 0
  else if j.code = cOK ∨ j.cmd.code = 0x20 then s.reply j.cmd j.status j.data
  else s.reply j.cmd mbBadArg 0

/-- The command that writes goes on as far as it can. -/
def State.jobGo (s : State) : State :=
  match s.mgmt.job with
  | none => s
  | some j =>
    let t := if j.cmd.code = 0x12 ∧ s.mgmt.load.isNone then (s.dropAnswers putJob).onMgmt (fun m => { m with job := some { j with todo := [], waits := false } })
             else s.jobSend j.todo.length
    match t.mgmt.job with
    | some k => if !k.waits ∧ (k.todo = [] ∨ k.code ≠ cOK) then t.jobDone k else t
    | none => t

/-- The command writes: what it has to write, and how it ends. -/
def State.jobStart (s : State) (c : MailCmd) (todo : List (Addr × List Byte)) (anyEpoch : Bool) (prio status data : Nat) : State :=
  s.onMgmt (fun m => { m with job := some { cmd := c, todo := todo, anyEpoch := anyEpoch, prio := prio, waits := false, code := cOK, status := status, data := data } })

/-- Run the command whose turn it is, if it has a code: its status and data go into its reply, once its writes are answered. Between the steps of a
chunk, a command at priority 0 runs (R657). -/
def State.serveCmd (s : State) (load code : Nat) (f : State → MailCmd → State × Nat × Nat) : State :=
  let s := (s.setLoad load).badCmds 8
  match s.mgmt.job with
  | some j => if j.cmd.code = code ∧ s.coreUp then s.jobGo else s
  | none =>
    match s.nextCmd with
    | some c =>
      if s.mayStart c ∧ c.code = code then
        let x := f (s.preempt.takeCmd c) c
        if x.1.mgmt.job.isSome then x.1.showRunning.jobGo else x.1.reply c x.2.1 x.2.2
      else s
    | none => s

/-! ### Boot patches (R670, R671) -/

/-- The patch key. -/
def patchKey : List Byte := hkdf (toBytes 32 Config.patchRoot.toNat) (label "DZ64 boot patch")

/-- The BUILD and SEQ of the patch in a boot slot, when it is valid. -/
def State.bootSlot (s : State) (off : Nat) : Option (Nat × Nat) :=
  let h := s.nv.bytes off 64
  let len := natAt h 12 4
  if natAt h 0 4 = 0x50425A44 ∧ natAt h 4 2 = 1 ∧ 64 + len ≤ 0x1C0000 ∧ natAt h 16 1 ≤ Config.romRev.toNat ∧
      gcmTag patchKey ((h.drop 20).take 12) (h.take 20) (s.nv.bytes (off + 64) len) = (h.drop 32).take 16
  then some (natAt h 6 2, natAt h 8 4) else none

/-- The two slots. -/
def State.bootA (s : State) : Option (Nat × Nat) := s.bootSlot 0xC00000
def State.bootB (s : State) : Option (Nat × Nat) := s.bootSlot 0xDC0000

/-- Select the valid slot with the higher SEQ, A on equal SEQ, and run it; with none, the ROM firmware runs. -/
def State.bootSelect (s : State) : State :=
  let pick := match s.bootA, s.bootB with
    | some a, some b => if a.2 < b.2 then some (1, b) else some (0, a)
    | some a, none => some (0, a)
    | none, some b => some (1, b)
    | none, none => none
  match pick with
  | some (slot, b) => (s.wr Reg.HB_BUILD (wd (b.1 + 2 ^ 16 + 2 ^ 17 * slot))).setFld Reg.MB_STATUS 1 0 2
  | none => (s.wr Reg.HB_BUILD 0).setFld Reg.MB_STATUS 1 0 1

/-- HB_BUILD as it reads (Table 14.7): the ROM's values are constants of the implementation. -/
def State.hbBuild (s : State) : Word :=
  let w := s.rd Reg.HB_BUILD
  wSetFld (if wbit w 16 then w else wSetFld w 15 0 Config.romBuild.toNat) 31 24 Config.romRev.toNat

/-! ### Small commands -/

/-- PING. -/
def State.cmdPing (s : State) (_c : MailCmd) : State × Nat × Nat := (s, mbOk, wfld s.hbBuild 15 0)

/-- CLAP_REQ. -/
def State.cmdClap (s : State) (_c : MailCmd) : State × Nat × Nat := (s.noteClap 6, mbOk, 0)

/-- LOG_FLUSH: deferral or not; the entries written are counted. -/
def State.cmdFlush (s : State) (_c : MailCmd) : State × Nat × Nat :=
  let x := overBelow s.nv.logq.length (fun _ (x : State × Nat) => let y := x.1.logPut; (y.1, x.2 + y.2.toNat)) (s, 0)
  (x.1, mbOk, x.2)

/-- COMPACT. -/
def State.cmdCompact (s : State) (c : MailCmd) : State × Nat × Nat :=
  let go (r : Region) : State × Nat × Nat :=
    if s.nv.ro r then (s, mbNv, 5)
    else
      let t := s.compactNow r
      if t.2 then (t.1, mbNv, 5) else (t.1, mbOk, s.nv.used r - t.1.nv.used r)
  if c.arg / 8 = 1 then go .enroll else if c.arg / 8 = 3 then go .journal else (s, mbBadArg, 0)

/-- The answer to an append: OK, or NV with its error. -/
def appendStatus (a : Appended) (data : Nat) : Nat × Nat := match a with | .ok => (mbOk, data) | .noSpare => (mbNv, 5) | _ => (mbNv, 4)

/-- VF_DELETE, in SERVICE only (R631): the caps of the record go with it (R637). -/
def State.cmdVfDelete (s : State) (c : MailCmd) : State × Nat × Nat :=
  let p := c.arg / 8 % 512
  if s.lcState ≠ lcService then (s, mbState, 0)
  else if 272 ≤ p then (s, mbBadArg, 0)
  else
    let x := s.journalNow 2 (wd (0x8C000000 + p)) []
    let t := if x.2 = .ok then (List.range 4).foldl (fun s v => s.onPwr (fun w => { w with droopCap := spSet (fun _ => 0) w.droopCap (4 * p + v) 0 })) x.1 else x.1
    (t, appendStatus x.2 0)

/-- BOOT_CHECK. -/
def State.cmdBootCheck (s : State) (_c : MailCmd) : State × Nat × Nat := (s, mbOk, s.bootA.isSome.toNat + 2 * s.bootB.isSome.toNat)

/-! ### Image loads (R609 to R612, R663 to R665) -/

/-- A byte range that must be zero. -/
def zeroAt (bs : List Byte) (o n : Nat) : Bool := natAt bs o n == 0

/-- Whether an envelope is one of R609. -/
def envelopeOk (e : List Byte) : Bool :=
  natAt e 0 4 == 0x314E4841 && natAt e 4 2 == 1 && decide (natAt e 8 1 ≤ 1) && zeroAt e 9 3 && decide (64 ≤ natAt e 12 4) && decide (natAt e 12 4 ≤ 2 ^ 30) &&
  natAt e 12 4 % 64 == 0 && zeroAt e 28 4 && zeroAt e 92 4 && zeroAt e 112 16

/-- Open a load. -/
def State.loadOpen (s : State) (env : List Byte) (key : Option (List Byte)) : State :=
  let l : Load := { envelope := env, key := key, body := [], rest := [], sect := none, ended := false, held := [], chunks := 0 }
  (((s.onMgmt (fun m => { m with load := some l, ranges := [] })).setBit Reg.MB_STATUS 2 true).setBit Reg.MB_STATUS 3 key.isSome).setFld Reg.MB_STATUS 19 4 (natAt env 6 2)

/-- LOAD_BEGIN. -/
def State.cmdLoadBegin (s : State) (c : MailCmd) : State × Nat × Nat :=
  let e := c.page.take 128
  let enc := natAt e 8 1 == 1
  if s.mgmt.load.isSome then (s, mbState, 0)
  else if !envelopeOk e ∨ s.lcState = lcScrapped ∨ (s.lcState = lcField ∧ !enc) then (s, mbBadArg, 0)
  else if !enc then (s.loadOpen e none, mbOk, 0)
  else
    match (if s.deriveEn then s.keys.image else none) with
    | none => (s, mbLocked, 0)
    | some root =>
      let s := s.count Reg.KEY_OPS
      match gcmOpen (imageKey root.key (natAt e 6 2)) ((e.drop 32).take 12) (e.take 16) ((e.drop 44).take 32) ((e.drop 76).take 16) with
      | some k => (s.loadOpen e (some k), mbOk, 0)
      | none => (s.count Reg.LOADS_FAILED, mbTagFail, 0)

/-- Whether a section may name the block of an address: not 0x09, 0x0A or 0x0B. -/
def blockBarred (a : Addr) : Bool := Addr.space a == 3 && (Addr.tile a == 0x9 || Addr.tile a == 0xA || Addr.tile a == 0xB)

/-- Place bytes of a WRITE section: memory, microcode and gate programs at once, other control words and blocks held. The answer is whether the
section goes on. -/
def State.placeBytes (s : State) (a : Addr) (bs : List Byte) : State × Bool :=
  let unit := if Addr.space a ≤ 1 then bs.length else 8
  (List.range ((bs.length + unit - 1) / max 1 unit)).foldl (fun (x : State × Bool) i =>
    if !x.2 then x
    else
      let part := (bs.drop (unit * i)).take unit
      let b := addrOn a (unit * i)
      if loadsAtOnce b then
        let y := (x.1.onMgmt (fun m => { m with ranges := m.ranges ++ [(b, part.length)] })).coreWrite b part
        (y.1, y.2 == cOK)
      else
        match x.1.mgmt.load with
        | none => (x.1, false)
        | some l =>
          let total := l.held.foldl (fun n h => n + h.2.length) 0 + part.length
          if blockBarred b ∨ 16384 < total then (x.1, false)
          else (x.1.onMgmt (fun m => { m with load := some { l with held := l.held ++ [(b, part)] } }), true)) (s, true)

/-- The header of a section, taken up; the answer is whether the section goes on. A ZERO section names memory, microcode or gate programs throughout
(R664: only WRITE sections are held). -/
def State.sectionOpen (s : State) (h : List Byte) (l : Load) : State × Bool :=
  let dest : Addr := BitVec.ofNat 40 (natAt h 4 5)
  let len := natAt h 12 4
  let kind := natAt h 0 1
  let put (l : Load) (s : State) : State := s.onMgmt (fun m => { m with load := some l })
  if !zeroAt h 1 3 ∨ !zeroAt h 9 3 then (s, false)
  else if kind = 3 then (if len = 0 then (put { l with ended := true } s, true) else (s, false))
  else if kind = 1 ∧ dest.toNat % 4 = 0 ∧ len % 4 = 0 ∧ !blockBarred dest then
    (put { l with sect := if len = 0 then none else some { kind := 1, dest := dest, left := len, pad := (16 - len % 16) % 16 } } s, true)
  else if kind = 2 ∧ dest.toNat % 64 = 0 ∧ len % 64 = 0 ∧ (Addr.space dest ≤ 1 ∨ (List.range (len / 64)).all (fun i => loadsAtOnce (addrOn dest (64 * i)))) then
    let y := ((put l s).onMgmt (fun m => { m with ranges := m.ranges ++ [(dest, len)] })).coreWrite dest (List.replicate len 0)
    (y.1, y.2 == cOK)
  else (s, false)

/-- Take up plaintext as far as it goes; the answer is whether no section fails. -/
def State.loadEat : Nat → State → State × Bool
  | 0, s => (s, true)
  | fuel + 1, s =>
    match s.mgmt.load with
    | none => (s, false)
    | some l =>
      if l.ended ∨ l.rest = [] then (s, true)
      else
        match l.sect with
        | none =>
          let x := s.sectionOpen (l.rest.take 16) { l with rest := l.rest.drop 16 }
          if x.2 then State.loadEat fuel x.1 else x
        | some x =>
          let n := min x.left l.rest.length
          if n = 0 then
            let k := min x.pad l.rest.length
            let l := { l with rest := l.rest.drop k, sect := if x.pad ≤ k then none else some { x with pad := x.pad - k } }
            State.loadEat fuel (s.onMgmt (fun m => { m with load := some l }))
          else
            let z := s.placeBytes x.dest (l.rest.take n)
            let y : Section := { x with dest := addrOn x.dest n, left := x.left - n }
            let f (l : Load) : Load := { l with rest := l.rest.drop n, sect := if y.left = 0 ∧ y.pad = 0 then none else some y }
            if z.2 then State.loadEat fuel (z.1.onMgmt (fun m => { m with load := m.load.map f })) else z

/-- One step of a chunk: at most 64 KB are read from the staging area, decrypted and placed; the answer is whether the load goes on. -/
def State.chunkStep (s : State) (a : Addr) (n : Nat) (remote : Option FarRead) : State × Bool :=
  let x := if Addr.chip a = s.chipId.toNat then s.coreRead a n else (let y := s.farLines 2 a remote (n / 64); (y.1, joinLines y.2))
  match x.2, x.1.mgmt.load with
  | some bs, some l =>
    let plain := match l.key with | some k => gcmCrypt k ((l.envelope.drop 16).take 12) l.body.length bs | none => bs
    let l := { l with body := l.body ++ bs, rest := l.rest ++ plain }
    State.loadEat (4 * n + 64) (x.1.onMgmt (fun m => { m with load := some l }))
  | _, _ => (x.1, false)

/-- The chunk under way, or one that begins, ends with its reply. -/
def State.chunkEnd (s : State) (c : MailCmd) (status data : Nat) : State := (s.onMgmt (fun m => { m with run := none })).showRunning.reply c status data

/-- LOAD_CHUNK goes on, or starts: one step of it. It is answered when the chunk is done, with every write of it answered, or has failed. -/
def State.chunkRun (s : State) (c : MailCmd) (done : Nat) (remote : Option FarRead) : State :=
  let a : Addr := BitVec.ofNat 40 (natAt c.page 0 5)
  let len := natAt c.page 8 4
  match s.mgmt.load with
  | none => s.chunkEnd c (if s.locked then mbLocked else if done = 0 then mbState else mbBadArg) 0
  | some l =>
    if done = 0 ∧ (len < 64 ∨ 2 ^ 20 < len ∨ len % 64 ≠ 0 ∨ natAt l.envelope 12 4 < l.body.length + len ∨ 1 < Addr.space a) then s.chunkEnd c mbBadArg 0
    else
      let n := min 65536 (len - done)
      let x := if n = 0 then (s, true) else s.chunkStep (addrOn a done) n remote
      if !x.2 then x.1.loadFail.chunkEnd c mbBadArg 0
      else if done + n < len ∨ x.1.corePending then (x.1.onMgmt (fun m => { m with run := some (c, done + n) })).showRunning
      else (x.1.onMgmt (fun m => { m with load := m.load.map (fun l => { l with chunks := l.chunks + 1 }) })).chunkEnd c mbOk (l.chunks + 1)

/-- The staging address that a step of a chunk reads. -/
def chunkAt (c : MailCmd) (done : Nat) : Addr := addrOn (BitVec.ofNat 40 (natAt c.page 0 5)) done

/-- LOAD_CHUNK: the chunk under way goes on unless a command at priority 0 or an append goes before it; else the one whose turn it is starts. A step
waits for the answers to the writes before it, and for the way to the staging area. -/
def State.chunkCmd (s : State) (load : Nat) (remote : Option FarRead) : State :=
  let s := (s.setLoad load).badCmds 8
  if !s.coreTakes || s.corePending || s.mgmt.job.isSome then s
  else
    match s.mgmt.run with
    | some (c, done) =>
      if s.mgmt.queue.any (fun q => q.prio == 0) || (c.prio != 0 && s.nvAppends) || s.coreWaits 2 (chunkAt c done) then s else s.chunkRun c done remote
    | none =>
      match s.nextCmd with
      | some c => if c.code = 0x11 ∧ s.mayStart c ∧ !s.coreWaits 2 (chunkAt c 0) then (s.takeCmd c).chunkRun c 0 remote else s
      | none => s

/-- LOAD_END (R612, R664): the tag is verified, then the held writes are applied in body order. -/
def State.cmdLoadEnd (s : State) (c : MailCmd) : State × Nat × Nat :=
  match s.mgmt.load with
  | none => (s, mbState, 0)
  | some l =>
    let e := l.envelope
    let good := match l.key with | some k => gcmTag k ((e.drop 16).take 12) (e.take 16) l.body == (e.drop 96).take 16 | none => true
    if !good then (s.loadFail, mbTagFail, 0)
    else if l.body.length ≠ natAt e 12 4 ∨ !l.ended then (s.loadFail, mbBadArg, 0)
    else (s.jobStart c (l.held.flatMap (fun h => corePieces h.1 h.2)) true 2 mbOk 0, mbOk, 0)

/-- LOAD_ABORT. -/
def State.cmdLoadAbort (s : State) (_c : MailCmd) : State × Nat × Nat := if s.mgmt.load.isSome then (s.loadFail, mbOk, 0) else (s, mbState, 0)

/-! ### Enrollment records (R297, R300 to R302, R613, R614) -/

/-- Whether an address can be that of a SPEAKER row: clay, a multiple of 1 KB, on this chip in the table pool. -/
def State.rowAddr (s : State) (a : Addr) : Bool :=
  Addr.space a == 1 && Addr.off a % 1024 == 0 && decide (Addr.off a + 1024 ≤ 0x200000) &&
  (Addr.chip a != s.chipId.toNat || decide (s.poolRecords (Addr.tile a) * 0x20000 ≤ Addr.off a))

/-- Read the 16 lines of a row, each for itself: of this chip, or as another chip answers. -/
def State.readRow (s : State) (a : Addr) (remote : Option FarRead) : State × List (Option (List Byte)) :=
  if Addr.chip a = s.chipId.toNat then
    (List.range 16).foldl (fun (x : State × List (Option (List Byte))) i => let y := x.1.coreRead (addrOn a (64 * i)) 64; (y.1, x.2 ++ [y.2])) (s, [])
  else s.farLines 1 a remote 16

/-- A row with another SEQ. -/
def withSeq (row : List Byte) (seq : Nat) : List Byte := row.take 4 ++ toBytes 4 seq ++ row.drop 8

/-- The row that lines make: lines that could not be read count as zeros. -/
def rowBytes (lines : List (Option (List Byte))) : List Byte := lines.flatMap (fun x => x.getD (List.replicate 64 0))

/-- The writes of a row in the order of R297: the header with an odd SEQ, the other lines that change, the header with the next even SEQ. A line that
could not be read is written (DEDUCED, log entry 79). -/
def rowWrites (a : Addr) (old : List (Option (List Byte))) (new : List Byte) : List (Addr × List Byte) :=
  let q := natAt (rowBytes old) 4 4
  let odd := if q % 2 = 0 then q + 1 else q + 2
  let body := (List.range 15).filterMap (fun i =>
    let part := (new.drop (64 * (i + 1))).take 64
    if old.getD (i + 1) none = some part then none else some (addrOn a (64 * (i + 1)), part))
  (a, (withSeq (rowBytes old) odd).take 64) :: body ++ [(a, (withSeq new (odd + 1)).take 64)]

/-- A resident or exported record (Table 7.17). -/
def sealRecord (key nonce row : List Byte) (format group seq : Nat) : List Byte :=
  let h := row.take 4 ++ toBytes 2 group ++ toBytes 2 format ++ toBytes 4 seq ++ toBytes 4 0
  let x := gcmSeal key nonce h ((row.drop 8).take 16 ++ row.drop 64)
  h ++ nonce ++ toBytes 4 0 ++ x.1 ++ x.2

/-- The body of a record, if its tag verifies. -/
def openRecord (key r : List Byte) : Option (List Byte) := gcmOpen key ((r.drop 16).take 12) (r.take 16) ((r.drop 32).take 976) ((r.drop 1008).take 16)

/-- The row that a record's body makes of an old row. -/
def openedRow (old r body : List Byte) (resident : Bool) : List Byte :=
  let fl := natAt body 0 1 / 4 * 4 + natAt body 0 1 % 2 + 2 * resident.toNat
  r.take 4 ++ (old.drop 4).take 4 ++ toBytes 1 fl ++ (body.drop 1).take 15 ++ (old.drop 24).take 40 ++ body.drop 16

/-- The committed resident record of a speaker. -/
def Nv.resident (v : Nv) (id : Word) : Option (List Byte) :=
  match lastOf (v.records .enroll) id with
  | some x => if x.type = 0x20 then some x.payload else none
  | none => none

/-- Speakers with a resident record. -/
def Nv.residents (v : Nv) : Nat :=
  let rs := v.records .enroll
  ((rs.filter (fun x => x.type == 0x20 && lastOf rs x.key == some x)).length)

/-- Append to ENROLL; an append that waits takes the compaction it waits for first (R476). -/
def State.enrollNow (s : State) (type : Nat) (key : Word) (payload : List Byte) : State × Appended :=
  s.appendNow .enroll type key payload

/-- Whether NV_PROTECT.BP covers ENROLL (R457). -/
def State.enrollProtected (s : State) : Bool := s.fld Reg.NV_PROTECT 1 0 == 3

/-- A row that may be sealed: readable, SEQ even, VALID. -/
def sealable (row : List Byte) : Bool := natAt row 4 4 % 2 == 0 && natAt row 8 1 % 2 == 1

/-- SEAL. -/
def State.cmdSeal (remote : Option FarRead) (s : State) (c : MailCmd) : State × Nat × Nat :=
  let a : Addr := BitVec.ofNat 40 (natAt c.page 0 5)
  if !s.deriveEn ∨ !s.entropyOk then (s, mbLocked, 0)
  else if s.enrollProtected then (s, mbNv, 1)
  else if !s.rowAddr a then (s, mbBadArg, 0)
  else
    let x := s.readRow a remote
    match joinLines x.2 with
    | none => (x.1, mbBadArg, 0)
    | some row =>
      if !sealable row then (x.1, mbBadArg, 0)
      else if x.1.keys.enroll.isNone && x.1.keysRo then (x.1, mbNv, 5)
      else
        let z := match x.1.keys.enroll, x.1.keys.wk with | none, some wk => x.1.newEnroll wk | _, _ => (x.1, true)
        let s := z.1
        match s.keys.enroll with
        | none => if z.2 then (s, mbLocked, 0) else (s, mbNv, 5)
        | some k =>
          let id := wordAt row 0
          let old := s.nv.resident id
          let seq := match old with | some r => natAt r 8 4 + 1 | none => 1
          if old.isNone ∧ 4096 ≤ s.nv.residents then (s, mbNv, 4)
          else
            let d := s.drawBytes 12
            let y := (d.1.count Reg.KEY_OPS).enrollNow 0x20 id (sealRecord k.key d.2 row 1 s.siteGroup seq)
            let r := appendStatus y.2 (seq % 65536)
            if r.1 = mbOk then (y.1.jobStart c (rowWrites a x.2 (row.take 8 ++ toBytes 1 (natAt row 8 1 ||| 2) ++ row.drop 9)) false 1 r.1 r.2, r) else (y.1, r)

/-- Open a record into a row. -/
def State.openInto (s : State) (c : MailCmd) (remote : Option FarRead) (a : Addr) (key r : List Byte) (resident : Bool) : State × Nat × Nat :=
  if !s.rowAddr a then (s, mbBadArg, 0)
  else
    let s := s.count Reg.KEY_OPS
    match openRecord key r with
    | none => (s, mbTagFail, 0)
    | some body =>
      let x := s.readRow a remote
      (x.1.jobStart c (rowWrites a x.2 (openedRow (rowBytes x.2) r body resident)) false 1 mbOk 0, mbOk, 0)

/-- UNSEAL. -/
def State.cmdUnseal (remote : Option FarRead) (s : State) (c : MailCmd) : State × Nat × Nat :=
  match (if s.deriveEn then s.keys.enroll else none) with
  | none => (s, mbLocked, 0)
  | some k =>
    match s.nv.resident (wordAt c.page 0) with
    | none => (s, mbNotFound, 0)
    | some r => s.openInto c remote (BitVec.ofNat 40 (natAt c.page 8 5)) k.key r true

/-- DELETE_RESIDENT. -/
def State.cmdDelete (s : State) (c : MailCmd) : State × Nat × Nat :=
  let id := wordAt c.page 0
  if s.enrollProtected then (s, mbNv, 1)
  else if (s.nv.resident id).isNone then (s, mbNotFound, 0)
  else
    let y := s.enrollNow 0x21 id []
    (y.1, appendStatus y.2 0)

/-- The key of an exported record's FORMAT (Table 18.5), for export or, of a record of a site group, for restore. -/
def State.exportKey (s : State) (format : Nat) : Option (List Byte) :=
  if !s.deriveEn then none else if format = 2 then s.keys.site.map siteKey else s.keys.enroll.map deviceKey

/-- EXPORT. -/
def State.cmdExport (remote : Option FarRead) (s : State) (c : MailCmd) : State × Nat × Nat :=
  let a : Addr := BitVec.ofNat 40 (natAt c.page 0 5)
  let f := natAt c.page 8 2
  if (f ≠ 2 ∧ f ≠ 3) ∨ !s.rowAddr a then (s, mbBadArg, 0)
  else
    match (if s.entropyOk then s.exportKey f else none) with
    | none => (s, mbLocked, 0)
    | some k =>
      let x := s.readRow a remote
      match joinLines x.2 with
      | none => (x.1, mbBadArg, 0)
      | some row =>
        if !sealable row then (x.1, mbBadArg, 0)
        else
          let d := x.1.drawBytes 12
          let seq := match s.nv.resident (wordAt row 0) with | some r => natAt r 8 4 | none => 0
          let r := sealRecord k d.2 row f s.siteGroup seq
          ((List.range 256).foldl (fun s j => s.wr (Reg.RESULT (c.arg % 8) j) (wordAt r (4 * j))) (d.1.count Reg.KEY_OPS), mbOk, 0)

/-- RESTORE. -/
def State.cmdRestore (remote : Option FarRead) (s : State) (c : MailCmd) : State × Nat × Nat :=
  let r := (c.page.drop 16).take 1024
  let f := natAt r 6 2
  if s.enrollProtected then (s, mbNv, 1)
  else if f ≠ 2 ∧ f ≠ 3 then (s, mbBadArg, 0)
  else
    match s.exportKey f with
    | none => (s, mbLocked, 0)
    | some k =>
      if f = 2 ∧ natAt r 4 2 ≠ s.siteGroup then (s, mbBadArg, 0)
      else s.openInto c remote (BitVec.ofNat 40 (natAt c.page 0 5)) k r (s.nv.resident (wordAt r 0)).isSome

/-! ### Restarts (R506, R668, R669, R671) -/

/-- What a restart does to the die: the page in progress is left torn, and appends resume at the next page boundary. -/
def State.restartNv (s : State) : State :=
  match s.nvCurrent with
  | none => s
  | some o => (s.nvTear (s.nv.opSteps o)).onNv (fun v => [Region.enroll, Region.log, Region.journal].foldl (fun v r => (v.resume r).1) v)

/-- Commands that run are answered RESTARTED, and what their writes answer is of no account any more. -/
def State.restartCmds (s : State) : State :=
  let cs := (s.mgmt.job.map (·.cmd)).toList ++ (s.mgmt.run.map (·.1)).toList
  let s := ((s.dropAnswers putJob).onMgmt (fun m => { m with run := none, job := none })).showRunning
  cs.foldl (fun s c => s.reply c mbRestarted 0) s

/-- The core is reset, for cause 1 the watchdog or 2 the host. -/
def State.mgmtRestart (s : State) (cause : Nat) : State :=
  let s := s.restartNv
  let s := s.restartCmds.setFld Reg.MB_STATUS 1 0 0
  let s := s.setFld Reg.HB_STATUS 15 8 (min 255 (s.fld Reg.HB_STATUS 15 8 + 1))
  let s := ((s.count Reg.WDOG_RESTARTS).raiseInt 13).noteClap 6
  let s := s.logEvent 1 1 (wd cause)
  (s.wr Reg.RESTART_CAUSE (wd cause)).wr Reg.RESTART_TIME s.now32

/-- MGMT_CORE_START: the zeroing of a load that the restart ended is completed, a slot is selected, and the core takes commands. -/
def State.coreStart (s : State) : State := if s.boot.low || s.boot.safe || s.fld Reg.MB_STATUS 1 0 != 0 then s else s.loadFail.bootSelect

/-- WATCHDOG_EXPIRE. -/
def State.watchdog (s : State) : State := if s.fld Reg.MB_STATUS 1 0 = 0 then s else s.mgmtRestart 1

/-- HB_CONTROL.MGMT_RESTART: recorded (Table 14.23). -/
def State.hostRestart (s : State) : State := if s.boot.low || s.boot.safe then s else s.audited 0x0C 0 (·.mgmtRestart 2)

/-! ### Commands -/

/-- PING. -/
def execMailboxPing (load : Fin 101) (s : State) : Host.Outcome State Fault Refusal := .next (s.serveCmd load 0x01 State.cmdPing)
/-- CLAP_REQ. -/
def execMailboxClapReq (load : Fin 101) (s : State) : Host.Outcome State Fault Refusal := .next (s.serveCmd load 0x02 State.cmdClap)
/-- LOG_FLUSH. -/
def execMailboxLogFlush (load : Fin 101) (s : State) : Host.Outcome State Fault Refusal := .next (s.serveCmd load 0x03 State.cmdFlush)
/-- COMPACT. -/
def execMailboxCompact (load : Fin 101) (s : State) : Host.Outcome State Fault Refusal := .next (s.serveCmd load 0x04 State.cmdCompact)
/-- LOAD_BEGIN. -/
def execLoadBegin (load : Fin 101) (s : State) : Host.Outcome State Fault Refusal := .next (s.serveCmd load 0x10 State.cmdLoadBegin)
/-- LOAD_CHUNK: one step; the bytes of a staging area on another chip come with it. -/
def execLoadChunk (load : Fin 101) (remote : Option FarRead) (s : State) : Host.Outcome State Fault Refusal := .next (s.chunkCmd load remote)
/-- LOAD_END, once the section writes to other chips are answered. -/
def execLoadEnd (load : Fin 101) (s : State) : Host.Outcome State Fault Refusal :=
  .next (if s.corePending then s.setLoad load else s.serveCmd load 0x12 State.cmdLoadEnd)
/-- LOAD_ABORT. -/
def execLoadAbort (load : Fin 101) (s : State) : Host.Outcome State Fault Refusal := .next (s.serveCmd load 0x13 State.cmdLoadAbort)
/-- SEAL; a row on another chip comes with it, here and below. -/
def execSeal (load : Fin 101) (remote : Option FarRead) (s : State) : Host.Outcome State Fault Refusal := .next (s.serveCmd load 0x20 (State.cmdSeal remote))
/-- UNSEAL. -/
def execUnseal (load : Fin 101) (remote : Option FarRead) (s : State) : Host.Outcome State Fault Refusal := .next (s.serveCmd load 0x21 (State.cmdUnseal remote))
/-- DELETE_RESIDENT. -/
def execDeleteResident (load : Fin 101) (s : State) : Host.Outcome State Fault Refusal := .next (s.serveCmd load 0x22 State.cmdDelete)
/-- EXPORT. -/
def execExportRecord (load : Fin 101) (remote : Option FarRead) (s : State) : Host.Outcome State Fault Refusal := .next (s.serveCmd load 0x23 (State.cmdExport remote))
/-- RESTORE. -/
def execRestore (load : Fin 101) (remote : Option FarRead) (s : State) : Host.Outcome State Fault Refusal := .next (s.serveCmd load 0x24 (State.cmdRestore remote))
/-- VF_DELETE. -/
def execVfDelete (load : Fin 101) (s : State) : Host.Outcome State Fault Refusal := .next (s.serveCmd load 0x30 State.cmdVfDelete)
/-- BOOT_CHECK. -/
def execBootCheck (load : Fin 101) (s : State) : Host.Outcome State Fault Refusal := .next (s.serveCmd load 0x31 State.cmdBootCheck)
/-- WATCHDOG_EXPIRE. -/
def execWatchdogExpire (s : State) : Host.Outcome State Fault Refusal := .next s.watchdog
/-- MGMT_CORE_START. -/
def execMgmtCoreStart (s : State) : Host.Outcome State Fault Refusal := .next s.coreStart
/-- DEFER_CLEAR, with the occupancy of the core as it now stands. -/
def execDeferClear (load : Fin 101) (s : State) : Host.Outcome State Fault Refusal := .next (s.setLoad load).deferClear
/-- HB_CONTROL.MGMT_RESTART. -/
def execHbControlMgmtRestart (s : State) : Host.Outcome State Fault Refusal := .next s.hostRestart
/-- MGMT_REPLY read. -/
def execMgmtReplyRead (s : State) : Host.Outcome State Fault Refusal := .next (s.busRead (fun s => s.replyRead))

end Sys2Proof.Machine
end

