-- ==== Sys2Proof/Machine/TileRows.lean ====
section
/-! DEFINITION. Commands of one tile: its clock and oscillators (R98 to R103), its timer (R157), its event state, rings, sync objects and
probes (R134, R135, R144 to R146, R207 to R209). -/

namespace Sys2Proof.Machine

/-- The completion code that an access of tile control space meets before the tile: of a role without a tile (R592), or of a tile that is gated,
closed or still in reset (R644). -/
def State.tileCode (s : State) (l : Nat) : Nat := if s.mapState l = 3 then cRetired else if s.tileUp l then cOK else cBusy

/-- A write of tile control space as a command: its completion code goes to lastStatus. -/
def State.ctlCommand (s : State) (l o : Nat) (v : Word) : State :=
  let x := if s.tileUp l then (s.wakeL l).ctlWrite l o v else (s, s.tileCode l)
  { x.1 with lastStatus := BitVec.ofNat 8 x.2 }

/-- A read of tile control space as a command: the value goes to readData. -/
def State.ctlReadCommand (s : State) (l o : Nat) : State :=
  let x := if s.tileUp l then (s.wakeL l).ctlRead l o else (s, 0)
  { x.1 with readData := x.2, lastStatus := BitVec.ofNat 8 (s.tileCode l) }

/-! ### Clock and oscillators -/

/-- Whether a physical tile has no work (R98): no thread issues, no engine or state mover works, no push is held, and the interface holds no flit,
among which count those that have reached the tile of its role and are not yet applied. -/
def State.tileQuiet (s : State) (p : Nat) : Bool :=
  let t := s.tile p
  (match s.logicalOf p with
   | some l => s.fab.inflight.all (fun r => !(Addr.chip r.addr == s.chipId.toNat && Addr.space r.addr != 3 && Addr.tile r.addr == l))
   | none => true) &&
  (List.range 4).all (fun i => t.tstate i != tRunning && t.tstate i != tStalled) && t.spikes == [] && t.cursors == [] && t.jobs == [] &&
  !t.evClear && t.posts == [] && t.held == [] && t.router == [] && t.chainWait == [] && s.fab.relocs.all (fun c => c.src != p && c.dst != p)

/-- TILE_CLOCK_STOP: after IDLE_HOLD idle cycles in succession the clock of a quiet tile stops. -/
def State.clockStop (s : State) (p idle : Nat) : State :=
  let t := s.tile p
  if t.bit Reg.CLK_STATUS 10 && s.tileQuiet p && decide (t.fld Reg.TILE_CONFIG 23 16 ≤ idle) then
    s.onTile p (fun t => (t.setBit Reg.CLK_STATUS 10 false).countBy Reg.CLK_STOPS 1)
  else s

/-- OSC_CHECK: the running oscillator is compared with the chip time base; one that deviates by more than 10 % gives way to the spare,
and a failed spare is the tile's failure (R102, R103). -/
def State.oscCheck (s : State) (p mhz : Nat) : State :=
  let t := s.tile p
  let f := s.oscMhz p
  let off := max f mhz - min f mhz
  if t.bit Reg.CLK_STATUS 10 && decide (f < 10 * off) then
    if t.bit Reg.CLK_STATUS 11 then s.onTile p (fun t => { t with spareBad := true })
    else (s.onTile p (fun t => (t.setBit Reg.CLK_STATUS 11 true).setBit Reg.CLK_STATUS 12 true)).setBit (Reg.PHYS_STATUS p) 3 true
  else s

/-! ### Timer -/

/-- The next TIMER_CMP of a periodic timer: moved by whole periods behind the present time. -/
def nextCmp (cmp period now : Word) : Word := cmp + wd (period.toNat * ((now - cmp).toNat / period.toNat + 1))

/-- TIMER_MATCH: an enabled timer whose TIMER_CMP is reached adds 1 to its sync object, and rearms or disables itself (R157). A dispatch that follows
carries the number of the sync object: nothing of the spec makes a timer dispatch by itself, so source code 0x40 of Table 3.3 is never given to s15
(DESIGN CHOICE, log entry 74). -/
def State.timerMatch (s : State) (l : Nat) : State :=
  let t := s.ltile l
  if s.tileRuns l && t.bit Reg.TIMER_CTRL 0 && reached s.now32 (t.rd Reg.TIMER_CMP) then
    let per := t.rd Reg.TIMER_PERIOD
    let s := s.onL l (fun t =>
      let t := t.wake
      if t.bit Reg.TIMER_CTRL 6 && per != 0 then t.wr Reg.TIMER_CMP (nextCmp (t.rd Reg.TIMER_CMP) per s.now32)
      else t.setBit Reg.TIMER_CTRL 0 false)
    s.syncAdd l (t.fld Reg.TIMER_CTRL 5 1) 1
  else s

/-! ### Commands -/

/-- TILE_CLOCK_STOP. -/
def execTileClockStop (p : Fin 272) (idle : Nat) (s : State) : Host.Outcome State Fault Refusal := .next (s.clockStop p idle)
/-- OSC_CHECK, with the frequency measured. -/
def execOscCheck (p : Fin 272) (mhz : Nat) (s : State) : Host.Outcome State Fault Refusal := .next (s.oscCheck p mhz)
/-- TIMER_MATCH. -/
def execTimerMatch (l : Fin 256) (s : State) : Host.Outcome State Fault Refusal := .next (s.timerMatch l)
/-- EV_CFG_WRITE. -/
def execEvCfgWrite (l : Fin 256) (v : Word) (s : State) : Host.Outcome State Fault Refusal := .next (s.ctlCommand l Reg.EV_CFG v)
/-- EV_CLEAR_DONE. -/
def execEvClearDone (l : Fin 256) (s : State) : Host.Outcome State Fault Refusal := .next (s.evClearDone l)
/-- RING_CFG_WRITE. -/
def execRingCfgWrite (l : Fin 256) (n : Fin 8) (v : Word) (s : State) : Host.Outcome State Fault Refusal := .next (s.ctlCommand l (Reg.RING_CFG n) v)
/-- SYNC_CFG_WRITE. -/
def execSyncCfgWrite (l : Fin 256) (n : Fin 32) (v : Word) (s : State) : Host.Outcome State Fault Refusal := .next (s.ctlCommand l (Reg.SYNC_CFG n) v)
/-- SYNC_THRESHOLD_WRITE. -/
def execSyncThresholdWrite (l : Fin 256) (n : Fin 32) (v : Word) (s : State) : Host.Outcome State Fault Refusal :=
  .next (s.ctlCommand l (Reg.SYNC_THRESHOLD n) v)
/-- TIMER_WRITE: to TIMER_CTRL, or to TIMER_CMP. -/
def execTimerWrite (l : Fin 256) (ctrl : Bool) (v : Word) (s : State) : Host.Outcome State Fault Refusal :=
  .next (s.ctlCommand l (if ctrl then Reg.TIMER_CTRL else Reg.TIMER_CMP) v)
/-- MA_CFG_WRITE. -/
def execMaCfgWrite (l : Fin 256) (n : Fin 16) (v : Word) (s : State) : Host.Outcome State Fault Refusal := .next (s.ctlCommand l (Reg.MA_CFG n) v)
/-- MA_MAX_READ. -/
def execMaMaxRead (l : Fin 256) (n : Fin 16) (s : State) : Host.Outcome State Fault Refusal := .next (s.ctlReadCommand l (Reg.MA_MAX n))
/-- HELD_PUSH_APPLY, for the request VC of a priority. -/
def execHeldPushApply (l : Fin 256) (vc : Fin 3) (s : State) : Host.Outcome State Fault Refusal := .next (s.retryHeld l (BitVec.ofNat 2 vc))

end Sys2Proof.Machine
end

