-- ==== Sys2Proof/Machine/RegBus.lean ====
section
/-! DEFINITION. Registers by access type (R8 to R11): the host bus with its slots (R492, R493, R500, R503 to R506, R518, R521, R598), and
registers of tiles and chip blocks that have no row of their own. -/

namespace Sys2Proof.Machine

/-! ### Views of host-bus registers -/

/-- Whether some STAT.BROKEN is set: BROKEN_MAP holds them (Table 8.9). -/
def State.anyBroken (s : State) : Bool := (List.range 64).any (fun i => s.rd (Reg.BROKEN_MAP i) != 0)

/-- HB_STATUS as it reads (Table 14.8). -/
def State.hbStatus (s : State) : Word :=
  let stale := s.rd Reg.STALE_HEAD != s.rd Reg.STALE_TAIL
  let wear := s.bit Reg.NV_STATUS 7 || s.bit Reg.NV_STATUS 28
  let w := wSetBit (s.rd Reg.HB_STATUS) 16 s.alarmPin
  let w := wSetBit (wSetBit (wSetBit w 17 s.locked) 18 stale) 19 wear
  wSetFld (wSetBit w 20 s.anyBroken) 31 28 s.chipId.toNat

/-- NV_STATUS as it reads (Table 13.6). -/
def State.nvStatus (s : State) : Word :=
  let busy := s.keysGoing || (match s.nvCurrent with | some o => !o.work.quick | none => false)
  let due := [Region.enroll, Region.log, Region.journal].any s.nv.compactDue
  wSetBit (wSetBit (wSetBit (s.rd Reg.NV_STATUS) 0 busy) 8 s.nv.hostTx.isSome) 9 due

/-- CONTRACT_STATUS as it reads (Table 8.7). -/
def State.contractStatus (s : State) : Word := wSetBit (s.rd Reg.CONTRACT_STATUS) 1 s.anyBroken

/-- A slot without a side effect of its read. -/
def State.hostView (s : State) (o : Nat) : Word :=
  if o = Reg.HB_BUILD then s.hbBuild
  else if o = Reg.HB_STATUS then s.hbStatus
  else if o = Reg.INT_STATUS then s.intStatus
  else if o = Reg.WIN_STATUS then s.winStatus
  else if o = Reg.NV_STATUS then s.nvStatus
  else if o = Reg.CONTRACT_STATUS then s.contractStatus
  else if (chipRow o).isSome then s.rd o else 0

/-- The chip block that holds a slot's register, of those that can fail while the device starts (Table 17.6): the contract unit, the store
and the key engine. -/
def slotBlock (o : Nat) : Option Nat :=
  if Reg.RES_HEAD ≤ o ∧ o ≤ Reg.CONTRACT_STATUS then some 4
  else if Reg.NV_CMD ≤ o ∧ o ≤ Reg.NV_PROTECT then some 9
  else if o = Reg.LC_STATE ∨ o = Reg.LC_UNLOCK then some 10
  else none

/-- Whether the block of a slot failed. -/
def State.slotDead (s : State) (o : Nat) : Bool :=
  match slotBlock o with | some b => s.bit Reg.BIST_BLOCKS b || (s.keys.halted && b != 10) | none => false

/-! ### Reads of a slot -/

/-- A read of a slot while no unit but the host bus runs (R598). -/
def State.safeRead (s : State) (o : Nat) : Word :=
  if o = Reg.HB_ID then s.rd o else if o = Reg.HB_STATUS then s.hbStatus &&& 0xFFFF00F0#32 else 0

/-- A read of the slot at offset o: under PORESET# the device drives nothing. -/
def State.hostRead (s : State) (o : Nat) : State :=
  if s.boot.low || s.boot.hostBad || decide (0x100 ≤ o) || o % 4 != 0 then s
  else if s.boot.safe then { s with readData := s.safeRead o }
  else if s.slotDead o then { s with readData := 0 }
  else if o = Reg.WIN_DATA then s.winRead
  else if o = Reg.NV_DATA then s.nvData none
  else if o = Reg.TIME_LO then s.timeRead
  else if o = Reg.MGMT_REPLY then s.replyRead
  else { s with readData := s.hostView o }

/-! ### Writes of a slot -/

/-- Slots that need every byte enable: WIN_DATA, NV_DATA, and those that hold a WO or W1C field (R493). -/
def wholeSlot (o : Nat) : Bool :=
  [Reg.HB_CONTROL, Reg.INT_CLEAR, Reg.WIN_DATA, Reg.WIN_STATUS, Reg.OP_CMD, Reg.CLAP_CTRL, Reg.CONTRACT_CMD, Reg.NV_CMD, Reg.NV_DATA,
   Reg.LC_UNLOCK, Reg.ALARM_STATUS, Reg.PWR_STATUS, Reg.MGMT_MAILBOX, Reg.MGMT_LOAD, Reg.WAKE_CTRL].contains o

/-- Slots whose writes are applied before READY (R503). -/
def earlySlot (o : Nat) : Bool :=
  [Reg.HB_CONTROL, Reg.INT_ENABLE, Reg.INT_CLEAR, Reg.NV_CMD, Reg.NV_ADDR, Reg.NV_DATA, Reg.NV_PROTECT].contains o

/-- The bytes of v that are enabled, over those of a word. -/
def mergeBytes (be : BitVec 4) (old v : Word) : Word :=
  let m : Word := wd ((List.range 4).foldl (fun a i => if be.getLsbD i then a + 0xFF * 2 ^ (8 * i) else a) 0)
  (old &&& ~~~m) ||| (v &&& m)

/-- HB_CONTROL written: its RW fields, and MGMT_RESTART, which is recorded (R506, Table 14.23). -/
def State.hbControlWrite (s : State) (v : Word) : State :=
  let f (s : State) : State := s.wr Reg.HB_CONTROL (v &&& 0xFF01#32)
  if wbit v 16 then s.audited Reg.HB_CONTROL 0 (fun s => (f s).mgmtRestart 2) else f s

/-- ALARM_STATUS written: a 1 written to a source bit is recorded (Table 14.23). -/
def State.alarmStatusWrite (s : State) (v : Word) : State :=
  let f (s : State) : State := s.upd Reg.ALARM_STATUS (fun w => w &&& ~~~ (v &&& 0x7F#32))
  if wfld v 6 0 = 0 then s else s.audited Reg.ALARM_STATUS 0 f

/-- WAKE_CTRL written: a change of ENABLE, LATCH, LISTEN_PIN or LISTEN_EN is recorded (Table 14.23). -/
def State.wakeCtrlBus (s : State) (v : Word) : State :=
  if (s.rd Reg.WAKE_CTRL ^^^ v) &&& 0x1F000FF#32 = 0 then s.wakeCtrlWrite v else s.audited Reg.WAKE_CTRL 0 (fun s => s.wakeCtrlWrite v)

/-- CLAP_CTRL written: a change of CAUSE_EN is recorded (Table 14.23). -/
def State.clapCtrlBus (s : State) (v : Word) : State :=
  if wfld v 30 24 = s.fld Reg.CLAP_CTRL 30 24 then s.clapCtrlWrite v else s.audited Reg.CLAP_CTRL 0 (fun s => s.clapCtrlWrite v)

/-- What the units of other chips answer where a command comes as a plain write: what they last answered, and no refusal. -/
def State.lastView (s : State) : PeerView := { s.cu.view with refuse := none }

/-- CONTRACT_CMD written: other codes are ignored (Table 8.5). -/
def State.contractCmdWrite (s : State) (v : Word) : State :=
  let e : BitVec 15 := BitVec.ofNat 15 (wfld v 30 16)
  match wfld v 3 0 with
  | 1 => s.contractCmd false e State.register
  | 2 => s.contractCmd true e (fun s e => s.activate s.lastView e)
  | 3 => s.contractCmd false e State.deactivate
  | 4 => s.contractCmd false e State.unregister
  | 5 => s.contractCmd false e (fun s e => s.check s.lastView e)
  | 6 => s.contractCmd false e State.breakCmd
  | _ => s

/-- NV_CMD written: 0x0 and 0xC to 0xF are ignored (Table 13.5). -/
def State.nvCmdWrite (s : State) (v : Word) : State :=
  let len := wfld v 16 8
  match wfld v 3 0 with
  | 1 => s.nvCmdRead len
  | 2 => s.nvCmdProgram len
  | 3 => s.nvCmdErase len
  | 4 => s.nvCmdPut len
  | 5 => s.nvCmdGet
  | 6 => s.nvCmdDelete
  | 7 => s.nvCmd (·.nvStart .txBegin)
  | 8 => s.nvCmd (·.nvJournal true .txCommit)
  | 9 => s.nvCmd (·.nvStart .txAbort)
  | 10 => s.nvCmdTallyInc
  | 11 => s.nvCmdTallyRead
  | _ => s

/-- A word that is applied to the slot at offset o; what disabled bytes hold stays, and asks for nothing. -/
def State.slotWrite (s : State) (o : Nat) (be : BitVec 4) (v : Word) : State :=
  let plain (s : State) : State := match chipRow o with
    | some row => if row.ro then s else s.wr o (plainWrite row (s.rd o) v)
    | none => s
  if o = Reg.HB_CONTROL then s.hbControlWrite v
  else if o = Reg.INT_CLEAR then s.intClear v
  else if o = Reg.WIN_ADDR_LO ∨ o = Reg.WIN_ADDR_HI ∨ o = Reg.WIN_CTRL then plain s.endRetry
  else if o = Reg.WIN_DATA then s.winWrite v
  else if o = Reg.OP_CMD then s.opCmd v
  else if o = Reg.CLAP_CTRL then s.clapCtrlBus v
  else if o = Reg.RES_TAIL then s.resTailWrite v
  else if o = Reg.CONTRACT_CMD then s.contractCmdWrite v
  else if o = Reg.NV_CMD then s.nvCmdWrite v
  else if o = Reg.NV_DATA then s.nvData (some v)
  else if o = Reg.NV_PROTECT then s.nvProtectWrite v
  else if o = Reg.LC_UNLOCK then s.lcUnlock v
  else if o = Reg.ALARM_STATUS then s.alarmStatusWrite v
  else if o = Reg.ALARM_POLICY then (s.alarmPolicy be v).policyRaised
  else if o = Reg.PWR_CTRL then (if be.getLsbD 0 then s.pwrCtrlWrite (wfld v 1 0) (wbit v 4) else s)
  else if o = Reg.POWER_CAP then s.powerCap v
  else if o = Reg.MGMT_MAILBOX then s.mailboxWrite v
  else if o = Reg.WAKE_CTRL then s.wakeCtrlBus v
  else plain s

/-- A bus write of the slot at offset o with byte enables: ignored under PORESET# and in the safe state; ignored with BUS_ERR where bytes of a
whole slot are missing (R493) or, before READY, where the slot is not open yet (R503); ignored in an unused or read-only slot, and where no byte
is enabled. -/
def State.hostWrite (s : State) (o : Nat) (be : BitVec 4) (v : Word) : State :=
  if s.boot.low || s.boot.safe || s.slotDead o || decide (0x100 ≤ o) then s
  else if be ≠ 15 ∧ wholeSlot o = true then s.raiseInt 5
  else if !s.ready ∧ o = Reg.PWR_CTRL ∧ be.getLsbD 0 then (s.pwrCtrlWrite (wfld v 1 0) (wbit v 4)).raiseInt 5
  else if !s.ready && !(earlySlot o || o == Reg.WIN_DATA || o == Reg.OP_CMD) then s.raiseInt 5
  else match chipRow o with
    | none => s
    | some row => if row.ro || be == 0 then s else s.slotWrite o be (mergeBytes be (s.rd o) v)

/-! ### Registers of tiles and blocks -/

/-- The request by which a party other than a command of the table reaches a register. -/
def State.regReq (s : State) (o : Origin) (b off : Nat) (put : Bool) (v : Word) : ReqFlit :=
  let unit : BitVec 4 := match o with | .host => 8 | .tile => 0 | .mgmt => 12 | .peal => 15
  let op : BitVec 5 := if put then 2 else 1
  { op := op, ack := true, anyEpoch := true, notice := false, prio := 1, epoch := 0, addr := mkAddr s.chipId.toNat 3 b off, size := 2, type := 0
    tag := 0, srcChip := s.chipId, srcTile := 0xFF, srcUnit := unit, arg0 := v, payload := toBytes 4 v.toNat, owner := 0 }

/-- A write of a register of a tile or block: none while units are held in reset. -/
def State.unitWrite (s : State) (o : Origin) (b off : Nat) (v : Word) : State :=
  if !s.ready then { s with lastStatus := 0x0B }
  else
    let x := s.blockApply (s.regReq o b off true v)
    { x.1 with lastStatus := BitVec.ofNat 8 x.2.status }

/-- A read of a register of a block. -/
def State.unitRead (s : State) (b off : Nat) : State :=
  if !s.ready then { s with readData := 0, lastStatus := 0x0B }
  else
    let x := s.blockApply (s.regReq .host b off false 0)
    { x.1 with readData := x.2.data0, lastStatus := BitVec.ofNat 8 x.2.status }

/-! ### Commands -/

/-- A read of a register: the value goes to readData, and its RC fields clear (R10). -/
def State.regRead (s : State) (g : RegRef) : State :=
  match g.unit with
  | .hostBus => s.hostRead g.off
  | .tile l => s.ctlReadCommand l g.off
  | .block b => s.unitRead b g.off

/-- A write of a register by its access type (R8, R9, R11): the host bus has one writer, the host. -/
def State.regWrite (s : State) (o : Origin) (g : RegRef) (be : BitVec 4) (v : Word) : State :=
  match g.unit with
  | .hostBus => if o = .host then s.hostWrite g.off be v else s
  | .tile l => s.ctlCommand l g.off v
  | .block b => s.unitWrite o b g.off v

/-- RC_COUNTER_READ. -/
def execRcCounterRead (g : RegRef) (s : State) : Host.Outcome State Fault Refusal := .next (s.regRead g)
/-- REGISTER_WRITE; byte enables matter on the host bus. -/
def execRegisterWrite (o : Origin) (g : RegRef) (be : BitVec 4) (v : Word) (s : State) : Host.Outcome State Fault Refusal := .next (s.regWrite o g be v)
/-- WAKE_CTRL written (R332). -/
def execWakeCtrlWrite (v : Word) (s : State) : Host.Outcome State Fault Refusal := .next (s.busWrite (·.wakeCtrlBus v))

end Sys2Proof.Machine
end

