-- ==== Sys2Proof/Machine/PowerUp.lean ====
section
/-! DEFINITION. PORESET#, power-up self-test and its end (R34, R434, R451, R490, R594 to R599, R607, R618, R621, R631, R652, R671, R679). -/

namespace Sys2Proof.Machine

/-! ### PORESET# falls (R679) -/

/-- PORESET_ASSERT: the die loses the operation in progress; everything but the die, the fuses and the test access port is reset. Commands that
wait stay in the queue. -/
def State.poreset (s : State) : State :=
  let s := s.nvCut
  { State.reset with
    pending := s.pending, free := s.free
    nv := { s.nv with hostTx := none, queue := [], buf := List.replicate 256 0, bufPos := 0, audit := [], logq := [], started := none }
    keys := { Keys.reset with fuses := s.keys.fuses, duk := s.keys.duk, unlock := s.keys.unlock }
    boot := { Boot.reset with tap := s.boot.tap } }

/-- BIST_FAIL is high in the safe state only (R598). -/
def State.bistFailPin (s : State) : Bool := s.boot.safe

/-! ### Phase 1: straps and fuses -/

/-- The TAP at a rise of PORESET#: an instruction that controls the pins gives way to Test-Logic-Reset (R687). -/
def Tap.rise (t : Tap) : Tap := if t.ir = 0 ∨ t.ir = 3 ∨ t.ir = 4 then { t with ir := 1, out := [] } else t

/-- Straps are sampled, device time starts at 0, and the fuses are loaded (R491, R553, R621, R652). -/
def State.fuseLoad (s : State) (v : PowerUpIn) : State :=
  let s : State := { s with time := 0, chipId := v.chipId, boot := { s.boot with low := false, tap := s.boot.tap.rise } }
  let s := (s.setBit Reg.HB_STATUS 24 v.syncBus).onKeys (fun k => { k with lcFail := v.lifeRow })
  let s := s.setFld Reg.LC_STATE 2 0 (lcDecode s.keys.fuses v.lifeRow)
  s.wr Reg.MON_STATUS (wSetBit (v.mon &&& 0xFFFF007F#32) 7 (!v.lifeRow && !v.fuseRow))

/-! ### Values of the journal -/

/-- The payload of a key's last committed record among those that a scan found. -/
def valueIn (rs : List Rec) (key : Word) : Option (List Byte) :=
  match lastOf rs key with
  | some x => if x.type = 2 then none else some x.payload
  | none => none

/-- The SEQ of the last committed AUDIT record. -/
def auditHead (rs : List Rec) : Word :=
  (rs.filter (fun x => x.type == 0x10 && committed rs x)).foldl (fun a x => if seqLater x.seq a then x.seq else a) 0

/-- A tile's repairs, its retirement and its sparing as the journal holds them (R451, R594). -/
def State.applyRepairs (s : State) (rs : List Rec) (p : Nat) : State :=
  let s := match valueIn rs (wd (0x8E000000 + p)) with
    | none => s
    | some bs =>
      let rows := ((List.range 16).map (fun i => natAt bs (4 + 2 * i) 2)).filter (· != 0xFFFF)
      let s := s.onPeal (fun c => { c with rows := spSet (fun _ => []) c.rows p rows })
      let s := s.setFld (Reg.PHYS_STATUS p) 12 8 rows.length
      if natAt bs 2 1 % 2 = 1 then (s.setPhys p phRetired).setFld (Reg.PHYS_STATUS p) 7 4 (natAt bs 3 1) else s
  match valueIn rs (wd (0x8C010000 + p)) with
  | none => s
  | some bs => (s.onCol p (fun c => { c with status := wSetFld (wSetBit c.status 3 true) 7 4 (natAt bs 2 1) })).setBit (Reg.PHYS_STATUS p) 13 true

/-- CAL[p] and the droop caps: from the V/f record when there is one, else from the fuses (R631). -/
def State.applyVf (s : State) (rs : List Rec) (p : Nat) : State :=
  let bs := valueIn rs (wd (0x8C000000 + p))
  let cal (v : Nat) : Nat := match bs with | some b => natAt b (2 * v) 2 | none => (Config.productionCal p v).toNat
  let s := (s.wr (Reg.CAL p 0) (wd (cal 0 + 2 ^ 16 * cal 1))).wr (Reg.CAL p 1) (wd (cal 2 + 2 ^ 16 * cal 3))
  match bs with
  | none => s
  | some b => (List.range 4).foldl (fun s v =>
      let c := natAt b (8 + 2 * v) 2
      s.onPwr (fun w => { w with droopCap := spSet (fun _ => 0) w.droopCap (4 * p + v) (if c = 1150 then 0 else c) })) s

/-- What the device keeps in JOURNAL takes effect: the alarm policy, UNLOCK_FAILS, AUDIT_HEAD, repairs, sparings and V/f values. -/
def State.journalLoad (s : State) : State :=
  let rs := s.nv.records .journal
  let num (key : Word) : Nat := match valueIn rs key with | some bs => natAt bs 0 4 | none => 0
  let next := num policyKey % 2 ^ 14
  let s := s.wr Reg.ALARM_POLICY (wd (next + 2 ^ 16 * next))
  let s := (s.setFld Reg.LC_STATE 11 8 (num failsKey)).wr Reg.AUDIT_HEAD (auditHead rs)
  (List.range 272).foldl (fun s p => (s.applyRepairs rs p).applyVf rs p) s

/-! ### Phases 2 and 4: failures (R595, R597) -/

/-- A tile whose LBIST slice fails is retired, unless the journal has retired it. -/
def State.bootSlice (s : State) (p slice : Nat) : State :=
  if s.phys p = phRetired then s else (s.count Reg.LBIST_FAILS).retireTile p 1 5 slice 0xFFFF 0

/-- A tile whose primary oscillator fails runs on the spare; one whose spare fails too is retired (R103, R595). -/
def State.bootOsc (s : State) (p : Nat) (both : Bool) : State :=
  if s.phys p = phRetired then s
  else if both then (s.onTile p (fun t => { (t.setBit Reg.CLK_STATUS 11 true).setBit Reg.CLK_STATUS 12 true with spareBad := true })).retireTile p 3 6 0 0xFFFF 0
  else (s.onTile p (fun t => (t.setBit Reg.CLK_STATUS 11 true).setBit Reg.CLK_STATUS 12 true)).setBit (Reg.PHYS_STATUS p) 3 true

/-- MBIST's failing cells of the tiles that come to it, in order: those retired before run none, and every cell of any other is reported. -/
def State.bootCells (s : State) (cells : List (Fin 272 × Nat × Nat × Nat)) : State :=
  (cells.foldl (fun (a : State × List PealTest) (c : Fin 272 × Nat × Nat × Nat) =>
    let p : Nat := c.1
    if s.phys p = phRetired then a
    else
      let t := (a.2.find? (fun t => t.phys == p)).getD
        { phys := p, origin := 0, slice := 24, elem := 0, seed := none, sigs := [], step := false, unretire := false, spared := false, fixed := [] }
      let x := a.1.mbistCell t (a.1.phys p == phRetired) c.2.1 c.2.2.1 c.2.2.2
      (x.1, x.2.1 :: a.2)) (s, [])).1

/-- Blocks and ports that failed. -/
def State.bootUnits (s : State) (v : PowerUpIn) : State :=
  let s := v.blocks.foldl (fun s (b : Fin 16) => s.setBit Reg.BIST_BLOCKS b true) s
  v.ports.foldl (fun s (p : Fin 8) => s.setBit Reg.BIST_BLOCKS (16 + p) true) s

/-! ### Phase 5: the tile map (R596) -/

/-- A logical tile whose physical tile is retired takes its row's lowest free tile, or is left without one. -/
def State.mapComplete (s : State) (l : Nat) : State :=
  let s := if s.phys (s.physOf l) ≠ phRetired then s
    else match (rowTiles (s.physOf l / 17)).find? (fun p => s.phys p == phFree) with
      | some q => ((s.setFld (Reg.TILE_MAP l) 8 0 q).setMap l 0).setPhys q phInRole
      | none => s.setMap l 3
  s.admitUpdate l

/-! ### Keys (R607, R618) -/

/-- An erasure that a power loss cut off runs its steps 1 and 2 again; then the slots are unwrapped while DERIVE_EN = 1. -/
def State.keysLoad (s : State) : State :=
  let s := if (s.nv.bytes keyMarker 16).all (· == 0xFF) then s else (s.onKeys (fun k => { k with erase := some 1 })).eraseStep.eraseStep
  match (if s.deriveEn then s.keys.duk else none) with
  | none => s
  | some duk =>
    let wk := wkOf duk
    s.onKeys (fun k => { k with wk := some wk, image := s.nv.unwrap wk 0, site := s.nv.unwrap wk 1, enroll := s.nv.unwrap wk 2 })

/-- Every written and poison bit is cleared (R434). -/
def State.clearMemory (s : State) : State := { s with mem := Memory.reset, integ := { s.integ with odd := [] } }

/-! ### Power-up -/

/-- POWER_UP: PORESET# rises, and self-test runs its phases; a failure of the always-on logic, the management core or the host bus unit ends in
the safe state. -/
def State.powerUp (s : State) (v : PowerUpIn) : State :=
  if !s.boot.low then s
  else
    let s := s.fuseLoad v
    if v.control || v.hostBus then { s with boot := { s.boot with safe := true, hostBad := v.hostBus } }
    else
      let s := ((s.nvFlicker.onNv Nv.completionPass).nvWear).journalLoad
      let s := if v.lifeRow || v.fuseRow then s.tocsin 16 else s
      let s := s.bootSelect
      let s := v.slices.foldl (fun s (e : Fin 272 × Fin 24) => s.bootSlice e.1 e.2) s
      let s := (v.oscs.foldl (fun s (e : Fin 272 × Bool) => s.bootOsc e.1 e.2) s).bootUnits v
      let s := s.bootCells v.cells
      let s := if v.keyStore then s.tocsin 64 else s
      ((List.range 256).foldl (fun s l => s.mapComplete l) s).keysLoad.clearMemory

/-- HB_STATUS.BIST when READY rises (R599). -/
def State.bistResult (s : State) : Nat :=
  if (List.range 272).any (fun p => s.phys p == phRetired) || s.rd Reg.BIST_BLOCKS != 0 then 3
  else if (List.range 272).any (fun p => s.repaired p != [] || wbit (s.col p).status 3) then 2
  else 1

/-- SELF_TEST_DONE: READY rises with the result, and the peal controller schedules its steps. -/
def State.selfTestDone (s : State) : State :=
  if s.boot.low || s.boot.safe || s.ready || s.keys.halted then s
  else ((s.setBit Reg.HB_STATUS 0 true).setFld Reg.HB_STATUS 3 1 s.bistResult).pealArm

/-! ### Commands -/

/-- PORESET_ASSERT. -/
def execPoresetAssert (s : State) : Host.Outcome State Fault Refusal := .next s.poreset
/-- POWER_UP, with what self-test finds. -/
def execPowerUp (v : PowerUpIn) (s : State) : Host.Outcome State Fault Refusal := .next (s.powerUp v)
/-- SELF_TEST_DONE. -/
def execSelfTestDone (s : State) : Host.Outcome State Fault Refusal := .next s.selfTestDone

end Sys2Proof.Machine
end

