-- ==== Sys2Proof/Machine/Salu.lean ====
section
/-! DEFINITION. The SALU class (Table 3.6 class 1; R173, R697, Table 4.5). -/

namespace Sys2Proof.Machine

/-- A scalar operation of two operands: s[DST] = f (s[SRCA], s[SRCB]). -/
def salu2 (op : Nat) (f : Word → Word → Word) : UOp :=
  { cls := 1, op := op, uses := fun _ => { dst := .sc, a := .sc, b := .sc },
    eff := fun l i u s => (s.sput l i u.dst (f (s.sget l i u.srca) (s.sget l i u.srcb)), .next) }

def uSaluAdd : UOp := salu2 0 (fun a b => a + b)
def uSub : UOp := salu2 1 (fun a b => a - b)
def uAnd : UOp := salu2 2 (fun a b => a &&& b)
def uOr : UOp := salu2 3 (fun a b => a ||| b)
def uXor : UOp := salu2 4 (fun a b => a ^^^ b)
def uShl : UOp := salu2 5 (fun a b => a <<< (b.toNat % 32))
def uShr : UOp := salu2 6 (fun a b => a >>> (b.toNat % 32))
def uSra : UOp := salu2 7 (fun a b => a.sshiftRight (b.toNat % 32))
def uMul : UOp := salu2 8 (fun a b => a * b)
def uMulh : UOp := salu2 9 (fun a b => wi (a.toInt * b.toInt / 4294967296))
def uMulhu : UOp := salu2 10 (fun a b => wd (a.toNat * b.toNat / 4294967296))
def uMin : UOp := salu2 11 (fun a b => if a.slt b then a else b)
def uSaluMax : UOp := salu2 12 (fun a b => if a.slt b then b else a)
def uMinu : UOp := salu2 13 (fun a b => if a.ult b then a else b)
def uMaxu : UOp := salu2 14 (fun a b => if a.ult b then b else a)
def uSlt : UOp := salu2 15 (fun a b => if a.slt b then 1 else 0)
def uSltu : UOp := salu2 16 (fun a b => if a.ult b then 1 else 0)
def uLi : UOp :=
  { cls := 1, op := 17, uses := fun _ => { dst := .sc, a := .no, b := .no },
    eff := fun l i u s => (s.sput l i u.dst (wd (uimm u 31 0)), .next) }
def uLih : UOp :=
  { cls := 1, op := 18, uses := fun _ => { dst := .sc, a := .no, b := .no },
    eff := fun l i u s => (s.sput l i u.dst (wSetFld (s.sget l i u.dst) 31 16 (uimm u 15 0)), .next) }

/-- ADD, modulo 2^32. -/
def execSaluAdd (l : Fin 256) (i : Fin 4) (u : UInsn) (s : State) : Host.Outcome State Fault Refusal := .next (s.issueInsn l i uSaluAdd u)
/-- SUB, modulo 2^32. -/
def execSub (l : Fin 256) (i : Fin 4) (u : UInsn) (s : State) : Host.Outcome State Fault Refusal := .next (s.issueInsn l i uSub u)
/-- AND. -/
def execAnd (l : Fin 256) (i : Fin 4) (u : UInsn) (s : State) : Host.Outcome State Fault Refusal := .next (s.issueInsn l i uAnd u)
/-- OR. -/
def execOr (l : Fin 256) (i : Fin 4) (u : UInsn) (s : State) : Host.Outcome State Fault Refusal := .next (s.issueInsn l i uOr u)
/-- XOR. -/
def execXor (l : Fin 256) (i : Fin 4) (u : UInsn) (s : State) : Host.Outcome State Fault Refusal := .next (s.issueInsn l i uXor u)
/-- SHL by bits [4:0]. -/
def execShl (l : Fin 256) (i : Fin 4) (u : UInsn) (s : State) : Host.Outcome State Fault Refusal := .next (s.issueInsn l i uShl u)
/-- SHR by bits [4:0]. -/
def execShr (l : Fin 256) (i : Fin 4) (u : UInsn) (s : State) : Host.Outcome State Fault Refusal := .next (s.issueInsn l i uShr u)
/-- SRA by bits [4:0]. -/
def execSra (l : Fin 256) (i : Fin 4) (u : UInsn) (s : State) : Host.Outcome State Fault Refusal := .next (s.issueInsn l i uSra u)
/-- MUL: low 32 bits of the product. -/
def execMul (l : Fin 256) (i : Fin 4) (u : UInsn) (s : State) : Host.Outcome State Fault Refusal := .next (s.issueInsn l i uMul u)
/-- MULH: high 32 bits of the signed product. -/
def execMulh (l : Fin 256) (i : Fin 4) (u : UInsn) (s : State) : Host.Outcome State Fault Refusal := .next (s.issueInsn l i uMulh u)
/-- MULHU: high 32 bits of the unsigned product. -/
def execMulhu (l : Fin 256) (i : Fin 4) (u : UInsn) (s : State) : Host.Outcome State Fault Refusal := .next (s.issueInsn l i uMulhu u)
/-- MIN, signed. -/
def execMin (l : Fin 256) (i : Fin 4) (u : UInsn) (s : State) : Host.Outcome State Fault Refusal := .next (s.issueInsn l i uMin u)
/-- MAX, signed. -/
def execSaluMax (l : Fin 256) (i : Fin 4) (u : UInsn) (s : State) : Host.Outcome State Fault Refusal := .next (s.issueInsn l i uSaluMax u)
/-- MINU. -/
def execMinu (l : Fin 256) (i : Fin 4) (u : UInsn) (s : State) : Host.Outcome State Fault Refusal := .next (s.issueInsn l i uMinu u)
/-- MAXU. -/
def execMaxu (l : Fin 256) (i : Fin 4) (u : UInsn) (s : State) : Host.Outcome State Fault Refusal := .next (s.issueInsn l i uMaxu u)
/-- SLT (R697). -/
def execSlt (l : Fin 256) (i : Fin 4) (u : UInsn) (s : State) : Host.Outcome State Fault Refusal := .next (s.issueInsn l i uSlt u)
/-- SLTU (R697). -/
def execSltu (l : Fin 256) (i : Fin 4) (u : UInsn) (s : State) : Host.Outcome State Fault Refusal := .next (s.issueInsn l i uSltu u)
/-- LI: IMM[31:0]. -/
def execLi (l : Fin 256) (i : Fin 4) (u : UInsn) (s : State) : Host.Outcome State Fault Refusal := .next (s.issueInsn l i uLi u)
/-- LIH: IMM[15:0] into bits [31:16]. -/
def execLih (l : Fin 256) (i : Fin 4) (u : UInsn) (s : State) : Host.Outcome State Fault Refusal := .next (s.issueInsn l i uLih u)

end Sys2Proof.Machine
end

