-- ==== Sys2Proof/Machine/SyncInsn.lean ====
section
/-! DEFINITION. The SYNC and STAT classes (Table 3.6 classes 9 and 0xA; R119, R120, R134, R144, R176, R199, R702), and the end of a
wait. -/

namespace Sys2Proof.Machine

/-- The objects a wait names, as source codes of Table 3.3: sync objects, then rings. -/
def WaitState.codes (w : WaitState) : List Nat :=
  (List.range 32).filter (fun n => wbit w.syncs n) ++ ((List.range 8).filter (fun n => w.rings.testBit n)).map (32 + ·)

/-- Whether an object meets its condition: PENDING, or OCCUPANCY above 0. -/
def State.waitMet (s : State) (l c : Nat) : Bool :=
  if c < 32 then (s.ltile l).bit (Reg.SYNC_CFG c) 21 else (s.ltile l).ringOn (c - 32) && decide (0 < s.ringOcc l (c - 32))

/-- Whether a wait is satisfied: all of its objects, or any. -/
def State.waitDone (s : State) (l : Nat) (w : WaitState) : Bool :=
  if w.all then w.codes.all (s.waitMet l) else w.codes.any (s.waitMet l)

/-- The satisfied objects' PENDING bits clear; s[DST] gets the lowest satisfied code, or 0xFFFF_FFFF when none is named. -/
def State.waitReturn (s : State) (l i : Nat) (w : WaitState) : State :=
  let met := w.codes.filter (s.waitMet l)
  let v := match met with | [] => 0xFFFFFFFF#32 | c :: _ => wd c
  s.onL l (fun t => (met.foldl (fun t c => if c < 32 then t.setBit (Reg.SYNC_CFG c) 21 false else t) t).sput i w.dst v)

/-- WAIT and WAITT: return at once when satisfied, else block. -/
def State.waitOn (s : State) (l i : Nat) (w : WaitState) : State × After :=
  if s.waitDone l w then (s.waitReturn l i w, .next) else (s, .wait w)

def uWait : UOp :=
  { cls := 9, op := 0, uses := fun _ => { dst := .sc, a := .sc, b := .no },
    eff := fun l i u s =>
      s.waitOn l i { syncs := s.sget l i u.srca, rings := uimm u 7 0, all := ubit u 8, dst := u.dst.toNat, deadline := none } }

def uWaitt : UOp :=
  { cls := 9, op := 1, uses := fun _ => { dst := .sc, a := .sc, b := .sc },
    eff := fun l i u s =>
      s.waitOn l i { syncs := s.sget l i u.srca, rings := uimm u 7 0, all := ubit u 8, dst := u.dst.toNat,
                     deadline := some (s.now + (s.sget l i u.srcb).toNat) } }

def uSignal : UOp :=
  { cls := 9, op := 2, uses := fun _ => { dst := .no, a := .no, b := .sc },
    eff := fun l i u s => (s.syncAdd l (uimm u 4 0) (s.sget l i u.srcb), .next) }

/-- POP (R702): a ring that is not enabled holds no slot to consume; a poisoned header line faults POISON. -/
def uPop : UOp :=
  { cls := 9, op := 3, uses := fun _ => { dst := .sc, a := .no, b := .sc },
    eff := fun l i u s =>
      let n := uimm u 2 0
      let h := if (s.ltile l).ringOn n then s.headerCheck l n else (s, false)
      let k := if (s.ltile l).ringOn n then min (s.sget l i u.srcb).toNat (h.1.ringOcc l n) else 0
      if h.2 then (h.1, .fault ftPoison)
      else
        let s := if k = 0 then h.1 else h.1.ringTail l n (h.1.ringWord l n 2 + wd k)
        (s.sput l i u.dst (wd k), .next) }

def uMaRead : UOp :=
  { cls := 10, op := 0, uses := fun _ => { dst := .sc, a := .no, b := .no },
    eff := fun l i u s =>
      let v := (s.ltile l).rd (Reg.MA_MAX (uimm u 3 0))
      ((s.onL l (·.probeRestart (uimm u 3 0) s.now32)).sput l i u.dst v, .next) }

def uMaClear : UOp :=
  { cls := 10, op := 1, uses := fun _ => { dst := .no, a := .no, b := .no },
    eff := fun l _ u s => (s.onL l (·.probeRestart (uimm u 3 0) s.now32), .next) }

def uFlagsRead : UOp :=
  { cls := 10, op := 2, uses := fun _ => { dst := .sc, a := .no, b := .no },
    eff := fun l i u s =>
      let t := s.ltile l
      (s.sput l i u.dst (wd (t.fld (Reg.T_FLAGS i) 4 0 + 32 * (t.thread i).isat.toNat)), .next) }

def uFlagsClear : UOp :=
  { cls := 10, op := 3, uses := fun _ => { dst := .no, a := .no, b := .no },
    eff := fun l i u s =>
      (s.onL l (fun t =>
        (t.wr (Reg.T_FLAGS i) (t.rd (Reg.T_FLAGS i) &&& ~~~ (wd (uimm u 4 0)))).onThread i
          (fun h => { h with isat := h.isat && !ubit u 5 })), .next) }

def uCntRead : UOp :=
  { cls := 10, op := 4, uses := fun _ => { dst := .sc, a := .no, b := .no },
    eff := fun l i u s =>
      if 0x11 < uimm u 4 0 then (s, .fault ftIllegal) else (s.sput l i u.dst ((s.ltile l).rd (Reg.STALE_EVENTS + 4 * uimm u 4 0)), .next) }

/-- WAIT. -/
def execWait (l : Fin 256) (i : Fin 4) (u : UInsn) (s : State) : Host.Outcome State Fault Refusal := .next (s.issueInsn l i uWait u)
/-- WAITT. -/
def execWaitt (l : Fin 256) (i : Fin 4) (u : UInsn) (s : State) : Host.Outcome State Fault Refusal := .next (s.issueInsn l i uWaitt u)
/-- SIGNAL. -/
def execSignal (l : Fin 256) (i : Fin 4) (u : UInsn) (s : State) : Host.Outcome State Fault Refusal := .next (s.issueInsn l i uSignal u)
/-- POP. -/
def execPop (l : Fin 256) (i : Fin 4) (u : UInsn) (s : State) : Host.Outcome State Fault Refusal := .next (s.issueInsn l i uPop u)
/-- MA_READ. -/
def execMaRead (l : Fin 256) (i : Fin 4) (u : UInsn) (s : State) : Host.Outcome State Fault Refusal := .next (s.issueInsn l i uMaRead u)
/-- MA_CLEAR. -/
def execMaClear (l : Fin 256) (i : Fin 4) (u : UInsn) (s : State) : Host.Outcome State Fault Refusal := .next (s.issueInsn l i uMaClear u)
/-- FLAGS_READ. -/
def execFlagsRead (l : Fin 256) (i : Fin 4) (u : UInsn) (s : State) : Host.Outcome State Fault Refusal := .next (s.issueInsn l i uFlagsRead u)
/-- FLAGS_CLEAR. -/
def execFlagsClear (l : Fin 256) (i : Fin 4) (u : UInsn) (s : State) : Host.Outcome State Fault Refusal := .next (s.issueInsn l i uFlagsClear u)
/-- CNT_READ. -/
def execCntRead (l : Fin 256) (i : Fin 4) (u : UInsn) (s : State) : Host.Outcome State Fault Refusal := .next (s.issueInsn l i uCntRead u)

/-! ### The end of a wait (R120, R161) -/

/-- The thread goes on behind its WAIT. -/
def Tile.resumeWait (t : Tile) (i : Nat) : Tile :=
  ((t.onThread i (fun h => { h with wait := none })).setPc i (t.pc i + 1)).setTstate i tRunning

/-- WAIT_SATISFIED: a WAITING thread whose wait is satisfied resumes, and with it a clock that stands still (DESIGN CHOICE, log entry 84). -/
def State.waitSatisfied (s : State) (l i : Nat) : State :=
  match ((s.ltile l).thread i).wait with
  | some w =>
    if (s.ltile l).tstate i = tWaiting ∧ s.waitDone l w = true then ((s.waitReturn l i w).onL l (·.resumeWait i)).onL l Tile.wake else s
  | none => s

/-- WAITT_TIMEOUT: at its deadline an unsatisfied WAITT returns 0xFFFF_FFFF; a satisfied one returns as WAIT_SATISFIED. R100 does not list a deadline
among what restarts a stopped clock: here it does (DESIGN CHOICE, log entry 84). -/
def State.waittTimeout (s : State) (l i : Nat) : State :=
  match ((s.ltile l).thread i).wait with
  | some w =>
    match w.deadline with
    | some d =>
      if (s.ltile l).tstate i = tWaiting ∧ d ≤ s.now then
        if s.waitDone l w then ((s.waitReturn l i w).onL l (·.resumeWait i)).onL l Tile.wake else
        ((s.onL l (·.sput i w.dst 0xFFFFFFFF#32)).onL l (·.resumeWait i)).onL l Tile.wake
      else s
    | none => s
  | none => s

/-- WAIT_SATISFIED. -/
def execWaitSatisfied (l : Fin 256) (i : Fin 4) (s : State) : Host.Outcome State Fault Refusal := .next (s.waitSatisfied l i)
/-- WAITT_TIMEOUT. -/
def execWaittTimeout (l : Fin 256) (i : Fin 4) (s : State) : Host.Outcome State Fault Refusal := .next (s.waittTimeout l i)

end Sys2Proof.Machine
end

