-- ==== Sys2Proof/Machine/PinMap.lean ====
section
/-! DEFINITION. The signal pins, what the device drives on them, and the cells of the boundary register (R674, R675, R678, R686, R687). -/

namespace Sys2Proof.Machine

/-- The LVCMOS signal pins (Table 21.2), and TDO. Ports A and B are 0 and 1. -/
inductive Pin where
  | pdmClkL (g : Fin 4) | pdmClkA (g : Fin 4) | pdmDat (i : Fin 32)
  | tdmBclk (p : Fin 2) | tdmFs (p : Fin 2) | tdmDin (p : Fin 2) | tdmDout (p : Fin 2)
  | aeReq (p : Fin 2) | aeAck (p : Fin 2) | aeAddr (p : Fin 2) (i : Fin 16)
  | hbD (i : Fin 32) | hbA (i : Fin 6) | hbBe (i : Fin 4) | hbCs | hbRd | hbWr | hbReady | hbClk | hbMode
  | int | wake (i : Fin 8) | clap | sync | poreset | bistFail | alarm | chipId (i : Fin 4) | gpio (i : Fin 8) | tdo
deriving DecidableEq, Repr

/-- What an output shows: nothing drives it, a level, or the signal that its unit sends on it at the time, which no field holds. -/
inductive PinOut where
  | z | low | high | signal
deriving DecidableEq, Repr

/-- A level that is driven. -/
def PinOut.ofBool (b : Bool) : PinOut := if b then .high else .low

/-- An open-drain output. -/
def PinOut.pulls (b : Bool) : PinOut := if b then .low else .z

/-! ### Outputs (R678, R679) -/

/-- Whether a host-bus access is held open, and whether it is a read (R494). -/
def State.busHeld (s : State) : Bool := s.host.stalled.isSome || (s.host.read.any (·.active))

/-- What the device itself drives on a pin (Table 21.5). Between commands no host-bus cycle is open but one that is held, and no bit leaves TDO. -/
def State.devicePin (s : State) : Pin → PinOut
  | .hbD _ => if s.host.read.any (·.active) then .signal else .z
  | .hbReady => if s.busHeld then .high else .z
  | .int => .pulls (s.intPin && !s.boot.safe)
  | .wake i => .ofBool (s.bit Reg.WAKE_CTRL 20 && s.bit Reg.WAKE_CTRL (8 + i))
  | .clap => .pulls (s.bit Reg.NET_STATUS 1)
  | .sync => if s.chipId = 0 ∧ !s.boot.low ∧ !s.boot.safe then .ofBool s.syncPin else .z
  | .bistFail => .ofBool s.bistFailPin
  | .alarm => .pulls (s.alarmPin && !s.boot.safe)
  | .pdmClkL g => if s.lRun g then .signal else .low
  | .pdmClkA g => if s.aRun g then .signal else .low
  | .tdmDout p => if s.bit (Reg.TDM_CFG p) 19 && s.tdmState p == tdmLocked && !s.inListen then .signal else .low
  | .aeAck _ => .low
  | .gpio i => match s.vidPins with
    | some v => if i.val < 2 then .ofBool (v.testBit i) else .z
    | none => .z
  | _ => .z

/-! ### The boundary register (R686) -/

/-- What a boundary cell stands for. -/
inductive CellKind where
  | input | data | enable
deriving DecidableEq, Repr

/-- A boundary cell. -/
structure Cell where
  pin  : Pin
  kind : CellKind
deriving DecidableEq, Repr

/-- The cells of a pin: an input, an output, or both. -/
def Pin.cells : Pin → List CellKind
  | .pdmClkL _ | .pdmClkA _ | .tdmDout _ | .aeAck _ | .hbReady | .int | .wake _ | .bistFail | .alarm => [.data, .enable]
  | .hbD _ | .clap | .sync => [.input, .data, .enable]
  | .gpio i => if i.val < 2 then [.input, .data, .enable] else [.input]
  | .tdo => []
  | _ => [.input]

/-- The pins of the top region in fill order (Table 21.2). -/
def topPins : List Pin :=
  List.ofFn Pin.pdmClkL ++ List.ofFn Pin.pdmClkA ++ List.ofFn Pin.pdmDat ++
  (List.ofFn (fun p : Fin 2 => [Pin.tdmBclk p, .tdmFs p, .tdmDin p, .tdmDout p])).flatten ++
  (List.ofFn (fun p : Fin 2 => [Pin.aeReq p, .aeAck p] ++ List.ofFn (Pin.aeAddr p))).flatten

/-- The pins of the bottom region in fill order, but for REFCLK and the test pins, which have no cells. -/
def bottomPins : List Pin :=
  List.ofFn Pin.hbD ++ List.ofFn Pin.hbA ++ List.ofFn Pin.hbBe ++ [.hbCs, .hbRd, .hbWr, .hbReady, .hbClk, .hbMode, .int] ++ List.ofFn Pin.wake ++
  [.clap, .sync, .poreset, .bistFail, .alarm] ++ List.ofFn Pin.chipId ++ List.ofFn Pin.gpio

/-- The cells from TDI to TDO: the pins in fill order, and of each its input, data and enable cells in the order in which R686 names them (DESIGN
CHOICE, log entry 83). -/
def boundaryCells : List Cell := (topPins ++ bottomPins).flatMap (fun p => p.cells.map (Cell.mk p))

/-- The bit that the boundary register holds for a cell; an enable of 1 drives the pin (DESIGN CHOICE, log entry 83). -/
def Tap.cell (t : Tap) (c : Cell) : Bool := ((boundaryCells.zip t.boundary).find? (fun e => e.1 == c)).any (·.2)

/-- What controls the pins: the device, the boundary register, or nothing. -/
inductive PinDrive where
  | device
  | boundary
  | highZ
deriving DecidableEq, Repr

/-- EXTEST, CLAMP and HIGHZ control the pins, only while PORESET# is low (R687). -/
def State.pinDrive (s : State) : PinDrive :=
  if !s.boot.low then .device
  else if s.boot.tap.ir = 0 ∨ s.boot.tap.ir = 3 then .boundary
  else if s.boot.tap.ir = 4 then .highZ
  else .device

/-- Whether a pin is an open-drain output. -/
def Pin.openDrain (p : Pin) : Bool := p == .int || p == .clap || p == .alarm

/-- What a pin shows of the device, with VDD_AON and VDD_IO within tolerance or not (R678). -/
def State.pinOut (s : State) (rails : Bool) (p : Pin) : PinOut :=
  if !rails then .z
  else match s.pinDrive with
    | .device => s.devicePin p
    | .highZ => .z
    | .boundary =>
      if !p.cells.contains .enable || !s.boot.tap.cell ⟨p, .enable⟩ then .z
      else if p.openDrain then .pulls (!s.boot.tap.cell ⟨p, .data⟩)
      else .ofBool (s.boot.tap.cell ⟨p, .data⟩)

/-- Whether the transmitters of an Elvind port are driven: it trains or is UP, and is not parked; else they are in electrical idle (R646, Table 21.5;
DESIGN CHOICE for a parked port, log entry 83). -/
def State.elvDriven (s : State) (rails : Bool) (p : Nat) : Bool :=
  rails && !s.boot.low && !s.boot.safe && (s.linkState p == lnTraining || s.linkState p == lnUp) && !(s.port p).parked

/-- What the boundary register captures: in an input cell the level of the pin, in the others what the device drives, and where that is its unit's
signal, the level of the pin at that time. levels: the levels of the pins, cell by cell. -/
def State.captures (s : State) (levels : List Bool) : List Bool :=
  (boundaryCells.zip levels).map (fun e =>
    match e.1.kind, s.devicePin e.1.pin with
    | .input, _ => e.2
    | .enable, o => o != .z
    | .data, .high => true
    | .data, .signal => e.2
    | .data, _ => false)

end Sys2Proof.Machine
end

