-- ==== Sys2Proof/Machine/TapPort.lean ====
section
/-! DEFINITION. The test access port (R601, R685 to R687): its instruction, the boundary register and what is shifted out. -/

namespace Sys2Proof.Machine

/-- The device identification register (R685). -/
abbrev idCode : Word := 0x1D64076B#32

/-- The state with the test access port changed. -/
def State.onTap (s : State) (f : Tap → Tap) : State := { s with boot := { s.boot with tap := f s.boot.tap } }

/-- An instruction with the bypass register selected: one cell, which captures 0. -/
def State.tapBypass (s : State) (ir : Nat) (shifted : List Bool) : State :=
  s.onTap (fun t => { t with ir := ir, out := (false :: shifted).take shifted.length })

/-- An instruction with the boundary register selected: its cells are captured from the pins, and shifted out, the cell next to TDO first, while others
are shifted in. -/
def State.tapBoundary (s : State) (ir : Nat) (levels shifted : List Bool) : State :=
  let out := (s.captures levels).reverse
  s.onTap (fun t => { ir := ir, out := out, boundary := if shifted.length = 254 then shifted.reverse else t.boundary })

/-- Whether private instructions reach the scan chains (R601): in BLANK and SERVICE; under PORESET# the fuses say which state that is. -/
def State.scanOpen (s : State) : Bool :=
  let st := if s.boot.low then lcDecode s.keys.fuses s.keys.lcFail else s.lcState
  st == lcBlank || st == lcService

/-- n bits of a scan chain: which cells they are and what they hold is not given. -/
def State.scanBits (s : State) (n : Nat) : State × List Bool :=
  (List.range n).foldl (fun a _ => let d := a.1.draw; (d.1, a.2 ++ [d.2 % 2 == 1])) (s, [])

/-- An opcode that has no command of its own: a private instruction reaches a scan chain; it acts as BYPASS where scan is closed, and so does a
reserved opcode. The opcodes of the other commands are none of these. -/
def State.tapPrivate (s : State) (opcode : Nat) (shifted : List Bool) : State :=
  if opcode < 5 ∨ 0xFE < opcode then s
  else if 0x80 ≤ opcode ∧ s.scanOpen then
    let x := s.scanBits shifted.length
    x.1.onTap (fun t => { t with ir := opcode, out := x.2 })
  else s.tapBypass 0xFF shifted

/-! ### Commands -/

/-- TAP_RESET: Test-Logic-Reset, IDCODE selected. -/
def execTapReset (s : State) : Host.Outcome State Fault Refusal := .next (s.onTap (fun t => { t with ir := 1, out := [] }))
/-- EXTEST: while PORESET# is high it acts as BYPASS. -/
def execExtest (levels shifted : List Bool) (s : State) : Host.Outcome State Fault Refusal :=
  .next (if s.boot.low then s.tapBoundary 0 levels shifted else s.tapBypass 0xFF shifted)
/-- IDCODE. -/
def execIdcode (s : State) : Host.Outcome State Fault Refusal :=
  .next (s.onTap (fun t => { t with ir := 1, out := (List.range 32).map (fun i => idCode.getLsbD i) }))
/-- SAMPLE/PRELOAD. -/
def execSamplePreload (levels shifted : List Bool) (s : State) : Host.Outcome State Fault Refusal := .next (s.tapBoundary 2 levels shifted)
/-- CLAMP: while PORESET# is high it acts as BYPASS. -/
def execClamp (shifted : List Bool) (s : State) : Host.Outcome State Fault Refusal := .next (s.tapBypass (if s.boot.low then 3 else 0xFF) shifted)
/-- HIGHZ: while PORESET# is high it acts as BYPASS. -/
def execHighz (shifted : List Bool) (s : State) : Host.Outcome State Fault Refusal := .next (s.tapBypass (if s.boot.low then 4 else 0xFF) shifted)
/-- BYPASS. -/
def execBypass (shifted : List Bool) (s : State) : Host.Outcome State Fault Refusal := .next (s.tapBypass 0xFF shifted)
/-- PRIVATE_SCAN, with its opcode and the bits shifted in. -/
def execPrivateScan (opcode : BitVec 8) (shifted : List Bool) (s : State) : Host.Outcome State Fault Refusal := .next (s.tapPrivate opcode.toNat shifted)

end Sys2Proof.Machine
end

