-- ==== Sys2Proof/Machine/Valu.lean ====
section
/-! DEFINITION. The VALU class (Table 3.6 class 2; R173, R175, R177, R698, Table 4.5). -/

namespace Sys2Proof.Machine

/-- A lane-wise operation: lane j of v[DST] = f (lane j of v[SRCA], lane j of v[SRCB]). -/
def valu2 (op : Nat) (f : UInsn → Word → Word → Word) : UOp :=
  { cls := 2, op := op, uses := fun _ => { dst := .vec, a := .vec, b := .vec },
    eff := fun l i u s =>
      let t := s.ltile l
      (s.onL l (·.putVec i u.dst.toNat (fun j => f u (t.lane i u.srca.toNat j) (t.lane i u.srcb.toNat j))), .next) }

/-- A lane as a signed 16-bit value. -/
def lane16 (w : Word) : Int := sext 16 w.toNat

/-- The Q1.15 product before saturation. -/
def mulq (a b : Word) : Int := rneShift (lane16 a * lane16 b) 15

/-- A signed or unsigned limit of VSAT (Table 4.5). -/
def vsatLane (u : UInsn) (w : Word) : Int :=
  let n := uimm u 4 0 + 1
  if ubit u 5 then clampI 0 (2 ^ n - 1) w.toInt else clampI (-(2 ^ (n - 1))) (2 ^ (n - 1) - 1) w.toInt

/-- Lanes 0 to 15. -/
def lanes16 : List Nat := List.range 16

def uVadd : UOp := valu2 0 (fun _ a b => a + b)
def uVsub : UOp := valu2 1 (fun _ a b => a - b)
def uVmul16 : UOp := valu2 2 (fun _ a b => wi (lane16 a * lane16 b))
def uVmulq : UOp :=
  { cls := 2, op := 3, uses := fun _ => { dst := .vec, a := .vec, b := .vec },
    eff := fun l i u s =>
      let t := s.ltile l
      let q := fun j => mulq (t.lane i u.srca.toNat j) (t.lane i u.srcb.toNat j)
      let n := lanes16.countP (fun j => clampI (-32768) 32767 (q j) != q j)
      (s.onL l (fun t => (t.putVec i u.dst.toNat (fun j => wi (clampI (-32768) 32767 (q j)))).saturate i n), .next) }
def uVshl : UOp := valu2 4 (fun _ a b => a <<< (b.toNat % 32))
def uVshr : UOp := valu2 5 (fun _ a b => a >>> (b.toNat % 32))
def uVsra : UOp := valu2 6 (fun u a b => if ubit u 0 then wi (rneShift a.toInt (b.toNat % 32)) else a.sshiftRight (b.toNat % 32))
def uVand : UOp := valu2 7 (fun _ a b => a &&& b)
def uVor : UOp := valu2 8 (fun _ a b => a ||| b)
def uVxor : UOp := valu2 9 (fun _ a b => a ^^^ b)
def uVmin : UOp := valu2 10 (fun _ a b => if a.slt b then a else b)
def uVmax : UOp := valu2 11 (fun _ a b => if a.slt b then b else a)
def uVcmpge : UOp := valu2 12 (fun _ a b => if a.slt b then 0 else 0xFFFFFFFF#32)
def uVcmpeq : UOp := valu2 13 (fun _ a b => if a = b then 0xFFFFFFFF#32 else 0)
def uVsel : UOp :=
  { cls := 2, op := 14, uses := fun _ => { dst := .vec, a := .vec, b := .vec },
    eff := fun l i u s =>
      let t := s.ltile l
      (s.onL l (·.putVec i u.dst.toNat (fun j =>
        if t.lane i u.dst.toNat j = 0 then t.lane i u.srcb.toNat j else t.lane i u.srca.toNat j)), .next) }
def uVsat : UOp :=
  { cls := 2, op := 15, uses := fun _ => { dst := .vec, a := .vec, b := .no },
    eff := fun l i u s =>
      let t := s.ltile l
      let x := fun j => t.lane i u.srca.toNat j
      let sat := fun j => vsatLane u (x j) != (x j).toInt
      (s.onL l (fun t =>
        let t := t.putVec i u.dst.toNat (fun j => wi (vsatLane u (x j)))
        let t := overBelow 16 (fun j t => t.probe 5 j (some (x j).toInt.natAbs) (sat j).toNat) t
        t.saturate i (lanes16.countP sat)), .next) }
def uVbcast : UOp :=
  { cls := 2, op := 16, uses := fun _ => { dst := .vec, a := .either, b := .no },
    eff := fun l i u s =>
      let v := if isVector u.srca.toNat then (s.ltile l).lane i u.srca.toNat (uimm u 3 0) else s.sget l i u.srca
      (s.onL l (·.putVec i u.dst.toNat (fun _ => v)), .next) }
def uVredadd : UOp :=
  { cls := 2, op := 17, uses := fun _ => { dst := .sc, a := .vec, b := .no },
    eff := fun l i u s =>
      let t := s.ltile l
      (s.sput l i u.dst (lanes16.foldl (fun a j => a + t.lane i u.srca.toNat j) 0), .next) }
def uVredmax : UOp :=
  { cls := 2, op := 18, uses := fun _ => { dst := .sc, a := .vec, b := .no },
    eff := fun l i u s =>
      let t := s.ltile l
      let x := fun j => t.lane i u.srca.toNat j
      (s.sput l i u.dst (lanes16.foldl (fun a j => if a.slt (x j) then x j else a) (x 0)), .next) }
def uVlane : UOp :=
  { cls := 2, op := 19, uses := fun u => if ubit u 4 then { dst := .vec, a := .sc, b := .no } else { dst := .sc, a := .vec, b := .no },
    eff := fun l i u s =>
      if ubit u 4 then (s.onL l (·.putLane i u.dst.toNat (uimm u 3 0) (s.sget l i u.srca)), .next)
      else (s.sput l i u.dst ((s.ltile l).lane i u.srca.toNat (uimm u 3 0)), .next) }

/-- VADD. -/
def execVadd (l : Fin 256) (i : Fin 4) (u : UInsn) (s : State) : Host.Outcome State Fault Refusal := .next (s.issueInsn l i uVadd u)
/-- VSUB. -/
def execVsub (l : Fin 256) (i : Fin 4) (u : UInsn) (s : State) : Host.Outcome State Fault Refusal := .next (s.issueInsn l i uVsub u)
/-- VMUL16. -/
def execVmul16 (l : Fin 256) (i : Fin 4) (u : UInsn) (s : State) : Host.Outcome State Fault Refusal := .next (s.issueInsn l i uVmul16 u)
/-- VMULQ: rounded, saturated, and each saturation counted. -/
def execVmulq (l : Fin 256) (i : Fin 4) (u : UInsn) (s : State) : Host.Outcome State Fault Refusal := .next (s.issueInsn l i uVmulq u)
/-- VSHL. -/
def execVshl (l : Fin 256) (i : Fin 4) (u : UInsn) (s : State) : Host.Outcome State Fault Refusal := .next (s.issueInsn l i uVshl u)
/-- VSHR. -/
def execVshr (l : Fin 256) (i : Fin 4) (u : UInsn) (s : State) : Host.Outcome State Fault Refusal := .next (s.issueInsn l i uVshr u)
/-- VSRA, rounded with IMM[0] = 1. -/
def execVsra (l : Fin 256) (i : Fin 4) (u : UInsn) (s : State) : Host.Outcome State Fault Refusal := .next (s.issueInsn l i uVsra u)
/-- VAND. -/
def execVand (l : Fin 256) (i : Fin 4) (u : UInsn) (s : State) : Host.Outcome State Fault Refusal := .next (s.issueInsn l i uVand u)
/-- VOR. -/
def execVor (l : Fin 256) (i : Fin 4) (u : UInsn) (s : State) : Host.Outcome State Fault Refusal := .next (s.issueInsn l i uVor u)
/-- VXOR. -/
def execVxor (l : Fin 256) (i : Fin 4) (u : UInsn) (s : State) : Host.Outcome State Fault Refusal := .next (s.issueInsn l i uVxor u)
/-- VMIN. -/
def execVmin (l : Fin 256) (i : Fin 4) (u : UInsn) (s : State) : Host.Outcome State Fault Refusal := .next (s.issueInsn l i uVmin u)
/-- VMAX. -/
def execVmax (l : Fin 256) (i : Fin 4) (u : UInsn) (s : State) : Host.Outcome State Fault Refusal := .next (s.issueInsn l i uVmax u)
/-- VCMPGE. -/
def execVcmpge (l : Fin 256) (i : Fin 4) (u : UInsn) (s : State) : Host.Outcome State Fault Refusal := .next (s.issueInsn l i uVcmpge u)
/-- VCMPEQ. -/
def execVcmpeq (l : Fin 256) (i : Fin 4) (u : UInsn) (s : State) : Host.Outcome State Fault Refusal := .next (s.issueInsn l i uVcmpeq u)
/-- VSEL: by the previous lane of v[DST] (R698). -/
def execVsel (l : Fin 256) (i : Fin 4) (u : UInsn) (s : State) : Host.Outcome State Fault Refusal := .next (s.issueInsn l i uVsel u)
/-- VSAT: saturations counted, the input lanes seen by probes of tap 5. -/
def execVsat (l : Fin 256) (i : Fin 4) (u : UInsn) (s : State) : Host.Outcome State Fault Refusal := .next (s.issueInsn l i uVsat u)
/-- VBCAST (R698). -/
def execVbcast (l : Fin 256) (i : Fin 4) (u : UInsn) (s : State) : Host.Outcome State Fault Refusal := .next (s.issueInsn l i uVbcast u)
/-- VREDADD. -/
def execVredadd (l : Fin 256) (i : Fin 4) (u : UInsn) (s : State) : Host.Outcome State Fault Refusal := .next (s.issueInsn l i uVredadd u)
/-- VREDMAX. -/
def execVredmax (l : Fin 256) (i : Fin 4) (u : UInsn) (s : State) : Host.Outcome State Fault Refusal := .next (s.issueInsn l i uVredmax u)
/-- VLANE (R698). -/
def execVlane (l : Fin 256) (i : Fin 4) (u : UInsn) (s : State) : Host.Outcome State Fault Refusal := .next (s.issueInsn l i uVlane u)

end Sys2Proof.Machine
end

