-- ==== Sys2Proof/Machine/UcodeRun.lean ====
section
/-! DEFINITION. Microcode words: decoding by class and OP (R112, R114, R115), fetch from the microcode store (R104), the issue of a
tile's next instruction (R108), a stalled thread's retry (R107), and the thread commands. -/

namespace Sys2Proof.Machine

/-- Class 0, in OP order (Table 3.6). -/
def class0 : List UOp := [uNop, uHalt, uIdle, uBr, uBrz, uBrnz, uBrlt, uBrltu, uCall, uRet, uLoop, uYield]
/-- Class 1, in OP order (Table 3.6). -/
def class1 : List UOp := [uSaluAdd, uSub, uAnd, uOr, uXor, uShl, uShr, uSra, uMul, uMulh, uMulhu, uMin, uSaluMax, uMinu, uMaxu, uSlt, uSltu, uLi, uLih]
/-- Class 2, in OP order (Table 3.6). -/
def class2 : List UOp := [uVadd, uVsub, uVmul16, uVmulq, uVshl, uVshr, uVsra, uVand, uVor, uVxor, uVmin, uVmax, uVcmpge, uVcmpeq, uVsel, uVsat, uVbcast, uVredadd, uVredmax, uVlane]
/-- Class 3, in OP order (Table 3.6). -/
def class3 : List UOp := [uLd, uSt, uVld, uVst, uVldx, uVstx]
/-- Class 4, in OP order (Table 3.6). -/
def class4 : List UOp := [uSlotTake, uSlotAdd, uSpike, uSpike1, uBeatRead]
/-- Class 5, in OP order (Table 3.6). -/
def class5 : List UOp := [uMmStart, uMmWait, uAccRd, uAccWr, uAccClr]
/-- Class 6, in OP order (Table 3.6). -/
def class6 : List UOp := [uGpStart, uGpWait, uGpLane]
/-- Class 7, in OP order (Table 3.6). -/
def class7 : List UOp := [uScStart, uScWait]
/-- Class 8, in OP order (Table 3.6). -/
def class8 : List UOp := [uRemoteGet, uRemotePut, uRemoteAdd, uRemoteMax, uRemoteSwap, uRemoteCas, uGsum, uRemotePost, uRemoteFence]
/-- Class 9, in OP order (Table 3.6). -/
def class9 : List UOp := [uWait, uWaitt, uSignal, uPop]
/-- Class 10, in OP order (Table 3.6). -/
def class10 : List UOp := [uMaRead, uMaClear, uFlagsRead, uFlagsClear, uCntRead]

/-- The classes in order. -/
def classes : List (List UOp) := [class0, class1, class2, class3, class4, class5, class6, class7, class8, class9, class10]

/-- The operation of a class and an OP; none when either is reserved (R114). -/
def uopAt (cls op : Nat) : Option UOp := (classes.getD cls [])[op]?

/-- Bits [hi:lo] of a microcode word. -/
def dfld (w : DWord) (hi lo : Nat) : Nat := (w.toNat >>> lo) % 2 ^ (hi + 1 - lo)

/-- The operand fields of a word (Table 3.4). -/
def insnOf (w : DWord) : UInsn :=
  { dst := BitVec.ofNat 6 (dfld w 53 48), srca := BitVec.ofNat 6 (dfld w 47 42), srcb := BitVec.ofNat 6 (dfld w 41 36), imm := BitVec.ofNat 36 (dfld w 35 0) }

/-- Issue a word. -/
def State.runWord (s : State) (l i : Nat) (w : DWord) : State :=
  match uopAt (dfld w 63 60) (dfld w 59 54) with
  | some o => s.issueInsn l i o (insnOf w)
  | none => if (s.ltile l).tstate i = tRunning then s.faultThread l i ftIllegal else s

/-- Microcode word w of a tile, as stored. -/
def Tile.ucode (t : Tile) (w : Nat) : DWord := BitVec.ofNat 64 ((t.rd (Reg.UCODE (2 * w))).toNat + 2 ^ 32 * (t.rd (Reg.UCODE (2 * w + 1))).toNat)

/-- Fetch and issue the instruction at a thread's pc: a pc outside the image faults SPLIT, an uncorrectable word UCODE_ECC, and a
corrected one is counted (R104, R696). -/
def State.fetchIssue (s : State) (l i : Nat) : State :=
  let t := s.ltile l
  let pc := t.pc i
  if !t.inImage i pc then s.faultThread l i ftSplit
  else
    let e := spGet (fun _ => 0) t.ucodeErr pc
    if e = 2 then s.faultThread l i ftUcode
    else (if e = 1 then s.onL l (·.countBy Reg.UCODE_CORRECTED 1) else s).runWord l i (t.ucode pc)

/-- The thread that issues next (R108, R696): RUNNING, of the lowest class, in round robin from the one that issued last; one that
has just yielded only when no other is RUNNING. -/
def Tile.arbiter (t : Tile) : Option Nat :=
  let order := (List.range 4).map (fun k => (t.lastIssued + 1 + k) % 4)
  let run := order.filter (fun i => t.tstate i == tRunning)
  let cand := if run.length = 1 then run else run.filter (fun i => t.yielded != some i)
  cand.find? (fun i => cand.all (fun j => decide (t.tclass i ≤ t.tclass j)))

/-- The issue cycle of logical tile l: the next thread issues, stalls or faults. A YIELD gives away this one cycle's slot (R696). -/
def State.tileTurn (s : State) (l : Nat) : State :=
  match (s.ltile l).arbiter with
  | some i => (s.onL l (fun t => { t with yielded := none })).fetchIssue l i
  | none => if (s.ltile l).yielded.isSome then s.onL l (fun t => { t with yielded := none }) else s

/-- THREAD_UNSTALL: the stalled thread tries its instruction again, after it has been STALLED for some cycles, which T_STALL and
STALL_CYCLES count. It stays STALLED while its condition holds. -/
def State.unstall (s : State) (l i : Nat) (cycles : Nat) : State :=
  match ((s.ltile l).thread i).stalled with
  | some w =>
    if (s.ltile l).tstate i = tStalled then
      let s := s.onL l (fun t =>
        (((t.onThread i (fun h => { h with stalled := none })).setTstate i tRunning).countBy (Reg.T_STALL i) cycles).countBy Reg.STALL_CYCLES cycles)
      s.runWord l i w
    else s
  | none => s

/-- THREAD_UNSTALL. -/
def execThreadUnstall (l : Fin 256) (i : Fin 4) (cycles : Nat) (s : State) : Host.Outcome State Fault Refusal := .next (s.unstall l i cycles)
/-- T_CMD_START: T_CMD written with CMD 1. -/
def execTCmdStart (l : Fin 256) (i : Fin 4) (s : State) : Host.Outcome State Fault Refusal := .next (s.ctlCommand l (Reg.T_CMD i) 1)
/-- T_CMD_HALT: T_CMD written with CMD 2. -/
def execTCmdHalt (l : Fin 256) (i : Fin 4) (s : State) : Host.Outcome State Fault Refusal := .next (s.ctlCommand l (Reg.T_CMD i) 2)
/-- T_CMD_RESUME: T_CMD written with CMD 3. -/
def execTCmdResume (l : Fin 256) (i : Fin 4) (s : State) : Host.Outcome State Fault Refusal := .next (s.ctlCommand l (Reg.T_CMD i) 3)

end Sys2Proof.Machine
end

