-- ==== Sys2Proof/Machine/Dispatch.lean ====
section
/-! DEFINITION. The meaning of each command: one arm per constructor of Instr. -/

namespace Sys2Proof.Machine

/-- The effect of a command on everything but the queue. -/
def exec (i : Instr) (s : State) : Host.Outcome State Fault Refusal :=
  match i with
  | .get r => Sys2Proof.Machine.execGet r s
  | .put r => Sys2Proof.Machine.execPut r s
  | .add r => Sys2Proof.Machine.execAdd r s
  | .max r => Sys2Proof.Machine.execMax r s
  | .swap r => Sys2Proof.Machine.execSwap r s
  | .cas r => Sys2Proof.Machine.execCas r s
  | .gatherSum r => Sys2Proof.Machine.execGatherSum r s
  | .post r => Sys2Proof.Machine.execPost r s
  | .ringPush r => Sys2Proof.Machine.execRingPush r s
  | .ringClaim r => Sys2Proof.Machine.execRingClaim r s
  | .ringPublish r => Sys2Proof.Machine.execRingPublish r s
  | .ringTailMove r => Sys2Proof.Machine.execRingTailMove r s
  | .heldPushApply l vc => Sys2Proof.Machine.execHeldPushApply l vc s
  | .responseArrival r => Sys2Proof.Machine.execResponseArrival r s
  | .creditSend q target => Sys2Proof.Machine.execCreditSend q target s
  | .creditArrival c => Sys2Proof.Machine.execCreditArrival c s
  | .noticeSend arrived => Sys2Proof.Machine.execNoticeSend arrived s
  | .flitAdvance src vc => Sys2Proof.Machine.execFlitAdvance src vc s
  | .mapCmdBumpEpoch o => Sys2Proof.Machine.execMapCmdBumpEpoch o s
  | .bumpEpochDone => Sys2Proof.Machine.execBumpEpochDone s
  | .mapCmdRelocate o => Sys2Proof.Machine.execMapCmdRelocate o s
  | .copyPass l left => Sys2Proof.Machine.execCopyPass l left s
  | .relocationSwitch l => Sys2Proof.Machine.execRelocationSwitch l s
  | .relocationDone l => Sys2Proof.Machine.execRelocationDone l s
  | .tileClockStop p idle => Sys2Proof.Machine.execTileClockStop p idle s
  | .oscCheck p mhz => Sys2Proof.Machine.execOscCheck p mhz s
  | .failureTakeover l => Sys2Proof.Machine.execFailureTakeover l s
  | .takeoverSwitch l => Sys2Proof.Machine.execTakeoverSwitch l s
  | .timerMatch l => Sys2Proof.Machine.execTimerMatch l s
  | .tCmdStart l h => Sys2Proof.Machine.execTCmdStart l h s
  | .tCmdHalt l h => Sys2Proof.Machine.execTCmdHalt l h s
  | .tCmdResume l h => Sys2Proof.Machine.execTCmdResume l h s
  | .threadUnstall l h cycles => Sys2Proof.Machine.execThreadUnstall l h cycles s
  | .waitSatisfied l h => Sys2Proof.Machine.execWaitSatisfied l h s
  | .waittTimeout l h => Sys2Proof.Machine.execWaittTimeout l h s
  | .nop l h u => Sys2Proof.Machine.execNop l h u s
  | .halt l h u => Sys2Proof.Machine.execHalt l h u s
  | .idle l h u => Sys2Proof.Machine.execIdle l h u s
  | .br l h u => Sys2Proof.Machine.execBr l h u s
  | .brz l h u => Sys2Proof.Machine.execBrz l h u s
  | .brnz l h u => Sys2Proof.Machine.execBrnz l h u s
  | .brlt l h u => Sys2Proof.Machine.execBrlt l h u s
  | .brltu l h u => Sys2Proof.Machine.execBrltu l h u s
  | .call l h u => Sys2Proof.Machine.execCall l h u s
  | .ret l h u => Sys2Proof.Machine.execRet l h u s
  | .loop l h u => Sys2Proof.Machine.execLoop l h u s
  | .yield l h u => Sys2Proof.Machine.execYield l h u s
  | .saluAdd l h u => Sys2Proof.Machine.execSaluAdd l h u s
  | .sub l h u => Sys2Proof.Machine.execSub l h u s
  | .and l h u => Sys2Proof.Machine.execAnd l h u s
  | .or l h u => Sys2Proof.Machine.execOr l h u s
  | .xor l h u => Sys2Proof.Machine.execXor l h u s
  | .shl l h u => Sys2Proof.Machine.execShl l h u s
  | .shr l h u => Sys2Proof.Machine.execShr l h u s
  | .sra l h u => Sys2Proof.Machine.execSra l h u s
  | .mul l h u => Sys2Proof.Machine.execMul l h u s
  | .mulh l h u => Sys2Proof.Machine.execMulh l h u s
  | .mulhu l h u => Sys2Proof.Machine.execMulhu l h u s
  | .min l h u => Sys2Proof.Machine.execMin l h u s
  | .saluMax l h u => Sys2Proof.Machine.execSaluMax l h u s
  | .minu l h u => Sys2Proof.Machine.execMinu l h u s
  | .maxu l h u => Sys2Proof.Machine.execMaxu l h u s
  | .slt l h u => Sys2Proof.Machine.execSlt l h u s
  | .sltu l h u => Sys2Proof.Machine.execSltu l h u s
  | .li l h u => Sys2Proof.Machine.execLi l h u s
  | .lih l h u => Sys2Proof.Machine.execLih l h u s
  | .vadd l h u => Sys2Proof.Machine.execVadd l h u s
  | .vsub l h u => Sys2Proof.Machine.execVsub l h u s
  | .vmul16 l h u => Sys2Proof.Machine.execVmul16 l h u s
  | .vmulq l h u => Sys2Proof.Machine.execVmulq l h u s
  | .vshl l h u => Sys2Proof.Machine.execVshl l h u s
  | .vshr l h u => Sys2Proof.Machine.execVshr l h u s
  | .vsra l h u => Sys2Proof.Machine.execVsra l h u s
  | .vand l h u => Sys2Proof.Machine.execVand l h u s
  | .vor l h u => Sys2Proof.Machine.execVor l h u s
  | .vxor l h u => Sys2Proof.Machine.execVxor l h u s
  | .vmin l h u => Sys2Proof.Machine.execVmin l h u s
  | .vmax l h u => Sys2Proof.Machine.execVmax l h u s
  | .vcmpge l h u => Sys2Proof.Machine.execVcmpge l h u s
  | .vcmpeq l h u => Sys2Proof.Machine.execVcmpeq l h u s
  | .vsel l h u => Sys2Proof.Machine.execVsel l h u s
  | .vsat l h u => Sys2Proof.Machine.execVsat l h u s
  | .vbcast l h u => Sys2Proof.Machine.execVbcast l h u s
  | .vredadd l h u => Sys2Proof.Machine.execVredadd l h u s
  | .vredmax l h u => Sys2Proof.Machine.execVredmax l h u s
  | .vlane l h u => Sys2Proof.Machine.execVlane l h u s
  | .ld l h u => Sys2Proof.Machine.execLd l h u s
  | .st l h u => Sys2Proof.Machine.execSt l h u s
  | .vld l h u => Sys2Proof.Machine.execVld l h u s
  | .vst l h u => Sys2Proof.Machine.execVst l h u s
  | .vldx l h u => Sys2Proof.Machine.execVldx l h u s
  | .vstx l h u => Sys2Proof.Machine.execVstx l h u s
  | .slotTake l h u => Sys2Proof.Machine.execSlotTake l h u s
  | .slotAdd l h u => Sys2Proof.Machine.execSlotAdd l h u s
  | .spike l h u => Sys2Proof.Machine.execSpike l h u s
  | .spike1 l h u => Sys2Proof.Machine.execSpike1 l h u s
  | .beatRead l h u => Sys2Proof.Machine.execBeatRead l h u s
  | .mmStart l h u => Sys2Proof.Machine.execMmStart l h u s
  | .mmWait l h u => Sys2Proof.Machine.execMmWait l h u s
  | .accRd l h u => Sys2Proof.Machine.execAccRd l h u s
  | .accWr l h u => Sys2Proof.Machine.execAccWr l h u s
  | .accClr l h u => Sys2Proof.Machine.execAccClr l h u s
  | .gpStart l h u => Sys2Proof.Machine.execGpStart l h u s
  | .gpWait l h u => Sys2Proof.Machine.execGpWait l h u s
  | .gpLane l h u => Sys2Proof.Machine.execGpLane l h u s
  | .scStart l h u => Sys2Proof.Machine.execScStart l h u s
  | .scWait l h u => Sys2Proof.Machine.execScWait l h u s
  | .remoteGet l h u => Sys2Proof.Machine.execRemoteGet l h u s
  | .remotePut l h u => Sys2Proof.Machine.execRemotePut l h u s
  | .remoteAdd l h u => Sys2Proof.Machine.execRemoteAdd l h u s
  | .remoteMax l h u => Sys2Proof.Machine.execRemoteMax l h u s
  | .remoteSwap l h u => Sys2Proof.Machine.execRemoteSwap l h u s
  | .remoteCas l h u => Sys2Proof.Machine.execRemoteCas l h u s
  | .gsum l h u => Sys2Proof.Machine.execGsum l h u s
  | .remotePost l h u => Sys2Proof.Machine.execRemotePost l h u s
  | .remoteFence l h u => Sys2Proof.Machine.execRemoteFence l h u s
  | .wait l h u => Sys2Proof.Machine.execWait l h u s
  | .waitt l h u => Sys2Proof.Machine.execWaitt l h u s
  | .signal l h u => Sys2Proof.Machine.execSignal l h u s
  | .pop l h u => Sys2Proof.Machine.execPop l h u s
  | .maRead l h u => Sys2Proof.Machine.execMaRead l h u s
  | .maClear l h u => Sys2Proof.Machine.execMaClear l h u s
  | .flagsRead l h u => Sys2Proof.Machine.execFlagsRead l h u s
  | .flagsClear l h u => Sys2Proof.Machine.execFlagsClear l h u s
  | .cntRead l h u => Sys2Proof.Machine.execCntRead l h u s
  | .engineJobStart l e h => Sys2Proof.Machine.execEngineJobStart l e h s
  | .matrixJobDone l h => Sys2Proof.Machine.execMatrixJobDone l h s
  | .gateJobDone l h => Sys2Proof.Machine.execGateJobDone l h s
  | .scanJobDone l h => Sys2Proof.Machine.execScanJobDone l h s
  | .eventEngineSpike l => Sys2Proof.Machine.execEventEngineSpike l s
  | .evCfgWrite l v => Sys2Proof.Machine.execEvCfgWrite l v s
  | .evClearDone l => Sys2Proof.Machine.execEvClearDone l s
  | .ringCfgWrite l n v => Sys2Proof.Machine.execRingCfgWrite l n v s
  | .syncCfgWrite l n v => Sys2Proof.Machine.execSyncCfgWrite l n v s
  | .syncThresholdWrite l n v => Sys2Proof.Machine.execSyncThresholdWrite l n v s
  | .timerWrite l ctrl v => Sys2Proof.Machine.execTimerWrite l ctrl v s
  | .maCfgWrite l n v => Sys2Proof.Machine.execMaCfgWrite l n v s
  | .maMaxRead l n => Sys2Proof.Machine.execMaMaxRead l n s
  | .rcCounterRead g => Sys2Proof.Machine.execRcCounterRead g s
  | .registerWrite o g be v => Sys2Proof.Machine.execRegisterWrite o g be v s
  | .clapTake => Sys2Proof.Machine.execClapTake s
  | .clapNetRelease => Sys2Proof.Machine.execClapNetRelease s
  | .clapNetFall => Sys2Proof.Machine.execClapNetFall s
  | .clapNetStuck => Sys2Proof.Machine.execClapNetStuck s
  | .clapCtrlClap => Sys2Proof.Machine.execClapCtrlClap s
  | .clapCtrlRelease => Sys2Proof.Machine.execClapCtrlRelease s
  | .contractCmdRegister stream => Sys2Proof.Machine.execContractCmdRegister stream s
  | .contractCmdActivate stream v => Sys2Proof.Machine.execContractCmdActivate stream v s
  | .contractCmdDeactivate stream => Sys2Proof.Machine.execContractCmdDeactivate stream s
  | .contractCmdUnregister stream => Sys2Proof.Machine.execContractCmdUnregister stream s
  | .contractCmdCheck stream v => Sys2Proof.Machine.execContractCmdCheck stream v s
  | .contractCmdBreak stream => Sys2Proof.Machine.execContractCmdBreak stream s
  | .drainDone e => Sys2Proof.Machine.execDrainDone e s
  | .frameEnd e => Sys2Proof.Machine.execFrameEnd e s
  | .sourceGap e => Sys2Proof.Machine.execSourceGap e s
  | .recordCommit r => Sys2Proof.Machine.execRecordCommit r s
  | .hintWrite r => Sys2Proof.Machine.execHintWrite r s
  | .cut e seq => Sys2Proof.Machine.execCut e seq s
  | .wakePulseEnd n => Sys2Proof.Machine.execWakePulseEnd n s
  | .wakeCtrlWrite v => Sys2Proof.Machine.execWakeCtrlWrite v s
  | .resTailWrite v => Sys2Proof.Machine.execResTailWrite v s
  | .coverageBreak e => Sys2Proof.Machine.execCoverageBreak e s
  | .swapIn e => Sys2Proof.Machine.execSwapIn e s
  | .swapInDone e => Sys2Proof.Machine.execSwapInDone e s
  | .swapOut e => Sys2Proof.Machine.execSwapOut e s
  | .contextReset e => Sys2Proof.Machine.execContextReset e s
  | .residencyFallback e => Sys2Proof.Machine.execResidencyFallback e s
  | .resolveRecompute => Sys2Proof.Machine.execResolveRecompute s
  | .feCmdLoadCal => Sys2Proof.Machine.execFeCmdLoadCal s
  | .feCmdWake => Sys2Proof.Machine.execFeCmdWake s
  | .wakeReqWrite r => Sys2Proof.Machine.execWakeReqWrite r s
  | .alignWrite c v => Sys2Proof.Machine.execAlignWrite c v s
  | .settleEnd => Sys2Proof.Machine.execSettleEnd s
  | .stuckDetect c => Sys2Proof.Machine.execStuckDetect c s
  | .chainOutputSample k bits => Sys2Proof.Machine.execChainOutputSample k bits s
  | .delivPush g => Sys2Proof.Machine.execDelivPush g s
  | .feedPush g => Sys2Proof.Machine.execFeedPush g s
  | .dcStart r v => Sys2Proof.Machine.execDcStart r v s
  | .dcStop r v => Sys2Proof.Machine.execDcStop r v s
  | .chCfg0Write c v => Sys2Proof.Machine.execChCfg0Write c v s
  | .fineCfg0Write f v => Sys2Proof.Machine.execFineCfg0Write f v s
  | .channelSwitch f src => Sys2Proof.Machine.execChannelSwitch f src s
  | .shiftWrite k v => Sys2Proof.Machine.execShiftWrite k v s
  | .maxabsRead k => Sys2Proof.Machine.execMaxabsRead k s
  | .thCtrlWrite c u v => Sys2Proof.Machine.execThCtrlWrite c u v s
  | .tdmLock p => Sys2Proof.Machine.execTdmLock p s
  | .tdmLost p cause => Sys2Proof.Machine.execTdmLost p cause s
  | .tdmFsError p frames => Sys2Proof.Machine.execTdmFsError p frames s
  | .tdmDelivPush p frames => Sys2Proof.Machine.execTdmDelivPush p frames s
  | .tdmTxFetch p remote => Sys2Proof.Machine.execTdmTxFetch p remote s
  | .aeEvent p a => Sys2Proof.Machine.execAeEvent p a s
  | .aePostIssue p urgent => Sys2Proof.Machine.execAePostIssue p urgent s
  | .aeRateWindow p => Sys2Proof.Machine.execAeRateWindow p s
  | .aeHoldExpire p => Sys2Proof.Machine.execAeHoldExpire p s
  | .aeFrameEnd e => Sys2Proof.Machine.execAeFrameEnd e s
  | .hostFrameWrite n v => Sys2Proof.Machine.execHostFrameWrite n v s
  | .scrubVisit => Sys2Proof.Machine.execScrubVisit s
  | .bankRetention p bank idle => Sys2Proof.Machine.execBankRetention p bank idle s
  | .bankSpare l bank => Sys2Proof.Machine.execBankSpare l bank s
  | .bankSpareDone l => Sys2Proof.Machine.execBankSpareDone l s
  | .columnFault l cause bank => Sys2Proof.Machine.execColumnFault l cause bank s
  | .poolCfgWrite v => Sys2Proof.Machine.execPoolCfgWrite v s
  | .staleTailWrite v => Sys2Proof.Machine.execStaleTailWrite v s
  | .nvCmdRead len => Sys2Proof.Machine.execNvCmdRead len s
  | .nvCmdProgram len => Sys2Proof.Machine.execNvCmdProgram len s
  | .nvCmdErase len => Sys2Proof.Machine.execNvCmdErase len s
  | .nvCmdPutRecord len => Sys2Proof.Machine.execNvCmdPutRecord len s
  | .nvCmdGetRecord => Sys2Proof.Machine.execNvCmdGetRecord s
  | .nvCmdDelete => Sys2Proof.Machine.execNvCmdDelete s
  | .nvCmdTxBegin => Sys2Proof.Machine.execNvCmdTxBegin s
  | .nvCmdTxCommit => Sys2Proof.Machine.execNvCmdTxCommit s
  | .nvCmdTxAbort => Sys2Proof.Machine.execNvCmdTxAbort s
  | .nvCmdTallyInc => Sys2Proof.Machine.execNvCmdTallyInc s
  | .nvCmdTallyRead => Sys2Proof.Machine.execNvCmdTallyRead s
  | .nvOpDone pr er sp => Sys2Proof.Machine.execNvOpDone pr er sp s
  | .nvDataAccess w => Sys2Proof.Machine.execNvDataAccess w s
  | .nvProtectWrite v => Sys2Proof.Machine.execNvProtectWrite v s
  | .compaction enroll => Sys2Proof.Machine.execCompaction enroll s
  | .logAppend => Sys2Proof.Machine.execLogAppend s
  | .nvSpareMapLoad => Sys2Proof.Machine.execNvSpareMapLoad s
  | .winDataWrite v => Sys2Proof.Machine.execWinDataWrite v s
  | .winDataRead => Sys2Proof.Machine.execWinDataRead s
  | .winReadTimeout => Sys2Proof.Machine.execWinReadTimeout s
  | .postedWriteIssue => Sys2Proof.Machine.execPostedWriteIssue s
  | .postedBufferTimeout => Sys2Proof.Machine.execPostedBufferTimeout s
  | .opCmdGet v => Sys2Proof.Machine.execOpCmdGet v s
  | .opCmdPut v => Sys2Proof.Machine.execOpCmdPut v s
  | .opCmdAdd v => Sys2Proof.Machine.execOpCmdAdd v s
  | .opCmdMax v => Sys2Proof.Machine.execOpCmdMax v s
  | .opCmdSwap v => Sys2Proof.Machine.execOpCmdSwap v s
  | .opCmdCas v => Sys2Proof.Machine.execOpCmdCas v s
  | .opCmdFence v => Sys2Proof.Machine.execOpCmdFence v s
  | .hbControlMgmtRestart => Sys2Proof.Machine.execHbControlMgmtRestart s
  | .intClearWrite v => Sys2Proof.Machine.execIntClearWrite v s
  | .timeLoRead => Sys2Proof.Machine.execTimeLoRead s
  | .mgmtReplyRead => Sys2Proof.Machine.execMgmtReplyRead s
  | .powerCapWrite v => Sys2Proof.Machine.execPowerCapWrite v s
  | .alarmPolicyWrite v => Sys2Proof.Machine.execAlarmPolicyWrite v s
  | .auditCommit => Sys2Proof.Machine.execAuditCommit s
  | .linkCmdTrain p => Sys2Proof.Machine.execLinkCmdTrain p s
  | .linkCmdDisable p => Sys2Proof.Machine.execLinkCmdDisable p s
  | .linkTrainDone p locked ts => Sys2Proof.Machine.execLinkTrainDone p locked ts s
  | .linkAutoRetrain p => Sys2Proof.Machine.execLinkAutoRetrain p s
  | .linkFrameSend p => Sys2Proof.Machine.execLinkFrameSend p s
  | .linkFrameReceive p w ds => Sys2Proof.Machine.execLinkFrameReceive p w ds s
  | .laneFail p l => Sys2Proof.Machine.execLaneFail p l s
  | .linkDown p silent => Sys2Proof.Machine.execLinkDown p silent s
  | .linkNotice p n => Sys2Proof.Machine.execLinkNotice p n s
  | .linkOpTimeout => Sys2Proof.Machine.execLinkOpTimeout s
  | .linkSkewMeasure p ns => Sys2Proof.Machine.execLinkSkewMeasure p ns s
  | .portResume p notice => Sys2Proof.Machine.execPortResume p notice s
  | .pealStepStart r => Sys2Proof.Machine.execPealStepStart r s
  | .lbistSlice p ok => Sys2Proof.Machine.execLbistSlice p ok s
  | .mbistElement p cells => Sys2Proof.Machine.execMbistElement p cells s
  | .vfCalibrate p top => Sys2Proof.Machine.execVfCalibrate p top s
  | .bistCmdTestTile => Sys2Proof.Machine.execBistCmdTestTile s
  | .bistCmdRetire => Sys2Proof.Machine.execBistCmdRetire s
  | .bistCmdUnretire => Sys2Proof.Machine.execBistCmdUnretire s
  | .bistCmdStep => Sys2Proof.Machine.execBistCmdStep s
  | .tocsinEvent sources mon => Sys2Proof.Machine.execTocsinEvent sources mon s
  | .keysErase last => Sys2Proof.Machine.execKeysErase last s
  | .fuseRecheck ok => Sys2Proof.Machine.execFuseRecheck ok s
  | .keyCmdSetImageRoot => Sys2Proof.Machine.execKeyCmdSetImageRoot s
  | .keyCmdSetSiteKey => Sys2Proof.Machine.execKeyCmdSetSiteKey s
  | .keyCmdNewEnrollKey => Sys2Proof.Machine.execKeyCmdNewEnrollKey s
  | .keyCmdProgUnlockKey => Sys2Proof.Machine.execKeyCmdProgUnlockKey s
  | .lcUnlockProvision => Sys2Proof.Machine.execLcUnlockProvision s
  | .lcUnlockField => Sys2Proof.Machine.execLcUnlockField s
  | .lcUnlockService => Sys2Proof.Machine.execLcUnlockService s
  | .lcUnlockReturn => Sys2Proof.Machine.execLcUnlockReturn s
  | .lcUnlockScrap => Sys2Proof.Machine.execLcUnlockScrap s
  | .lcUnlockResponse w => Sys2Proof.Machine.execLcUnlockResponse w s
  | .lcUnlockTimeout => Sys2Proof.Machine.execLcUnlockTimeout s
  | .pwrModeListen limit => Sys2Proof.Machine.execPwrModeListen limit s
  | .pwrModeArmed limit => Sys2Proof.Machine.execPwrModeArmed limit s
  | .pwrModeFull limit => Sys2Proof.Machine.execPwrModeFull limit s
  | .listenEntryDone => Sys2Proof.Machine.execListenEntryDone s
  | .wakeStart => Sys2Proof.Machine.execWakeStart s
  | .wakeDone => Sys2Proof.Machine.execWakeDone s
  | .activityUpdate up => Sys2Proof.Machine.execActivityUpdate up s
  | .limiterUpdate power temp => Sys2Proof.Machine.execLimiterUpdate power temp s
  | .droopEvent p => Sys2Proof.Machine.execDroopEvent p s
  | .vlevelStep => Sys2Proof.Machine.execVlevelStep s
  | .syncDrive => Sys2Proof.Machine.execSyncDrive s
  | .syncEdge frac => Sys2Proof.Machine.execSyncEdge frac s
  | .syncMissed => Sys2Proof.Machine.execSyncMissed s
  | .timeCmdArm => Sys2Proof.Machine.execTimeCmdArm s
  | .mailboxPing load => Sys2Proof.Machine.execMailboxPing load s
  | .mailboxClapReq load => Sys2Proof.Machine.execMailboxClapReq load s
  | .mailboxLogFlush load => Sys2Proof.Machine.execMailboxLogFlush load s
  | .mailboxCompact load => Sys2Proof.Machine.execMailboxCompact load s
  | .loadBegin load => Sys2Proof.Machine.execLoadBegin load s
  | .loadChunk load remote => Sys2Proof.Machine.execLoadChunk load remote s
  | .loadEnd load => Sys2Proof.Machine.execLoadEnd load s
  | .loadAbort load => Sys2Proof.Machine.execLoadAbort load s
  | .seal load remote => Sys2Proof.Machine.execSeal load remote s
  | .unseal load remote => Sys2Proof.Machine.execUnseal load remote s
  | .deleteResident load => Sys2Proof.Machine.execDeleteResident load s
  | .exportRecord load remote => Sys2Proof.Machine.execExportRecord load remote s
  | .restore load remote => Sys2Proof.Machine.execRestore load remote s
  | .vfDelete load => Sys2Proof.Machine.execVfDelete load s
  | .bootCheck load => Sys2Proof.Machine.execBootCheck load s
  | .watchdogExpire => Sys2Proof.Machine.execWatchdogExpire s
  | .mgmtCoreStart => Sys2Proof.Machine.execMgmtCoreStart s
  | .deferClear load => Sys2Proof.Machine.execDeferClear load s
  | .poresetAssert => Sys2Proof.Machine.execPoresetAssert s
  | .powerUp v => Sys2Proof.Machine.execPowerUp v s
  | .selfTestDone => Sys2Proof.Machine.execSelfTestDone s
  | .tapReset => Sys2Proof.Machine.execTapReset s
  | .extest levels shifted => Sys2Proof.Machine.execExtest levels shifted s
  | .idcode => Sys2Proof.Machine.execIdcode s
  | .samplePreload levels shifted => Sys2Proof.Machine.execSamplePreload levels shifted s
  | .clamp shifted => Sys2Proof.Machine.execClamp shifted s
  | .highz shifted => Sys2Proof.Machine.execHighz shifted s
  | .bypass shifted => Sys2Proof.Machine.execBypass shifted s
  | .privateScan opcode shifted => Sys2Proof.Machine.execPrivateScan opcode shifted s
  | .entropySample ok => Sys2Proof.Machine.execEntropySample ok s
  | .clapNetHigh us => Sys2Proof.Machine.execClapNetHigh us s

end Sys2Proof.Machine
end

