-- ==== Sys2Proof/Machine/Tick.lean ====
section
/-! DEFINITION. What the device does by itself in one µs when no command waits. -/

namespace Sys2Proof.Machine

/-- What a tick takes off a slew, at most 5 % of the tick (R653). -/
def slewStep (d : Int) : Int := clampI (-5000000) 5000000 d

/-- The REFCLK time of a tick: 25 periods, corrected by TIME_TRIM in units of 0.01 ppm, and lengthened or shortened by the slew (R652, R653). -/
def State.tickLength (s : State) : Int := 100000000 - (s.rd Reg.TIME_TRIM).toInt + slewStep s.sync.slew

/-- The time base passes a tick. -/
def State.passTick (s : State) : State :=
  { s with time := s.time + 1, sync := { s.sync with refclk := s.sync.refclk + s.tickLength, slew := s.sync.slew - slewStep s.sync.slew } }

/-- The logical tiles of those listed whose clocks run are counted for ACTIVITY (R633). -/
def State.countClocks (s : State) (ls : List Nat) : State :=
  let n := (ls.filter (fun l => (s.ltile l).bit Reg.CLK_STATUS 10)).length
  { s with pwr := { s.pwr with ran := s.pwr.ran + n, ranFor := s.pwr.ranFor + 1 } }

/-- One tick (a design choice of the model): each logical tile with a RUNNING thread issues one instruction, in rising order, the tiles whose clocks
run are counted for ACTIVITY, and device time advances by 1 µs, with the slew of the time base, at which streams whose DEACTIVATE time has come stop
accepting frames and a millisecond of deferral that has passed is counted. Only tiles that hold state of their own are looked at; any other has no
RUNNING thread. While PORESET# is low and in the safe state no unit runs. -/
def State.tick (s : State) : State :=
  if s.boot.low || s.boot.safe then s
  else
    let ls := s.tiles.filterMap (fun e => s.logicalOf e.1)
    let s := (ls.foldl (fun s l => s.tileTurn l) s).countClocks ls
    s.passTick.lapse.deferCount

end Sys2Proof.Machine
end

