-- ==== Sys2Proof/Safety.lean ====
section
/-! DEFINITION. What counts as a sound state and a safe step, and the words in which the statements say what a command leaves as it was. -/

namespace Sys2Proof.Machine

/-! ### Soundness -/

/-- The memories, the registers and the tiles are in canonical form: equal contents are equal data. -/
def State.sound (s : State) : Prop :=
  s.mem.wf = true ∧ spWf chipReset s.regs = true ∧ spWf (fun _ => Tile.reset) s.tiles = true

/-- Every fuse bit that is programmed in s is programmed in t. -/
def State.fusesKept (s t : State) : Prop := ∀ i, s.keys.fuses.getLsbD i = true → t.keys.fuses.getLsbD i = true

/-- A step is safe when it answers a next state. -/
def State.goesOn (s : State) : Prop := ∃ t, step s = .next t

/-- Command c answers a next state, and P holds of it. -/
def Gives (c : Instr) (s : State) (P : State → Prop) : Prop := ∃ t, exec c s = .next t ∧ P t

/-! ### Frames -/

/-- Of the whole device only physical tile p changes, and of its control words at most those at the offsets os. -/
def State.physWords (s t : State) (p : Nat) (os : List Nat) : Prop :=
  t = { s with tiles := t.tiles } ∧ (∀ q, q ≠ p → t.tile q = s.tile q) ∧ ∀ o, o ∉ os → (t.tile p).rd o = (s.tile p).rd o

/-- Of the whole device only the tile that holds logical tile l changes, and of its control words at most those at the offsets os. -/
def State.wordsOnly (s t : State) (l : Nat) (os : List Nat) : Prop :=
  t = { s with tiles := t.tiles } ∧ (∀ q, q ≠ s.physOf l → t.tile q = s.tile q) ∧
  ∀ o, o ∉ os → (t.ltile l).rd o = (s.ltile l).rd o

/-- What a tile holds beside its control words, its threads and the record of which thread issued last. -/
def Tile.beside (t : Tile) : Tile := { t with ctl := [], thr := [], lastIssued := 0, yielded := none }

/-- Of the whole device only control words of one tile, at most those at the offsets os, and thread i's hidden state change. -/
def State.tileOnly (s t : State) (l i : Nat) (os : List Nat) : Prop :=
  s.wordsOnly t l os ∧ (t.ltile l).beside = (s.ltile l).beside ∧ ∀ j, j ≠ i → (t.ltile l).thread j = (s.ltile l).thread j

/-- Of the registers of the chip blocks and of the host bus at most those at the keys ks change. -/
def State.regsOnly (s t : State) (ks : List Nat) : Prop := ∀ k, k ∉ ks → t.rd k = s.rd k

/-- Of the whole device only registers of the chip blocks and of the host bus change, at most those at the keys ks. -/
def State.regsAt (s t : State) (ks : List Nat) : Prop := t = { s with regs := t.regs } ∧ s.regsOnly t ks

/-- Every byte of both memories reads as before, but for n bytes of one memory from key k. -/
def State.bytesOnly (s t : State) (clay : Bool) (k n : Nat) : Prop :=
  ∀ c j, ¬(c = clay ∧ k ≤ j ∧ j < k + n) → t.mem.seen c j = s.mem.seen c j

/-- The device is READY and chip block b is at work: it passed its power-up test, and no life cycle transition holds it in reset. -/
def State.unitUp (s : State) (b : Nat) : Prop := s.ready = true ∧ s.bit Reg.BIST_BLOCKS b = false ∧ s.keys.halted = false

/-- Before READY, with PORESET# high and out of the safe state, command c is ignored but for BUS_ERR (R503). -/
def State.ignoredEarly (s : State) (c : Instr) : Prop :=
  s.ready = false → s.boot.low = false → s.boot.safe = false → exec c s = .next (s.setBit Reg.INT_STATUS 5 true)

/-! ### SRAM -/

/-- n bytes of logical tile l's SRAM from offset o, as they read. -/
def State.sram (s : State) (l o n : Nat) : List Byte := s.mem.bytes false (sramKey (s.physOf l) o) n

/-- The 32-bit word at offset o of logical tile l's SRAM. -/
def State.sramWord (s : State) (l o : Nat) : Word := wd (ofBytes (s.sram l o 4))

/-- Line ln of logical tile l's SRAM is not poisoned, no error stands in it, and the three copies of its written and poison bits agree. -/
def State.cleanLine (s : State) (l ln : Nat) : Prop :=
  s.mem.poison false (sramKey (s.physOf l) 0 / 64 + ln) = false ∧ (∀ k < 8, s.mem.err false (8 * (sramKey (s.physOf l) 0 / 64 + ln) + k) = 0) ∧
  spGet (fun _ => 0) s.integ.odd (2 * (sramKey (s.physOf l) 0 / 64 + ln)) = 0

/-- n bytes from offset o lie in SRAM, in lines that have been written, are not poisoned and hold no error. -/
def State.readable (s : State) (l o n : Nat) : Prop :=
  o + n ≤ 0x40000 ∧ ∀ ln ∈ linesOf o n, s.mem.written false (sramKey (s.physOf l) 0 / 64 + ln) = true ∧ s.cleanLine l ln

/-- n bytes from offset o lie in SRAM, in no header line of an enabled ring, in lines that are not poisoned and hold no error. -/
def State.writable (s : State) (l o n : Nat) : Prop :=
  o + n ≤ 0x40000 ∧ (s.ltile l).touchesRing o n = false ∧ ∀ ln ∈ linesOf o n, s.cleanLine l ln

/-! ### Microcode -/

/-- Where a scalar operand of thread i stands in tile control space; the constants and the time stand nowhere. -/
def scalarAt (i c : Nat) : List Nat := if c < 16 then [Reg.S_REG i c] else []

/-- Where the 16 lanes of a vector operand of thread i stand. -/
def vectorAt (i c : Nat) : List Nat := (List.range 16).map (fun j => Reg.V_REG i (c - 16) j)

/-- The words that every instruction of thread i writes as it issues: T_STATUS (the pc and the state), T_ISSUED, CYCLES_ALL, CYCLES_C0. -/
def issueAt (i : Nat) : List Nat := [Reg.T_STATUS i, Reg.T_ISSUED i, Reg.CYCLES_ALL, Reg.CYCLES_C0]

/-- Thread i of logical tile l may issue: it is RUNNING, the operands are of the kinds k, and none awaits a response. -/
def State.mayIssue (s : State) (l i : Nat) (k : Uses) (u : UInsn) : Prop :=
  (s.ltile l).tstate i = tRunning ∧ k.ok u = true ∧ k.blocked (s.ltile l) i u = false

/-- The instruction after the pc lies in thread i's image. -/
def State.hasNext (s : State) (l i : Nat) : Prop := (s.ltile l).inImage i ((s.ltile l).pc i + 1) = true

/-- Thread i of logical tile l is in a state of Table 3.2, at a pc. -/
def State.at (s : State) (l i st pc : Nat) : Prop := (s.ltile l).tstate i = st ∧ (s.ltile l).pc i = pc

/-- Thread i went on from s to the instruction after its pc; of its hidden state only ISAT may have changed. -/
def State.wentOn (s t : State) (l i : Nat) : Prop :=
  t.at l i tRunning ((s.ltile l).pc i + 1) ∧
  (t.ltile l).thread i = { (s.ltile l).thread i with isat := ((t.ltile l).thread i).isat }

/-! ### Sync objects -/

/-- How often sync object n fires when its COUNT is c: not at all unless it is enabled, has not FIRED and c reaches a THRESHOLD other than 0;
once, or with REARM once for each whole multiple of a positive THRESHOLD (R144, R145). -/
def State.fireTimes (s : State) (l n : Nat) (c : Word) : Nat :=
  let cfg := (s.ltile l).rd (Reg.SYNC_CFG n)
  let th := (s.ltile l).rd (Reg.SYNC_THRESHOLD n)
  if !(wbit cfg 0 && !wbit cfg 7 && decide (th ≠ 0) && decide (th.toInt ≤ c.toInt)) then 0
  else if wbit cfg 1 && decide (0 < th.toInt) then (c.toInt / th.toInt).toNat
  else 1

/-- Sync object n of logical tile l has been tested with COUNT c: it has fired as often as it had to; with REARM COUNT has lost THRESHOLD for each
fire, without it the object is FIRED; the last fire is now, and a waiting object is PENDING. -/
def State.tested (s t : State) (l n : Nat) (c : Word) : Prop :=
  let cfg := (s.ltile l).rd (Reg.SYNC_CFG n)
  let k := s.fireTimes l n c
  (t.ltile l).rd (Reg.SYNC_COUNT n) = (if wbit cfg 1 then c - wd k * (s.ltile l).rd (Reg.SYNC_THRESHOLD n) else c) ∧
  (t.ltile l).rd (Reg.SYNC_FIRES_N n) = (s.ltile l).rd (Reg.SYNC_FIRES_N n) + wd k ∧
  (t.ltile l).bit (Reg.SYNC_CFG n) 7 = (wbit cfg 7 || !wbit cfg 1 && decide (0 < k)) ∧
  (0 < k → (t.ltile l).rd (Reg.LAST_FIRE n) = s.now32 ∧ (wfld cfg 4 2 = 1 → (t.ltile l).bit (Reg.SYNC_CFG n) 21 = true))

end Sys2Proof.Machine
end

