-- ==== Sys2Proof/Certificates/Slice0/Obligations.lean ====
section
/-! DEFINITION. The statements for the provers. -/

namespace Sys2Proof.Machine

/-- The SALU operations of two operands and what each leaves in s[DST] (Table 4.5). -/
def scalarOps : List ((Fin 256 → Fin 4 → UInsn → Instr) × (Word → Word → Word)) :=
  [(.saluAdd, fun a b => a + b), (.sub, fun a b => a - b), (.and, fun a b => a &&& b), (.or, fun a b => a ||| b),
   (.xor, fun a b => a ^^^ b), (.shl, fun a b => a <<< (b.toNat % 32)), (.shr, fun a b => a >>> (b.toNat % 32)),
   (.sra, fun a b => a.sshiftRight (b.toNat % 32)), (.mul, fun a b => a * b),
   (.mulh, fun a b => BitVec.ofInt 32 (a.toInt * b.toInt / 2 ^ 32)), (.mulhu, fun a b => BitVec.ofNat 32 (a.toNat * b.toNat / 2 ^ 32)),
   (.min, fun a b => if a.slt b then a else b), (.saluMax, fun a b => if a.slt b then b else a),
   (.minu, fun a b => if a.ult b then a else b), (.maxu, fun a b => if a.ult b then b else a),
   (.slt, fun a b => if a.slt b then 1 else 0), (.sltu, fun a b => if a.ult b then 1 else 0)]

/-- The branches: the scalars each reads and when it is taken (Table 3.6). -/
def branchOps : List ((Fin 256 → Fin 4 → UInsn → Instr) × Uses × (Word → Word → Bool)) :=
  [(.br, { dst := .no, a := .no, b := .no }, fun _ _ => true), (.brz, { dst := .no, a := .sc, b := .no }, fun a _ => a == 0),
   (.brnz, { dst := .no, a := .sc, b := .no }, fun a _ => a != 0), (.brlt, { dst := .no, a := .sc, b := .sc }, fun a b => a.slt b),
   (.brltu, { dst := .no, a := .sc, b := .sc }, fun a b => a.ult b)]

/-- The VALU operations of two vectors, lane by lane: the result from the previous lane of v[DST] and the lanes of the sources (Table 4.5). -/
def laneOps : List ((Fin 256 → Fin 4 → UInsn → Instr) × (UInsn → Word → Word → Word → Word)) :=
  [(.vadd, fun _ _ a b => a + b), (.vsub, fun _ _ a b => a - b),
   (.vmul16, fun _ _ a b => BitVec.ofInt 32 ((a.setWidth 16).toInt * (b.setWidth 16).toInt)),
   (.vshl, fun _ _ a b => a <<< (b.toNat % 32)), (.vshr, fun _ _ a b => a >>> (b.toNat % 32)),
   (.vsra, fun u _ a b => if u.imm.getLsbD 0 then BitVec.ofInt 32 (rneShift a.toInt (b.toNat % 32)) else a.sshiftRight (b.toNat % 32)),
   (.vand, fun _ _ a b => a &&& b), (.vor, fun _ _ a b => a ||| b), (.vxor, fun _ _ a b => a ^^^ b),
   (.vmin, fun _ _ a b => if a.slt b then a else b), (.vmax, fun _ _ a b => if a.slt b then b else a),
   (.vcmpge, fun _ _ a b => if a.slt b then 0 else 0xFFFFFFFF#32), (.vcmpeq, fun _ _ a b => if a = b then 0xFFFFFFFF#32 else 0),
   (.vsel, fun _ d a b => if d = 0 then b else a)]

/-- The instructions of the CTRL class and their operations (Table 3.6). -/
def microOps0 : List ((Fin 256 → Fin 4 → UInsn → Instr) × UOp) :=
  [(.nop, uNop), (.halt, uHalt), (.idle, uIdle), (.br, uBr), (.brz, uBrz), (.brnz, uBrnz), (.brlt, uBrlt), (.brltu, uBrltu),
   (.call, uCall), (.ret, uRet), (.loop, uLoop), (.yield, uYield)]

/-- The instructions of the SALU class and their operations (Table 3.6). -/
def microOps1 : List ((Fin 256 → Fin 4 → UInsn → Instr) × UOp) :=
  [(.saluAdd, uSaluAdd), (.sub, uSub), (.and, uAnd), (.or, uOr), (.xor, uXor), (.shl, uShl), (.shr, uShr), (.sra, uSra), (.mul, uMul),
   (.mulh, uMulh), (.mulhu, uMulhu), (.min, uMin), (.saluMax, uSaluMax), (.minu, uMinu), (.maxu, uMaxu), (.slt, uSlt), (.sltu, uSltu),
   (.li, uLi), (.lih, uLih)]

/-- The instructions of the VALU class and their operations (Table 3.6). -/
def microOps2 : List ((Fin 256 → Fin 4 → UInsn → Instr) × UOp) :=
  [(.vadd, uVadd), (.vsub, uVsub), (.vmul16, uVmul16), (.vmulq, uVmulq), (.vshl, uVshl), (.vshr, uVshr), (.vsra, uVsra), (.vand, uVand),
   (.vor, uVor), (.vxor, uVxor), (.vmin, uVmin), (.vmax, uVmax), (.vcmpge, uVcmpge), (.vcmpeq, uVcmpeq), (.vsel, uVsel), (.vsat, uVsat),
   (.vbcast, uVbcast), (.vredadd, uVredadd), (.vredmax, uVredmax), (.vlane, uVlane)]

/-- The instructions of the LDST class and their operations (Table 3.6). -/
def microOps3 : List ((Fin 256 → Fin 4 → UInsn → Instr) × UOp) :=
  [(.ld, uLd), (.st, uSt), (.vld, uVld), (.vst, uVst), (.vldx, uVldx), (.vstx, uVstx)]

/-- The instructions of the NEURON class and their operations (Table 3.6). -/
def microOps4 : List ((Fin 256 → Fin 4 → UInsn → Instr) × UOp) :=
  [(.slotTake, uSlotTake), (.slotAdd, uSlotAdd), (.spike, uSpike), (.spike1, uSpike1), (.beatRead, uBeatRead)]

/-- The instructions of the MATRIX class and their operations (Table 3.6). -/
def microOps5 : List ((Fin 256 → Fin 4 → UInsn → Instr) × UOp) :=
  [(.mmStart, uMmStart), (.mmWait, uMmWait), (.accRd, uAccRd), (.accWr, uAccWr), (.accClr, uAccClr)]

/-- The instructions of the GATE class and their operations (Table 3.6). -/
def microOps6 : List ((Fin 256 → Fin 4 → UInsn → Instr) × UOp) :=
  [(.gpStart, uGpStart), (.gpWait, uGpWait), (.gpLane, uGpLane)]

/-- The instructions of the SCAN class and their operations (Table 3.6). -/
def microOps7 : List ((Fin 256 → Fin 4 → UInsn → Instr) × UOp) :=
  [(.scStart, uScStart), (.scWait, uScWait)]

/-- The instructions of the REMOTE class and their operations (Table 3.6). -/
def microOps8 : List ((Fin 256 → Fin 4 → UInsn → Instr) × UOp) :=
  [(.remoteGet, uRemoteGet), (.remotePut, uRemotePut), (.remoteAdd, uRemoteAdd), (.remoteMax, uRemoteMax), (.remoteSwap, uRemoteSwap),
   (.remoteCas, uRemoteCas), (.gsum, uGsum), (.remotePost, uRemotePost), (.remoteFence, uRemoteFence)]

/-- The instructions of the SYNC class and their operations (Table 3.6). -/
def microOps9 : List ((Fin 256 → Fin 4 → UInsn → Instr) × UOp) :=
  [(.wait, uWait), (.waitt, uWaitt), (.signal, uSignal), (.pop, uPop)]

/-- The instructions of the STAT class and their operations (Table 3.6). -/
def microOps10 : List ((Fin 256 → Fin 4 → UInsn → Instr) × UOp) :=
  [(.maRead, uMaRead), (.maClear, uMaClear), (.flagsRead, uFlagsRead), (.flagsClear, uFlagsClear), (.cntRead, uCntRead)]

/-- Every microcode instruction and its operation. -/
def microOps : List ((Fin 256 → Fin 4 → UInsn → Instr) × UOp) :=
  microOps0 ++ microOps1 ++ microOps2 ++ microOps3 ++ microOps4 ++ microOps5 ++ microOps6 ++ microOps7 ++ microOps8 ++ microOps9 ++ microOps10

/-- The engine start instructions: the engine, the checks of a descriptor (R116) and whether it takes the next line too (R243). -/
def startOps : List ((Fin 256 → Fin 4 → UInsn → Instr) × Engine × (Tile → Nat → List Byte → List Byte → Option Nat) × (List Byte → Bool)) :=
  [(.mmStart, .matrix, mmFault, mmFwd), (.gpStart, .gate, fun t c d _ => gateFault t c d, fun _ => false),
   (.scStart, .scan, fun _ _ d _ => scFault d, fun _ => false)]

/-- The engine wait instructions, and whether a thread still has a job of theirs: of GP_WAIT also the gate job of a forwarded pair (R187). -/
def waitOps : List ((Fin 256 → Fin 4 → UInsn → Instr) × (Tile → Nat → Bool)) :=
  [(.mmWait, fun t i => t.hasJob .matrix i), (.gpWait, Tile.hasGate), (.scWait, fun t i => t.hasJob .scan i)]

/-- A REMOTE instruction as it leaves the tile: its opcode, ARG0, payload and the bytes of its result, and the SRAM bytes at s[SRCB] that must be
readable for it. -/
structure RemoteForm where
  op      : Nat
  arg0    : Word
  payload : List Byte
  result  : Nat
  reads   : Nat

/-- An operand of n bytes: s[SRCB] up to 4 bytes, else n bytes of SRAM at s[SRCB] (R117). -/
def State.remoteForm (s : State) (l i op : Nat) (u : UInsn) (result : Nat) : RemoteForm :=
  let n := remoteWidth op u
  if n ≤ 4 then { op := op, arg0 := s.sget l i u.srcb, payload := [], result := result, reads := 0 }
  else { op := op, arg0 := 0, payload := s.sram l (s.sget l i u.srcb).toNat n, result := result, reads := n }

/-- The REMOTE instructions that leave the tile (Table 2.11, R117, R223): CAS reads a compare and a swap value from SRAM, GSUM its descriptor flits,
five of them with WEIGHTED. -/
def State.remoteForms (s : State) (l : Fin 256) (i : Fin 4) (u : UInsn) : List (Instr × RemoteForm) :=
  let at' := (s.sget l i u.srcb).toNat
  let n := remoteWidth 6 u
  let words := if wbit (s.sramWord l at') 9 then 80 else 48
  let count := min 256 (ofBytes (s.sram l at' 8) / 2 ^ 26 % 2 ^ 9)
  [(.remoteGet l i u, { op := 1, arg0 := 0, payload := [], result := remoteWidth 1 u, reads := 0 }),
   (.remotePut l i u, s.remoteForm l i 2 u 4), (.remoteAdd l i u, s.remoteForm l i 3 u (remoteWidth 3 u)),
   (.remoteMax l i u, s.remoteForm l i 4 u (remoteWidth 4 u)), (.remoteSwap l i u, s.remoteForm l i 5 u (remoteWidth 5 u)),
   (.remoteCas l i u, if n = 4 then { op := 6, arg0 := s.sramWord l at', payload := s.sram l (at' + 4) 4, result := 4, reads := 8 }
                      else { op := 6, arg0 := 0, payload := s.sram l at' (2 * n), result := n, reads := 2 * n }),
   (.gsum l i u, { op := 7, arg0 := 0, payload := s.sram l at' words, result := 4 * count, reads := words }),
   (.remotePost l i u, { op := 8, arg0 := s.sget l i u.srcb, payload := [], result := 0, reads := 0 })]

/-- A request reaches logical tile l of this chip: the tile is present and not gated, nothing of its lane, its VC or another source is ahead of it
(R68, R72), no relocation is under way, no stream's frame ends with it, and its epoch and range are as they must be (R76). -/
def State.meets (s : State) (r : ReqFlit) (l : Nat) : Prop :=
  Addr.chip r.addr = s.chipId.toNat ∧ Addr.tile r.addr = l ∧ Addr.space r.addr ≠ 3 ∧ s.behindLane r = false ∧ s.outranked s.canServe r = false ∧
  (∀ m ∈ s.fab.marks, m.req ≠ r) ∧ s.mapState l ≠ 3 ∧ s.tileShut l = false ∧ (s.ltile l).vcHeld r = false ∧ s.relocOf l = none ∧
  (r.anyEpoch = true ∨ r.epoch.toNat = s.epochOf l) ∧ outOfRange r = false

/-- It reaches the tile, and its alignment and form are as they must be (R76). -/
def State.arrives (s : State) (r : ReqFlit) (l : Nat) : Prop := s.meets r l ∧ misaligned r = false ∧ notAllowed r = false

/-- How a request is answered: the acknowledged form by one response at its priority, with the code, the flags, DATA0 and the payload, if a route to its
issuer's chip is FOUND, else by none; the posted form in what is owed its issuer (R74, R81, R694). -/
def State.answered (s t : State) (r : ReqFlit) (code flags : Nat) (data0 : Word) (payload : List Byte) : Prop :=
  (r.ack = true → t.fab.owed = s.fab.owed ∧ t.fab.resps = s.fab.resps ++ if s.routed r.srcChip = false then [] else
    [{ prio := if r.prio = 3 then 1 else r.prio, epoch := if Addr.space r.addr = 3 then 0 else BitVec.ofNat 8 (s.epochOf (Addr.tile r.addr)),
       status := BitVec.ofNat 8 code,
       flags := BitVec.ofNat 8 flags, tag := r.tag, dstChip := r.srcChip, dstTile := r.srcTile, dstUnit := r.srcUnit,
       data0 := data0, aux := 0, payload := payload }]) ∧
  (r.ack = false → t.fab.resps = s.fab.resps ∧ t.fab.owed = (s.owe r (if code = 0 then 1 else 0) (if code = 0 then 0 else 1)).fab.owed)

/-- A request is answered with a result: one of at most 4 bytes in DATA0, a larger one as payload (R75, Table 2.16). -/
def State.answers (s t : State) (r : ReqFlit) (code flags : Nat) (bs : List Byte) : Prop :=
  s.answered t r code flags (if bs.length ≤ 4 then wd (ofBytes bs) else 0) (if bs.length ≤ 4 then [] else bs)

/-- Beside the fabric, memory and control words os of logical tile l, only that tile's clock runs on. -/
def State.tookAt (s t : State) (l : Nat) (os : List Nat) : Prop :=
  { s with fab := t.fab, mem := t.mem }.wordsOnly t l (Reg.CLK_STATUS :: os)

/-- The atomics of 4 bytes: code, TYPE, and what each writes over the old value from ARG0 and the payload's first word (Table 2.12). -/
def wordAtomics : List ((ReqFlit → Instr) × BitVec 5 × BitVec 3 × (Word → Word → Word → Option Word)) :=
  [(.add, 3, 0, fun old a _ => some (old + a)), (.add, 3, 2, fun old a _ => some (fAdd false old a).1),
   (.max, 4, 0, fun old a _ => some (if old.slt a then a else old)), (.max, 4, 1, fun old a _ => some (if old.ult a then a else old)),
   (.max, 4, 2, fun old a _ => some (fMax false old a)),
   (.swap, 5, 0, fun _ a _ => some a), (.cas, 6, 0, fun old a p => if old = a then some p else none)]

/-- The atomics of 8 bytes: what each writes over the old value from the payload's first and second 8 bytes (Table 2.12). -/
def doubleAtomics : List ((ReqFlit → Instr) × BitVec 5 × BitVec 3 × (DWord → DWord → DWord → Option DWord)) :=
  [(.add, 3, 1, fun old a _ => some (old + a)), (.max, 4, 3, fun old a _ => some (if old.slt a then a else old)),
   (.max, 4, 4, fun old a _ => some (if old.ult a then a else old)), (.swap, 5, 1, fun _ a _ => some a),
   (.cas, 6, 1, fun old a p => if old = a then some p else none)]

/-- Ring n of a tile is enabled, and it alone has a header line that holds offset o. -/
def Tile.ringHolds (t : Tile) (n : Fin 8) (o : Nat) : Prop :=
  t.ringOn n = true ∧ ∀ m : Fin 8, t.ringOn m = true → t.ringBase m ≤ o → o < t.ringBase m + 64 → m = n

/-- The data of a push into ring n: it stands in the slot of HEAD, which rises by one, as RING_PUSHES does; where no slot of the ring waits as ready,
COMMIT rises with a HEAD it was equal to, and else stays (R137, R138). -/
def State.pushed (s t : State) (l : Nat) (n : Fin 8) (data : List Byte) : Prop :=
  let base := (s.ltile l).ringBase n
  let head := s.ringWord l n 0
  let slot := (s.ltile l).ringSlot n head.toNat
  t.sram l slot data.length = data ∧ t.sramWord l base = head + 1 ∧
  (t.ltile l).rd (Reg.RING_PUSHES n) = (s.ltile l).rd (Reg.RING_PUSHES n) + 1 ∧
  ((∀ e ∈ (s.ltile l).ready, e.1 ≠ n.val) →
    t.sramWord l (base + 4) = (if s.ringWord l n 1 = head then head + 1 else s.ringWord l n 1) ∧
    (t.ltile l).ready = (s.ltile l).ready ++ (if s.ringWord l n 1 = head then [] else [(n.val, head.toNat)])) ∧
  ∀ c j, ¬(c = false ∧ sramKey (s.physOf l) base ≤ j ∧ j < sramKey (s.physOf l) base + 8) →
    ¬(c = false ∧ sramKey (s.physOf l) slot ≤ j ∧ j < sramKey (s.physOf l) slot + data.length) → t.mem.seen c j = s.mem.seen c j

/-- A PUT reaches chip block b of this chip at an offset, and the block may apply it (R76). -/
def State.arrivesBlock (s : State) (r : ReqFlit) (b off : Nat) : Prop :=
  Addr.chip r.addr = s.chipId.toNat ∧ Addr.space r.addr = 3 ∧ Addr.tile r.addr = b ∧ Addr.off r.addr = off ∧ r.op = 2 ∧ r.size = 2 ∧
  s.behindLane r = false ∧ s.outranked s.canServe r = false ∧ (∀ m ∈ s.fab.marks, m.req ≠ r) ∧ s.bit Reg.BIST_BLOCKS b = false ∧
    s.keys.halted = false ∧ outOfRange r = false ∧ misaligned r = false ∧ notAllowed r = false

/-- A posted request of a chip block leaves it: it is on its way, or, where no place is free on its way or one of its source waits before it, it waits
(R235). -/
def State.blockPosted (s t : State) (r : ReqFlit) : Prop :=
  let free := s.blockHeld r = false ∧ ∀ q ∈ s.fab.waiting, sameSource r q = false
  (free → t.fab.inflight = s.fab.inflight ++ [r] ∧ t.fab.waiting = s.fab.waiting) ∧
  (¬free → t.fab.inflight = s.fab.inflight ∧ t.fab.waiting = s.fab.waiting ++ [r])

/-- A record goes into the device result ring, which had room: the ring's slot holds it, RES_HEAD rises, and RECORDS counts it (R326). -/
def State.ringRecord (s t : State) (rec : List Byte) : Prop :=
  let h := s.rd Reg.RES_HEAD
  t.rd Reg.RES_HEAD = h + 1 ∧ (∀ j < 8, t.rd (Reg.DEV_RING (h.toNat % 1024) j) = wordAt rec (4 * j)) ∧
  t.rd Reg.RECORDS = satAdd (s.rd Reg.RECORDS) 1

/-- A clap with a mask of causes and a stamp is taken: its causes and stamp are shown, it is counted, HELD follows HOLD_EN, the interrupt is raised, the
counters of the chip blocks stand in the snapshot area and those of every tile with a role and power in its own, its clock awake (R560, R561, R567 to
R569, R571, R100, R155). -/
def State.clapped (s t : State) (causes stamp : Nat) : Prop :=
  t.rd Reg.CLAP_CAUSE = wd causes ∧ t.rd Reg.CLAP_COUNT = s.rd Reg.CLAP_COUNT + 1 ∧ t.rd Reg.CLAP_STAMP_LO = wd stamp ∧
  t.rd Reg.CLAP_STAMP_HI = wd (stamp / 2 ^ 32) ∧ (s.bit Reg.CLAP_CTRL 2 = true → t.bit Reg.CLAP_CTRL 3 = true) ∧ t.bit Reg.INT_STATUS 10 = true ∧
  (∀ b o d, b < 16 → o < 0x100000 → snapOffset b o = some d → t.rd (blockKey 8 d) = s.rd (blockKey b o)) ∧
  ∀ l : Fin 256, s.mapState l ≠ 3 → s.tileGated (s.physOf l) = false →
    (∀ i < 18, (t.ltile l).rd (Reg.SNAPSHOT i) = (s.ltile l).rd (0x1000 + 4 * i)) ∧
    (t.ltile l).rd Reg.SNAP_STAMP_LO = wd stamp ∧ (t.ltile l).rd Reg.SNAP_STAMP_HI = wd (stamp / 2 ^ 32) ∧
    (t.ltile l).bit Reg.CLK_STATUS 10 = true

/-- A command that names logical tile l has answered a completion code; its clock runs, and beside it only control words of that tile at the offsets os
have changed (R100). -/
def State.atTile (s t : State) (l code : Nat) (os : List Nat) : Prop :=
  (t.ltile l).bit Reg.CLK_STATUS 10 = true ∧ { s with lastStatus := BitVec.ofNat 8 code }.wordsOnly t l (Reg.CLK_STATUS :: os)

/-- A command that names logical tile l finds no tile to reach: it changes nothing but the completion code, ERR_RETIRED where the role is RETIRED, else
ERR_BUSY (R592, R597, R644). -/
def State.noTile (s : State) (c : Instr) (l : Nat) : Prop :=
  s.tileUp l = false → exec c s = .next { s with lastStatus := if s.mapState l = 3 then 0x07 else 0x0B }

/-- The parameter store takes a command: the device drives the bus, block 0x09 works, no life cycle transition holds it, and no command is pending. -/
def State.storeOpen (s : State) : Prop :=
  s.boot.low = false ∧ s.boot.safe = false ∧ s.bit Reg.BIST_BLOCKS 9 = false ∧ s.keys.halted = false ∧ s.nvPending = false

/-- A command of the parameter store has ended with a code: NV_STATUS.ERR, PENDING and NV_DONE (R463). -/
def State.storeEnded (t : State) (err : Nat) : Prop :=
  t.fld Reg.NV_STATUS 5 2 = err ∧ t.bit Reg.NV_STATUS 1 = false ∧ t.bit Reg.INT_STATUS 6 = true

/-- A command of the parameter store that waits for the die: it is the youngest of the host's, and PENDING. -/
def State.storeQueued (s t : State) (w : NvWork) : Prop :=
  t.nv = { s.nv with bufPos := 0, queue := s.nv.queue ++ [{ work := w, host := true }], started := t.nvCurrent } ∧ t.bit Reg.NV_STATUS 1 = true ∧
  s.regsAt { t with nv := s.nv } [Reg.NV_STATUS]

/-- An acknowledged operation of the host port goes out with the lowest free tag: the port keeps it, and the request is on its way (R62, R67, R498). -/
def State.hostSent (s t : State) (use : HostUse) (r : ReqFlit) : Prop :=
  t.host.out = s.host.out ++ [{ seq := s.host.seq, use := use, acked := true, prio := r.prio, tag := s.hostTag, target := targetKey r.addr, since := s.now }] ∧
  t.host.seq = s.host.seq + 1 ∧ t.fab.inflight = s.fab.inflight ++ [s.stampEpoch { r with tag := s.hostTag }]

/-- The host restarts the management core, or its watchdog does: the core stands in reset, the restart is counted and its cause and time are shown
(R506, R668). -/
def State.restarted (s t : State) (cause : Nat) : Prop :=
  t.fld Reg.MB_STATUS 1 0 = 0 ∧ t.fld Reg.HB_STATUS 15 8 = min 255 (s.fld Reg.HB_STATUS 15 8 + 1) ∧
  t.rd Reg.WDOG_RESTARTS = satAdd (s.rd Reg.WDOG_RESTARTS) 1 ∧ t.rd Reg.RESTART_CAUSE = wd cause ∧ t.rd Reg.RESTART_TIME = s.now32 ∧
  t.bit Reg.INT_STATUS 13 = true ∧ t.mgmt.run = none ∧ t.mem = s.mem ∧ t.tiles = s.tiles

/-- A mailbox command is alone in its queue, the core runs and has neither a chunk nor another command under way, no append goes before it unless it is
of priority 0, the die is free if it writes it, the way to a row that it reads is free, and the reply queue has room (R657, R658, R661). -/
def State.ownTurn (s : State) (c : MailCmd) (code : Nat) : Prop :=
  s.mgmt.queue = [c] ∧ s.mgmt.run = none ∧ s.mgmt.job = none ∧ s.coreTakes = true ∧ c.code = code ∧ s.mgmt.replies.length < 8 ∧
  (c.prio = 0 ∨ s.nvAppends = false) ∧ (c.writesDie = true → s.dieTakes = true) ∧ c.rowAt.any (s.coreWaits 1) = false

/-- The command has been answered with a status and data: its reply is queued, and the first record that waits for the reply of such a command holds
it, at the place it took when the command was written (R523, R661). -/
def State.replied (s t : State) (c : MailCmd) (status data : Nat) : Prop :=
  let w := wd (c.tag + 2 ^ 7 + 2 ^ 8 * status + 2 ^ 16 * (data % 65536))
  let mine := fun (e : AuditEntry) => e.due && wordAt e.payload 8 == c.word
  t.mgmt.queue = [] ∧ t.mgmt.replies = s.mgmt.replies ++ [w] ∧ t.mgmt.heldReplies = [] ∧
  ∀ before e after, s.nv.audit = before ++ e :: after → mine e = true → (∀ x ∈ before, mine x = false) →
    (before ++ { e with payload := e.payload.take 12 ++ toBytes 4 w.toNat ++ e.payload.drop 16, due := false } :: after) <+: t.nv.audit

end Sys2Proof.Machine

open Sys2Proof Sys2Proof.Machine

/-- The SALU operations of two operands leave the value of Table 4.5 in s[DST], LI its IMM[31:0] and LIH its IMM[15:0] in bits [31:16], bits [15:0]
kept, whatever the fields they do not use hold; SLT and SLTU write 1 or 0 (R697); nothing else changes but the words every issue writes. -/
def Obligations.ScalarInstructions : Prop :=
  (∀ (l : Fin 256) (i : Fin 4) (u : UInsn) (s : State),
     ∀ p ∈ scalarOps, s.mayIssue l i { dst := .sc, a := .sc, b := .sc } u → s.hasNext l i →
       Gives (p.1 l i u) s fun t =>
         s.wentOn t l i ∧
         (u.dst.toNat < 16 → (t.ltile l).rd (Reg.S_REG i u.dst.toNat) = p.2 (s.sget l i u.srca) (s.sget l i u.srcb)) ∧
         s.tileOnly t l i (scalarAt i u.dst.toNat ++ issueAt i)) ∧
  ∀ (l : Fin 256) (i : Fin 4) (u : UInsn) (s : State),
    s.mayIssue l i { dst := .sc, a := .no, b := .no } u → s.hasNext l i →
      (Gives (.li l i u) s fun t =>
        s.wentOn t l i ∧
        (u.dst.toNat < 16 → (t.ltile l).rd (Reg.S_REG i u.dst.toNat) = BitVec.ofNat 32 u.imm.toNat) ∧
        s.tileOnly t l i (scalarAt i u.dst.toNat ++ issueAt i)) ∧
      (Gives (.lih l i u) s fun t =>
        s.wentOn t l i ∧
        (u.dst.toNat < 16 →
          wfld ((t.ltile l).rd (Reg.S_REG i u.dst.toNat)) 31 16 = u.imm.toNat % 2 ^ 16 ∧
          wfld ((t.ltile l).rd (Reg.S_REG i u.dst.toNat)) 15 0 =
            wfld ((s.ltile l).rd (Reg.S_REG i u.dst.toNat)) 15 0) ∧
        s.tileOnly t l i (scalarAt i u.dst.toNat ++ issueAt i))

/-- A branch goes to IMM[10:0] when its condition holds and to the next word when not; LOOP takes one from s[DST] and branches while it is not 0.
Where the place lies outside the thread's image, the thread faults SPLIT at that instruction, and of the tile's words only T_STATUS changes (Table
3.6, R696). -/
def Obligations.Branches : Prop :=
  ∀ (l : Fin 256) (i : Fin 4) (u : UInsn) (s : State),
    let split := fun (t : State) =>
      (t.tile (s.physOf l)).tstate i = tFault ∧ (t.tile (s.physOf l)).fld (Reg.T_STATUS i) 21 16 = 7 ∧
      (t.tile (s.physOf l)).pc i = (s.ltile l).pc i ∧ (∀ o, o ≠ Reg.T_STATUS i → (t.tile (s.physOf l)).rd o = (s.ltile l).rd o) ∧ t.mem = s.mem
    (∀ p ∈ branchOps, s.mayIssue l i p.2.1 u →
      let dest := if p.2.2 (s.sget l i u.srca) (s.sget l i u.srcb) then u.imm.toNat % 2048 else (s.ltile l).pc i + 1
      ((s.ltile l).inImage i dest = true → Gives (p.1 l i u) s fun t =>
        t.at l i tRunning dest ∧ s.tileOnly t l i (issueAt i)) ∧
      ((s.ltile l).inImage i dest = false → Gives (p.1 l i u) s split)) ∧
    (s.mayIssue l i { dst := .sc, a := .no, b := .no } u →
      let v := s.sget l i u.dst - 1
      let dest := if v ≠ 0 then u.imm.toNat % 2048 else (s.ltile l).pc i + 1
      ((s.ltile l).inImage i dest = true → Gives (.loop l i u) s fun t =>
        t.at l i tRunning dest ∧
        (u.dst.toNat < 16 → (t.ltile l).rd (Reg.S_REG i u.dst.toNat) = v) ∧
        s.tileOnly t l i (scalarAt i u.dst.toNat ++ issueAt i)) ∧
      ((s.ltile l).inImage i dest = false → Gives (.loop l i u) s split))

/-- CALL pushes the following word's address on the call stack of eight entries and jumps; RET jumps to the last and pops it. A ninth CALL and a RET
with an empty stack fault STACK. The registers stay (Table 3.6, R121). -/
def Obligations.CallsAndReturns : Prop :=
  ∀ (l : Fin 256) (i : Fin 4) (u : UInsn) (s : State), s.mayIssue l i { dst := .no, a := .no, b := .no } u →
    (((s.ltile l).thread i).stack.length < 8 → (s.ltile l).inImage i (u.imm.toNat % 2048) = true →
      Gives (.call l i u) s fun t =>
        t.at l i tRunning (u.imm.toNat % 2048) ∧
        ((t.ltile l).thread i).stack = ((s.ltile l).pc i + 1) :: ((s.ltile l).thread i).stack ∧
        s.tileOnly t l i (issueAt i)) ∧
    (∀ p r, ((s.ltile l).thread i).stack = p :: r → (s.ltile l).inImage i p = true →
      Gives (.ret l i u) s fun t =>
        t.at l i tRunning p ∧ ((t.ltile l).thread i).stack = r ∧ s.tileOnly t l i (issueAt i)) ∧
    (8 ≤ ((s.ltile l).thread i).stack.length → Gives (.call l i u) s fun t =>
      (t.tile (s.physOf l)).tstate i = tFault ∧
      (t.tile (s.physOf l)).fld (Reg.T_STATUS i) 21 16 = 6) ∧
    (((s.ltile l).thread i).stack = [] → Gives (.ret l i u) s fun t =>
      (t.tile (s.physOf l)).tstate i = tFault ∧
      (t.tile (s.physOf l)).fld (Reg.T_STATUS i) 21 16 = 6)

/-- NOP goes on; HALT leaves the thread HALTED with its pc at the following word; YIELD goes on and gives way to the others of its class; IDLE leaves
it IDLE when no dispatch waits (Table 3.2, Table 3.6, R111). -/
def Obligations.NopHaltYieldIdle : Prop :=
  ∀ (l : Fin 256) (i : Fin 4) (u : UInsn) (s : State), s.mayIssue l i { dst := .no, a := .no, b := .no } u →
    (s.hasNext l i →
      (Gives (.nop l i u) s fun t => s.wentOn t l i ∧ s.tileOnly t l i (issueAt i)) ∧
      (Gives (.halt l i u) s fun t =>
        t.at l i tHalted ((s.ltile l).pc i + 1) ∧ s.tileOnly t l i (issueAt i)) ∧
      (Gives (.yield l i u) s fun t =>
        s.wentOn t l i ∧ (t.ltile l).yielded = some ↑i ∧ s.tileOnly t l i (issueAt i))) ∧
    (((s.ltile l).thread i).dispq = [] → Gives (.idle l i u) s fun t =>
      t.at l i tIdle ((s.ltile l).pc i) ∧ s.tileOnly t l i (issueAt i))

/-- Each VALU operation of two vectors writes all 16 lanes of v[DST], lane by lane, and goes on; nothing else changes but the words every issue writes
(Table 4.5, R173, R698). -/
def Obligations.LaneOperations : Prop :=
  ∀ (l : Fin 256) (i : Fin 4) (u : UInsn) (s : State),
    ∀ p ∈ laneOps, s.mayIssue l i { dst := .vec, a := .vec, b := .vec } u → s.hasNext l i →
      Gives (p.1 l i u) s fun t =>
        s.wentOn t l i ∧
        (∀ j < 16, (t.ltile l).lane i u.dst.toNat j =
          p.2 u ((s.ltile l).lane i u.dst.toNat j) ((s.ltile l).lane i u.srca.toNat j) ((s.ltile l).lane i u.srcb.toNat j)) ∧
        s.tileOnly t l i (vectorAt i u.dst.toNat ++ issueAt i)

/-- VBCAST fills v[DST] with a scalar, or with the lane IMM[3:0] of a vector; VLANE copies one lane to s[DST], or with IMM[4] = 1 a scalar into one
lane of v[DST]; VREDADD and VREDMAX leave the sum modulo 2^32 and the signed maximum of 16 lanes in s[DST]. Nothing else changes but the words every
issue writes (Table 4.5, R698). -/
def Obligations.LaneMoves : Prop :=
  ∀ (l : Fin 256) (i : Fin 4) (u : UInsn) (s : State), s.hasNext l i →
    (s.mayIssue l i { dst := .vec, a := .either, b := .no } u → Gives (.vbcast l i u) s fun t =>
      s.wentOn t l i ∧
      (∀ j < 16, (t.ltile l).lane i u.dst.toNat j =
        if isVector u.srca.toNat then (s.ltile l).lane i u.srca.toNat (u.imm.toNat % 16) else s.sget l i u.srca) ∧
      s.tileOnly t l i (vectorAt i u.dst.toNat ++ issueAt i)) ∧
    (u.imm.getLsbD 4 = true → s.mayIssue l i { dst := .vec, a := .sc, b := .no } u → Gives (.vlane l i u) s fun t =>
      s.wentOn t l i ∧ (t.ltile l).lane i u.dst.toNat (u.imm.toNat % 16) = s.sget l i u.srca ∧
      s.tileOnly t l i (Reg.V_REG i (u.dst.toNat - 16) (u.imm.toNat % 16) :: issueAt i)) ∧
    (s.mayIssue l i { dst := .sc, a := .vec, b := .no } u →
      (u.imm.getLsbD 4 = false → Gives (.vlane l i u) s fun t =>
        s.wentOn t l i ∧
        (u.dst.toNat < 16 → (t.ltile l).rd (Reg.S_REG i u.dst.toNat) = (s.ltile l).lane i u.srca.toNat (u.imm.toNat % 16)) ∧
        s.tileOnly t l i (scalarAt i u.dst.toNat ++ issueAt i)) ∧
      (Gives (.vredadd l i u) s fun t =>
        s.wentOn t l i ∧
        (u.dst.toNat < 16 → (t.ltile l).rd (Reg.S_REG i u.dst.toNat) =
          ((List.range 16).map (fun j => (s.ltile l).lane i u.srca.toNat j)).sum) ∧
        s.tileOnly t l i (scalarAt i u.dst.toNat ++ issueAt i)) ∧
      (Gives (.vredmax l i u) s fun t =>
        s.wentOn t l i ∧
        (u.dst.toNat < 16 →
          (∃ j < 16, (t.ltile l).rd (Reg.S_REG i u.dst.toNat) = (s.ltile l).lane i u.srca.toNat j) ∧
          ∀ j < 16, ((s.ltile l).lane i u.srca.toNat j).toInt ≤ ((t.ltile l).rd (Reg.S_REG i u.dst.toNat)).toInt) ∧
        s.tileOnly t l i (scalarAt i u.dst.toNat ++ issueAt i)))

/-- VMULQ leaves the rounded Q1.15 product of the low 16 bits of each pair of lanes, saturated to 16 bits, and VSAT the lane saturated to N = IMM[4:0]
+ 1 bits, unsigned with IMM[5] = 1; SAT_COUNT counts each lane that saturates, and any sets ISAT (Table 4.5, R175). -/
def Obligations.SaturatingLanes : Prop :=
  ∀ (l : Fin 256) (i : Fin 4) (u : UInsn) (s : State), s.hasNext l i →
    (s.mayIssue l i { dst := .vec, a := .vec, b := .vec } u →
      let q := fun j => rneShift ((((s.ltile l).lane i u.srca.toNat j).setWidth 16).toInt * (((s.ltile l).lane i u.srcb.toNat j).setWidth 16).toInt) 15
      let n := (List.range 16).countP (fun j => decide (q j < -2 ^ 15 ∨ 2 ^ 15 ≤ q j))
      Gives (.vmulq l i u) s fun t =>
        s.wentOn t l i ∧
        (∀ j < 16, (t.ltile l).lane i u.dst.toNat j = BitVec.ofInt 32 (max (-2 ^ 15) (min (2 ^ 15 - 1) (q j)))) ∧
        (t.ltile l).rd Reg.SAT_COUNT = satAdd ((s.ltile l).rd Reg.SAT_COUNT) n ∧
        ((t.ltile l).thread i).isat = (((s.ltile l).thread i).isat || decide (0 < n)) ∧
        s.tileOnly t l i (vectorAt i u.dst.toNat ++ Reg.SAT_COUNT :: issueAt i)) ∧
    (s.mayIssue l i { dst := .vec, a := .vec, b := .no } u →
      let k := u.imm.toNat % 32 + 1
      let lo : Int := if u.imm.getLsbD 5 then 0 else -2 ^ (k - 1)
      let hi : Int := if u.imm.getLsbD 5 then 2 ^ k - 1 else 2 ^ (k - 1) - 1
      let n := (List.range 16).countP (fun j =>
        decide (((s.ltile l).lane i u.srca.toNat j).toInt < lo ∨ hi < ((s.ltile l).lane i u.srca.toNat j).toInt))
      Gives (.vsat l i u) s fun t =>
        s.wentOn t l i ∧
        (∀ j < 16, (t.ltile l).lane i u.dst.toNat j = BitVec.ofInt 32 (max lo (min hi ((s.ltile l).lane i u.srca.toNat j).toInt))) ∧
        (t.ltile l).rd Reg.SAT_COUNT = satAdd ((s.ltile l).rd Reg.SAT_COUNT) n ∧
        ((t.ltile l).thread i).isat = (((s.ltile l).thread i).isat || decide (0 < n)) ∧
        s.tileOnly t l i (vectorAt i u.dst.toNat ++ Reg.SAT_COUNT :: ((List.range 16).map Reg.MA_MAX ++ (List.range 16).map Reg.MA_SAT) ++ issueAt i))

/-- A load of the LDST class reads elements of the type IMM[20:18] at s[SRCA] + IMM[17:0]: LD one to s[DST], VLD 16 in a row to the lanes of v[DST],
VLDX one per lane at that address plus the lane of v[SRCB] times the element's size (Table 3.6, R162, R163). Nothing else changes but the words every
issue writes. -/
def Obligations.Loads : Prop :=
  ∀ (l : Fin 256) (i : Fin 4) (u : UInsn) (s : State), elemType u ≠ 7 → s.hasNext l i →
    let n := elemSize (elemType u)
    let b := s.ldstBase l i u
    let val := fun o => loadElem ((s.ltile l).ftz i) (elemType u) (ofBytes (s.sram l o n))
    (s.mayIssue l i { dst := .sc, a := .sc, b := .no } u → s.readable l b n → Gives (.ld l i u) s fun t =>
      s.wentOn t l i ∧ (u.dst.toNat < 16 → (t.ltile l).rd (Reg.S_REG i u.dst.toNat) = val b) ∧
      s.tileOnly t l i (scalarAt i u.dst.toNat ++ issueAt i)) ∧
    (s.mayIssue l i { dst := .vec, a := .sc, b := .no } u → s.readable l b (16 * n) → Gives (.vld l i u) s fun t =>
      s.wentOn t l i ∧ (∀ j < 16, (t.ltile l).lane i u.dst.toNat j = val (b + n * j)) ∧
      s.tileOnly t l i (vectorAt i u.dst.toNat ++ issueAt i)) ∧
    (s.mayIssue l i { dst := .vec, a := .sc, b := .vec } u →
      let a := fun j => b + ((s.ltile l).lane i u.srcb.toNat j).toNat * n
      (∀ j < 16, s.readable l (a j) n) → Gives (.vldx l i u) s fun t =>
        s.wentOn t l i ∧ (∀ j < 16, (t.ltile l).lane i u.dst.toNat j = val (a j)) ∧
        s.tileOnly t l i (vectorAt i u.dst.toNat ++ issueAt i))

/-- A store of the LDST class writes elements of the type IMM[20:18] at s[SRCA] + IMM[17:0]: ST from s[DST], VST 16 in a row from the lanes of v[DST],
VSTX each lane at that address plus the lane of v[SRCB] times the element's size, a higher lane over a lower one; the conversion's flags go into
T_FLAGS, every other byte reads as before, and the registers stay (Table 3.6, R162, R174, R186). -/
def Obligations.Stores : Prop :=
  ∀ (l : Fin 256) (i : Fin 4) (u : UInsn) (s : State), elemType u ≠ 7 → s.hasNext l i →
    let n := elemSize (elemType u)
    let b := s.ldstBase l i u
    let x := fun w => storeElem ((s.ltile l).ftz i) (elemType u) w
    let lane := fun j => x ((s.ltile l).lane i u.dst.toNat j)
    let flags := wd ((List.range 16).foldl (fun f j => f ||| (lane j).2) 0 % 32)
    (s.mayIssue l i { dst := .sc, a := .sc, b := .no } u → s.writable l b n → Gives (.st l i u) s fun t =>
      s.wentOn t l i ∧ t.sram l b n = toBytes n (x (s.sget l i u.dst)).1 ∧ s.bytesOnly t false (sramKey (s.physOf l) b) n ∧
      (t.ltile l).rd (Reg.T_FLAGS i) = (s.ltile l).rd (Reg.T_FLAGS i) ||| wd ((x (s.sget l i u.dst)).2 % 32) ∧
      { s with mem := t.mem }.tileOnly t l i (Reg.T_FLAGS i :: issueAt i)) ∧
    (s.mayIssue l i { dst := .vec, a := .sc, b := .no } u → s.writable l b (16 * n) → Gives (.vst l i u) s fun t =>
      s.wentOn t l i ∧ (∀ j < 16, t.sram l (b + n * j) n = toBytes n (lane j).1) ∧ s.bytesOnly t false (sramKey (s.physOf l) b) (16 * n) ∧
      (t.ltile l).rd (Reg.T_FLAGS i) = (s.ltile l).rd (Reg.T_FLAGS i) ||| flags ∧
      { s with mem := t.mem }.tileOnly t l i (Reg.T_FLAGS i :: issueAt i)) ∧
    (s.mayIssue l i { dst := .vec, a := .sc, b := .vec } u →
      let a := fun j => b + ((s.ltile l).lane i u.srcb.toNat j).toNat * n
      (∀ j < 16, s.writable l (a j) n) → Gives (.vstx l i u) s fun t =>
        s.wentOn t l i ∧
        (∀ j < 16, (∀ k < 16, j < k → a j + n ≤ a k ∨ a k + n ≤ a j) → t.sram l (a j) n = toBytes n (lane j).1) ∧
        (∀ c q, (∀ j < 16, ¬(c = false ∧ sramKey (s.physOf l) (a j) ≤ q ∧ q < sramKey (s.physOf l) (a j) + n)) →
          t.mem.seen c q = s.mem.seen c q) ∧
        (t.ltile l).rd (Reg.T_FLAGS i) = (s.ltile l).rd (Reg.T_FLAGS i) ||| flags ∧
        { s with mem := t.mem }.tileOnly t l i (Reg.T_FLAGS i :: issueAt i))

/-- MA_READ gives MA_MAX of probe IMM[3:0] and restarts the probe, MA_CLEAR restarts it; FLAGS_READ gives the five float flags and ISAT, FLAGS_CLEAR
clears those whose bit of IMM[5:0] is 1; CNT_READ gives the tile counter IMM[4:0] and leaves it, and above 0x11 faults ILLEGAL (R134, R176, R199). -/
def Obligations.StatInstructions : Prop :=
  ∀ (l : Fin 256) (i : Fin 4) (u : UInsn) (s : State), s.hasNext l i →
    let p := u.imm.toNat % 16
    let probe := [Reg.MA_MAX p, Reg.MA_SAT p, Reg.MA_STAMP p]
    let restarted := fun t : State =>
      (t.ltile l).rd (Reg.MA_MAX p) = 0 ∧ (t.ltile l).rd (Reg.MA_SAT p) = 0 ∧ (t.ltile l).rd (Reg.MA_STAMP p) = s.now32
    (s.mayIssue l i { dst := .sc, a := .no, b := .no } u →
      (Gives (.maRead l i u) s fun t =>
        s.wentOn t l i ∧ restarted t ∧
        (u.dst.toNat < 16 → (t.ltile l).rd (Reg.S_REG i u.dst.toNat) = (s.ltile l).rd (Reg.MA_MAX p)) ∧
        s.tileOnly t l i (scalarAt i u.dst.toNat ++ probe ++ issueAt i)) ∧
      (Gives (.flagsRead l i u) s fun t =>
        s.wentOn t l i ∧
        (u.dst.toNat < 16 →
          wfld ((t.ltile l).rd (Reg.S_REG i u.dst.toNat)) 4 0 = (s.ltile l).fld (Reg.T_FLAGS i) 4 0 ∧
          wbit ((t.ltile l).rd (Reg.S_REG i u.dst.toNat)) 5 = ((s.ltile l).thread i).isat ∧
          wfld ((t.ltile l).rd (Reg.S_REG i u.dst.toNat)) 31 6 = 0) ∧
        s.tileOnly t l i (scalarAt i u.dst.toNat ++ issueAt i)) ∧
      (u.imm.toNat % 32 ≤ 0x11 → Gives (.cntRead l i u) s fun t =>
        s.wentOn t l i ∧
        (u.dst.toNat < 16 → (t.ltile l).rd (Reg.S_REG i u.dst.toNat) = (s.ltile l).rd (0x1000 + 4 * (u.imm.toNat % 32))) ∧
        s.tileOnly t l i (scalarAt i u.dst.toNat ++ issueAt i)) ∧
      (0x11 < u.imm.toNat % 32 → Gives (.cntRead l i u) s fun t =>
        (t.tile (s.physOf l)).tstate i = tFault ∧ (t.tile (s.physOf l)).fld (Reg.T_STATUS i) 21 16 = 1)) ∧
    (s.mayIssue l i { dst := .no, a := .no, b := .no } u →
      (Gives (.maClear l i u) s fun t => s.wentOn t l i ∧ restarted t ∧ s.tileOnly t l i (probe ++ issueAt i)) ∧
      (Gives (.flagsClear l i u) s fun t =>
        s.wentOn t l i ∧
        (∀ n, wbit ((t.ltile l).rd (Reg.T_FLAGS i)) n = (wbit ((s.ltile l).rd (Reg.T_FLAGS i)) n && !(decide (n < 5) && u.imm.getLsbD n))) ∧
        ((t.ltile l).thread i).isat = (((s.ltile l).thread i).isat && !u.imm.getLsbD 5) ∧
        s.tileOnly t l i (Reg.T_FLAGS i :: issueAt i)))

/-- WAIT and WAITT whose objects (sync objects of s[SRCA], rings of IMM[7:0]) meet their condition, any of them or with IMM[8] = 1 all, go on at once:
s[DST] gets the lowest satisfied code, or 0xFFFF_FFFF when none is named, and the satisfied sync objects' PENDING bits clear. Else the thread is
WAITING at the instruction, a WAITT until s[SRCB] µs from now. A WAITING thread goes on behind its wait when it is satisfied, in the same way, and at
a WAITT's deadline, when it is not satisfied, with 0xFFFF_FFFF; one whose wait is not satisfied, or whose time has not come, stays as it is (R120). -/
def Obligations.Waits : Prop :=
  (∀ (l : Fin 256) (i : Fin 4) (u : UInsn) (s : State), s.hasNext l i →
     ∀ (c : Instr) (k : Uses) (d : Option Nat),
       (c = .wait l i u ∧ k = { dst := .sc, a := .sc, b := .no } ∧ d = none) ∨
       (c = .waitt l i u ∧ k = { dst := .sc, a := .sc, b := .sc } ∧ d = some (s.now + (s.sget l i u.srcb).toNat)) →
     s.mayIssue l i k u →
       let w : WaitState :=
         { syncs := s.sget l i u.srca, rings := u.imm.toNat % 256, all := u.imm.getLsbD 8, dst := u.dst.toNat, deadline := d }
       let met := w.codes.filter (s.waitMet l)
       (s.waitDone l w = true → Gives c s fun t =>
         s.wentOn t l i ∧
         (u.dst.toNat < 16 → (t.ltile l).rd (Reg.S_REG i u.dst.toNat) = (match met with | [] => 0xFFFFFFFF#32 | n :: _ => wd n)) ∧
         (∀ n ∈ met, n < 32 → (t.ltile l).rd (Reg.SYNC_CFG n) = wSetBit ((s.ltile l).rd (Reg.SYNC_CFG n)) 21 false) ∧
         s.tileOnly t l i (scalarAt i u.dst.toNat ++ (met.filter (· < 32)).map Reg.SYNC_CFG ++ issueAt i)) ∧
       (s.waitDone l w = false → Gives c s fun t =>
         t.at l i tWaiting ((s.ltile l).pc i) ∧ ((t.ltile l).thread i).wait = some w ∧ s.tileOnly t l i (issueAt i))) ∧
  ∀ (l : Fin 256) (i : Fin 4) (s : State) (w : WaitState), s.hasNext l i →
    (s.ltile l).tstate i = tWaiting → ((s.ltile l).thread i).wait = some w →
      let met := w.codes.filter (s.waitMet l)
      (s.waitDone l w = true → Gives (.waitSatisfied l i) s fun t =>
        t.at l i tRunning ((s.ltile l).pc i + 1) ∧ ((t.ltile l).thread i).wait = none ∧
        (w.dst < 16 → (t.ltile l).rd (Reg.S_REG i w.dst) = (match met with | [] => 0xFFFFFFFF#32 | n :: _ => wd n)) ∧
        (∀ n ∈ met, n < 32 → (t.ltile l).rd (Reg.SYNC_CFG n) = wSetBit ((s.ltile l).rd (Reg.SYNC_CFG n)) 21 false) ∧
        s.tileOnly t l i (scalarAt i w.dst ++ (met.filter (· < 32)).map Reg.SYNC_CFG ++ [Reg.T_STATUS i, Reg.CLK_STATUS])) ∧
      (s.waitDone l w = false → exec (.waitSatisfied l i) s = .next s) ∧
      (∀ d, w.deadline = some d →
        (d ≤ s.now → s.waitDone l w = true → exec (.waittTimeout l i) s = exec (.waitSatisfied l i) s) ∧
        (d ≤ s.now → s.waitDone l w = false → Gives (.waittTimeout l i) s fun t =>
          t.at l i tRunning ((s.ltile l).pc i + 1) ∧ ((t.ltile l).thread i).wait = none ∧
          (w.dst < 16 → (t.ltile l).rd (Reg.S_REG i w.dst) = 0xFFFFFFFF#32) ∧
          s.tileOnly t l i (scalarAt i w.dst ++ [Reg.T_STATUS i, Reg.CLK_STATUS])) ∧
        (s.now < d → exec (.waittTimeout l i) s = .next s))

/-- SIGNAL adds s[SRCB] to COUNT of sync object IMM[4:0] and tests it: an enabled object that has not FIRED and whose COUNT reaches a THRESHOLD other
than 0 fires once and is FIRED, or with REARM fires for each whole multiple of a positive THRESHOLD, which COUNT loses; memory stays (R144, R145). -/
def Obligations.Signals : Prop :=
  ∀ (l : Fin 256) (i : Fin 4) (u : UInsn) (s : State), s.hasNext l i →
    s.mayIssue l i { dst := .no, a := .no, b := .sc } u →
      let n := u.imm.toNat % 32
      let sum := (s.ltile l).rd (Reg.SYNC_COUNT n) + s.sget l i u.srcb
      Gives (.signal l i u) s fun t =>
        t.at l i tRunning ((s.ltile l).pc i + 1) ∧ s.tested t l n sum ∧
        (s.fireTimes l n sum = 0 → s.tileOnly t l i (Reg.SYNC_COUNT n :: issueAt i)) ∧ t.mem = s.mem

/-- POP takes min(s[SRCB], OCCUPANCY) slots of ring IMM[2:0], none from a ring that is not enabled: TAIL rises by that number, which s[DST] gets; no
other byte changes. A poisoned header line of an enabled ring faults POISON (R73, R121, R702). -/
def Obligations.Pops : Prop :=
  ∀ (l : Fin 256) (i : Fin 4) (u : UInsn) (s : State), s.hasNext l i →
    s.mayIssue l i { dst := .sc, a := .no, b := .sc } u →
      let n := u.imm.toNat % 8
      let base := (s.ltile l).fld (Reg.RING_BASE n) 17 6 * 64
      let occ := (s.sramWord l (base + 4) - s.sramWord l (base + 8)).toNat
      let k := if (s.ltile l).bit (Reg.RING_CFG n) 7 then min (s.sget l i u.srcb).toNat occ else 0
      let on := (s.ltile l).bit (Reg.RING_CFG n) 7
      let g := sramKey (s.physOf l) base / 64
      ((on = true → s.cleanLine l (base / 64)) → Gives (.pop l i u) s fun t =>
        s.wentOn t l i ∧ (u.dst.toNat < 16 → (t.ltile l).rd (Reg.S_REG i u.dst.toNat) = wd k) ∧
        t.sramWord l (base + 8) = s.sramWord l (base + 8) + wd k ∧ s.bytesOnly t false (sramKey (s.physOf l) (base + 8)) 4 ∧
        { s with mem := t.mem }.tileOnly t l i (scalarAt i u.dst.toNat ++ issueAt i)) ∧
      (on = true → s.mem.written false g = true → s.mem.poison false g = true → Gives (.pop l i u) s fun t =>
        (t.tile (s.physOf l)).tstate i = tFault ∧ (t.tile (s.physOf l)).fld (Reg.T_STATUS i) 21 16 = 3 ∧ t.mem = s.mem)

/-- With events enabled and no slot clear under way: BEAT_READ gives EV_BEAT, which with IMM[0] then rises by one; SPIKE hands over the neurons of the
lanes that are not 0, SPIKE1 one, each stamped with EV_BEAT; SLOT_TAKE gives the 16 slots of the present beat and zeroes them, SLOT_ADD adds 16 lanes
into the slots of a beat ahead, lanes beyond EV_NEURON_COUNT left out; slots in the header line of an enabled ring fault ADDR (R136, R211 to R214,
R217). -/
def Obligations.NeuronInstructions : Prop :=
  ∀ (l : Fin 256) (i : Fin 4) (u : UInsn) (s : State), s.hasNext l i →
    (s.ltile l).bit Reg.EV_CFG 0 = true → (s.ltile l).evClear = false →
      let beat := (s.ltile l).rd Reg.EV_BEAT
      let count := (s.ltile l).fld Reg.EV_NEURON_COUNT 16 0
      let n := (s.sget l i u.srca).toNat
      let spikes := fun (ns : List Nat) (t : State) =>
        s.wentOn t l i ∧ s.wordsOnly t l (issueAt i) ∧
        (t.ltile l).beside = { (s.ltile l).beside with
          seq := (s.ltile l).seq + 1,
          spikes := (s.ltile l).spikes ++ ns.map (fun k =>
            { neuron := k, neg := u.imm.getLsbD 0, stamp := beat.toNat, thread := i, class0 := (s.ltile l).tclass i == 0,
              prio := (if (s.ltile l).tclass i = 0 then 0 else if (s.ltile l).tclass i = 3 then 2 else 1), seq := (s.ltile l).seq,
              locals := s.localLeft l k 0 }) }
      let fired := ((List.range 16).filter (fun j => (s.ltile l).lane i u.srcb.toNat j != 0)).map (n + ·)
      let slot := fun b => (s.ltile l).fld Reg.EV_NEURON_BASE 17 6 * 64 + 4 * ((s.ltile l).npad * (b % 2 ^ (s.ltile l).fld Reg.EV_CFG 3 1) + n)
      let ahead := slot (beat.toNat + u.imm.toNat % 64)
      let refused := fun (t : State) =>
        (t.tile (s.physOf l)).tstate i = tFault ∧ (t.tile (s.physOf l)).fld (Reg.T_STATUS i) 21 16 = 4 ∧ t.mem = s.mem
      (s.mayIssue l i { dst := .sc, a := .no, b := .no } u → Gives (.beatRead l i u) s fun t =>
        s.wentOn t l i ∧ (u.dst.toNat < 16 → (t.ltile l).rd (Reg.S_REG i u.dst.toNat) = beat) ∧
        (t.ltile l).rd Reg.EV_BEAT = (if u.imm.getLsbD 0 then beat + 1 else beat) ∧
        s.tileOnly t l i (scalarAt i u.dst.toNat ++ Reg.EV_BEAT :: issueAt i)) ∧
      (s.mayIssue l i { dst := .no, a := .sc, b := .vec } u → (∀ k ∈ fired, k < count) →
        (s.ltile l).spikesFit ((s.ltile l).tclass i) fired.length = true → Gives (.spike l i u) s (spikes fired)) ∧
      (s.mayIssue l i { dst := .no, a := .sc, b := .no } u → n < count →
        (s.ltile l).spikesFit ((s.ltile l).tclass i) 1 = true → Gives (.spike1 l i u) s (spikes [n])) ∧
      (s.mayIssue l i { dst := .vec, a := .sc, b := .no } u → n % 16 = 0 → s.localsDone l = true →
        ((s.ltile l).npad ≤ n → Gives (.slotTake l i u) s fun t =>
          s.wentOn t l i ∧ (∀ j < 16, (t.ltile l).lane i u.dst.toNat j = 0) ∧ s.tileOnly t l i (vectorAt i u.dst.toNat ++ issueAt i)) ∧
        (n < (s.ltile l).npad → s.readable l (slot beat.toNat) 64 → (s.ltile l).touchesRing (slot beat.toNat) 64 = true →
          Gives (.slotTake l i u) s refused) ∧
        (n < (s.ltile l).npad → s.readable l (slot beat.toNat) 64 → (s.ltile l).touchesRing (slot beat.toNat) 64 = false → Gives (.slotTake l i u) s fun t =>
          s.wentOn t l i ∧
          (∀ j < 16, (t.ltile l).lane i u.dst.toNat j = if n + j < count then s.sramWord l (slot beat.toNat + 4 * j) else 0) ∧
          t.sram l (slot beat.toNat) 64 = List.replicate 64 0 ∧ s.bytesOnly t false (sramKey (s.physOf l) (slot beat.toNat)) 64 ∧
          { s with mem := t.mem }.tileOnly t l i (vectorAt i u.dst.toNat ++ issueAt i))) ∧
      (s.mayIssue l i { dst := .no, a := .sc, b := .vec } u → n % 16 = 0 → u.imm.toNat % 64 < 2 ^ (s.ltile l).fld Reg.EV_CFG 3 1 →
        ((s.ltile l).npad ≤ n → Gives (.slotAdd l i u) s fun t => s.wentOn t l i ∧ s.tileOnly t l i (issueAt i)) ∧
        (n < (s.ltile l).npad → s.readable l ahead 64 → (s.ltile l).touchesRing ahead 64 = true → Gives (.slotAdd l i u) s refused) ∧
        (n < (s.ltile l).npad → s.readable l ahead 64 → (s.ltile l).touchesRing ahead 64 = false → Gives (.slotAdd l i u) s fun t =>
          s.wentOn t l i ∧
          (∀ j < 16, t.sramWord l (ahead + 4 * j) =
            if n + j < count then s.sramWord l (ahead + 4 * j) + (s.ltile l).lane i u.srcb.toNat j else s.sramWord l (ahead + 4 * j)) ∧
          s.bytesOnly t false (sramKey (s.physOf l) ahead) 64 ∧ { s with mem := t.mem }.tileOnly t l i (issueAt i)))

/-- A start instruction whose queue has room and whose descriptor is a readable line that the engine's checks pass queues a job with that line, the
thread's class and its FTZ; with four descriptors of the thread queued it stalls. A wait instruction goes on when the thread has no job of the engine
and stalls while it has one (R116, R123, R189, R245). -/
def Obligations.EngineInstructions : Prop :=
  ∀ (l : Fin 256) (i : Fin 4) (u : UInsn) (s : State), s.hasNext l i →
    (∀ p ∈ startOps, s.mayIssue l i { dst := .no, a := .sc, b := .no } u →
      let a := (s.sget l i u.srca).toNat
      let d := s.sram l a 64
      let g := if p.2.2.2 d then s.sram l (a + 64) 64 else []
      ((s.ltile l).queuedJobs p.2.1 i < 4 → a % 64 = 0 → s.readable l a 64 → (p.2.2.2 d = true → s.readable l (a + 64) 64) →
        p.2.2.1 (s.ltile l) ((s.ltile l).tclass i) d g = none → Gives (p.1 l i u) s fun t =>
          s.wentOn t l i ∧ s.wordsOnly t l (issueAt i) ∧
          (t.ltile l).beside = { (s.ltile l).beside with
            seq := (s.ltile l).seq + 1,
            jobs := (s.ltile l).jobs ++ [{ engine := p.2.1, thread := i, desc := d, gdesc := g, cls := (s.ltile l).tclass i,
                                           ftz := (s.ltile l).bit (Reg.T_CONFIG i) 14, seq := (s.ltile l).seq, running := false }] }) ∧
      (4 ≤ (s.ltile l).queuedJobs p.2.1 i → Gives (p.1 l i u) s fun t =>
        t.at l i tStalled ((s.ltile l).pc i) ∧ s.tileOnly t l i [Reg.T_STATUS i])) ∧
    (∀ p ∈ waitOps, s.mayIssue l i { dst := .no, a := .no, b := .no } u →
      (p.2 (s.ltile l) i = false → Gives (p.1 l i u) s fun t => s.wentOn t l i ∧ s.tileOnly t l i (issueAt i)) ∧
      (p.2 (s.ltile l) i = true → Gives (p.1 l i u) s fun t =>
        t.at l i tStalled ((s.ltile l).pc i) ∧ s.tileOnly t l i [Reg.T_STATUS i]))

/-- Of 16 accumulator entries from s[SRCA] + IMM[11:0] that lie in the banks and that no job uses, ACC_RD gives the values to the lanes of v[DST] and
ACC_WR takes those of v[SRCB]; ACC_CLR zeroes the 512 entries of bank IMM[2:0]; GP_LANE gives element IMM[3:0] of the group that the thread's last
gate job emitted. Entries beyond the banks fault ENGINE (R700, R701). -/
def Obligations.AccumulatorInstructions : Prop :=
  ∀ (l : Fin 256) (i : Fin 4) (u : UInsn) (s : State), s.hasNext l i →
    let e := (s.sget l i u.srca).toNat + u.imm.toNat % 4096
    let b := u.imm.toNat % 8
    let free := (s.ltile l).bankUsed (e / 512) = false ∧ (s.ltile l).bankUsed ((e + 15) / 512) = false
    let accs := (List.range 16).map (fun j => Reg.ACC 0 (e + j))
    (s.mayIssue l i { dst := .vec, a := .sc, b := .no } u →
      (e + 16 ≤ 4096 → free → (∀ j < 16, spGet (fun _ => 0) (s.ltile l).accErr (e + j) = 0) → Gives (.accRd l i u) s fun t =>
        s.wentOn t l i ∧ (∀ j < 16, (t.ltile l).lane i u.dst.toNat j = (s.ltile l).rd (Reg.ACC 0 (e + j))) ∧
        s.tileOnly t l i (vectorAt i u.dst.toNat ++ issueAt i)) ∧
      (4096 < e + 16 → Gives (.accRd l i u) s fun t =>
        (t.tile (s.physOf l)).tstate i = tFault ∧ (t.tile (s.physOf l)).fld (Reg.T_STATUS i) 21 16 = 5)) ∧
    (s.mayIssue l i { dst := .no, a := .sc, b := .vec } u → e + 16 ≤ 4096 → free → Gives (.accWr l i u) s fun t =>
      s.wentOn t l i ∧ (∀ j < 16, (t.ltile l).rd (Reg.ACC 0 (e + j)) = (s.ltile l).lane i u.srcb.toNat j) ∧
      s.wordsOnly t l (accs ++ issueAt i)) ∧
    (s.mayIssue l i { dst := .no, a := .no, b := .no } u → (s.ltile l).bankUsed b = false → Gives (.accClr l i u) s fun t =>
      s.wentOn t l i ∧ (∀ k < 512, (t.ltile l).rd (Reg.ACC 0 (512 * b + k)) = 0) ∧
      s.wordsOnly t l ((List.range 512).map (fun k => Reg.ACC 0 (512 * b + k)) ++ issueAt i)) ∧
    (s.mayIssue l i { dst := .sc, a := .no, b := .no } u → (s.ltile l).hasGate i = false → Gives (.gpLane l i u) s fun t =>
      s.wentOn t l i ∧
      (u.dst.toNat < 16 → (t.ltile l).rd (Reg.S_REG i u.dst.toNat) = ((s.ltile l).thread i).lastGate.getD (u.imm.toNat % 16) 0) ∧
      s.tileOnly t l i (scalarAt i u.dst.toNat ++ issueAt i))

/-- A REMOTE instruction whose address pair is s[SRCA], s[SRCA + 1], whose operands are readable and for which the interface has room issues a request
with the priority of the thread's class, stamped with the target's epoch: it enters the tile's router, or is served at once when it names the tile
itself, and the operation is outstanding. An acknowledged result of up to 4 bytes is for s[DST], a larger one for SRAM at IMM[35:18] (R36, R117 to
R119, R223, R235). -/
def Obligations.RemoteInstructions : Prop :=
  ∀ (l : Fin 256) (i : Fin 4) (u : UInsn) (s : State), s.hasNext l i → u.srca.toNat < 15 →
    (s.ltile l).awaits i (u.srca.toNat + 1) = false →
    let prio : BitVec 2 := if (s.ltile l).tclass i = 0 then 0 else if (s.ltile l).tclass i = 3 then 2 else 1
    let ack := u.imm.getLsbD 7
    let a : Addr := BitVec.ofNat 40 ((s.sget l i u.srca).toNat + 2 ^ 32 * ((s.sget l i (u.srca + 1)).toNat % 256))
    (s.ltile l).mayIssue s.now i prio ack (s.selfServed l a) = true → s.issueError a = none →
    ∀ p ∈ s.remoteForms l i u, s.mayIssue l i (remoteUses p.2.op u) u →
      (0 < p.2.reads → s.readable l (s.sget l i u.srcb).toNat p.2.reads) →
      (ack = true → 4 < p.2.result → (u.imm.toNat >>> 18) + p.2.result ≤ 0x40000) →
      (p.2.op = 7 → ack = true → p.2.result ≤ 4 → isScalar u.dst.toNat = true ∧ (s.ltile l).awaits i u.dst.toNat = false) →
      let r : ReqFlit := s.stampEpoch
        { op := BitVec.ofNat 5 p.2.op, ack := ack, anyEpoch := false, notice := u.imm.getLsbD 8, prio := prio, epoch := 0, addr := a,
          size := BitVec.ofNat 4 (u.imm.toNat % 16), type := BitVec.ofNat 3 ((u.imm.toNat >>> 4) % 8),
          tag := BitVec.ofNat 10 (if p.2.op = 8 then ((s.ltile l).rd Reg.EV_BEAT).toNat % 1024 else (s.ltile l).freeTag s.now),
          srcChip := s.chipId, srcTile := BitVec.ofNat 8 l, srcUnit := BitVec.ofNat 4 i, arg0 := p.2.arg0, payload := p.2.payload,
          owner := BitVec.ofNat 2 i }
      let self := Addr.chip a = s.chipId.toNat ∧ Addr.space a ≠ 3 ∧ Addr.tile a = l
      Gives p.1 s fun t =>
        s.wentOn t l i ∧
        (self → t.fab.inflight = s.fab.inflight ++ [r] ∧ (t.ltile l).router = (s.ltile l).router) ∧
        (¬self → t.fab = s.fab ∧ (t.ltile l).router = (s.ltile l).router ++ [r]) ∧
        (t.ltile l).out = (s.ltile l).out ++
          [{ seq := (s.ltile l).seq, unit := i, owner := i, acked := ack, prio := prio, tag := r.tag, target := targetKey a, size := p.2.result,
             dst := if ack = false then .nowhere else if 4 < p.2.result then .sram (u.imm.toNat >>> 18)
                    else if u.dst.toNat < 16 then .reg u.dst.toNat else .nowhere,
             since := s.now }] ∧
        { s with fab := t.fab }.wordsOnly t l (issueAt i ++ if p.2.op = 8 then [Reg.POSTS_OUT] else [])

/-- FENCE of a thread with no FENCE before it: when every operation and spike of the thread at the priorities of IMM[2:0] (0 for all three) is
complete, and every local entry of its spikes, s[DST] gets at once the number of the thread's failed posted operations since the one before, at most
0xFFFF, and the count starts again; else the FENCE waits and the thread goes on (R62, R63, R222). -/
def Obligations.Fences : Prop :=
  ∀ (l : Fin 256) (i : Fin 4) (u : UInsn) (s : State), s.hasNext l i → s.mayIssue l i { dst := .sc, a := .no, b := .no } u →
    (∀ j, ((s.ltile l).thread j).fences = []) →
      let f : FenceWait := { seq := (s.ltile l).seq, mask := BitVec.ofNat 3 (u.imm.toNat % 8), dst := u.dst.toNat }
      let here := fun (o : Nat) (prio : BitVec 2) (q : Nat) => o = i.val ∧ q < f.seq ∧ (f.mask = 0 ∨ f.mask.getLsbD prio.toNat = true)
      let mine := fun (k : Spike) => here k.thread k.prio k.seq ∨ (k.thread = i.val ∧ k.seq < f.seq ∧ k.locals = true)
      let left := (∃ o ∈ (s.ltile l).out, o.unit ≠ 5 ∧ here o.owner o.prio o.seq) ∨
        (∃ k ∈ (s.ltile l).spikes, mine k) ∨ (∃ c ∈ (s.ltile l).cursors, mine c.spike)
      (¬left → Gives (.remoteFence l i u) s fun t =>
        t.at l i tRunning ((s.ltile l).pc i + 1) ∧ ((t.ltile l).thread i).fences = [] ∧ ((t.ltile l).thread i).failed = 0 ∧
        (u.dst.toNat < 16 → (t.ltile l).rd (Reg.S_REG i u.dst.toNat) = wd (min 0xFFFF ((s.ltile l).thread i).failed)) ∧
        s.wordsOnly t l (scalarAt i u.dst.toNat ++ issueAt i)) ∧
      (left → Gives (.remoteFence l i u) s fun t =>
        t.at l i tRunning ((s.ltile l).pc i + 1) ∧ ((t.ltile l).thread i).fences = [f] ∧ s.wordsOnly t l (issueAt i))

/-- Of every microcode instruction: a thread that is not RUNNING issues none; an operand of the wrong kind faults ILLEGAL; an operand that awaits a
response or a FENCE stalls the thread at the instruction, with nothing else changed (R107, R112, R119, R121, R695). -/
def Obligations.OperandChecks : Prop :=
  ∀ (l : Fin 256) (i : Fin 4) (u : UInsn) (s : State), ∀ p ∈ microOps,
    ((s.ltile l).tstate i ≠ tRunning → exec (p.1 l i u) s = .next s) ∧
    ((s.ltile l).tstate i = tRunning → (p.2.uses u).ok u = false → Gives (p.1 l i u) s fun t =>
      (t.tile (s.physOf l)).tstate i = tFault ∧ (t.tile (s.physOf l)).fld (Reg.T_STATUS i) 21 16 = 1 ∧ t.mem = s.mem) ∧
    ((s.ltile l).tstate i = tRunning → (p.2.uses u).ok u = true → (p.2.uses u).blocked (s.ltile l) i u = true → Gives (p.1 l i u) s fun t =>
      t.at l i tStalled ((s.ltile l).pc i) ∧ ((t.ltile l).thread i).stalled = some (p.2.word u) ∧ s.tileOnly t l i [Reg.T_STATUS i])

/-- T_CMD START of an IDLE, HALTED or FAULT thread enters its ENTRY with an empty call stack, 0xFFFF_FFFF in s15 and no fault code or ISAT; HALT of a
RUNNING, WAITING or STALLED thread stops it at its pc; RESUME of a HALTED thread goes on there, or back into its wait; in any other state each does
nothing to the thread. Where the role has no tile that answers, the command is refused (R100, R122, R161, R176, R592, R644). -/
def Obligations.ThreadCommands : Prop :=
  ∀ (l : Fin 256) (i : Fin 4) (s : State),
    let st := (s.ltile l).tstate i
    let nothing := fun (t : State) => s.atTile t l 0 [] ∧ (t.ltile l).thread i = (s.ltile l).thread i
    (∀ c ∈ [Instr.tCmdStart l i, .tCmdHalt l i, .tCmdResume l i], s.noTile c l) ∧
    (s.tileUp l = true → (st = tIdle ∨ st = tHalted ∨ st = tFault) → Gives (.tCmdStart l i) s fun t =>
      t.at l i tRunning ((s.ltile l).fld (Reg.T_CONFIG i) 10 0) ∧ (t.ltile l).rd (Reg.S_REG i 15) = 0xFFFFFFFF#32 ∧
      (t.ltile l).fld (Reg.T_STATUS i) 21 16 = 0 ∧ ((t.ltile l).thread i).stack = [] ∧ ((t.ltile l).thread i).isat = false ∧
      s.atTile t l 0 [Reg.T_STATUS i, Reg.S_REG i 15] ∧ { s with lastStatus := 0 }.tileOnly t l i [Reg.T_STATUS i, Reg.S_REG i 15, Reg.CLK_STATUS]) ∧
    (s.tileUp l = true → (st = tRunning ∨ st = tWaiting ∨ st = tStalled) → Gives (.tCmdHalt l i) s fun t =>
      t.at l i tHalted ((s.ltile l).pc i) ∧ s.atTile t l 0 [Reg.T_STATUS i] ∧ { s with lastStatus := 0 }.tileOnly t l i [Reg.T_STATUS i, Reg.CLK_STATUS]) ∧
    (s.tileUp l = true → st = tHalted → Gives (.tCmdResume l i) s fun t =>
      t.at l i (if ((s.ltile l).thread i).wait.isSome then tWaiting else tRunning) ((s.ltile l).pc i) ∧
      s.atTile t l 0 [Reg.T_STATUS i] ∧ { s with lastStatus := 0 }.tileOnly t l i [Reg.T_STATUS i, Reg.CLK_STATUS]) ∧
    (s.tileUp l = true → ¬(st = tIdle ∨ st = tHalted ∨ st = tFault) → Gives (.tCmdStart l i) s nothing) ∧
    (s.tileUp l = true → ¬(st = tRunning ∨ st = tWaiting ∨ st = tStalled) → Gives (.tCmdHalt l i) s nothing) ∧
    (s.tileUp l = true → st ≠ tHalted → Gives (.tCmdResume l i) s nothing)

/-- Every microcode instruction, with every operand at every value, is what its word runs: the word of Table 3.4, fetched, does to a tile exactly what
the instruction does (R112, R114, R115). -/
def Obligations.MicrocodeWords : Prop :=
  ∀ (l : Fin 256) (i : Fin 4) (u : UInsn) (s : State), ∀ p ∈ microOps,
    exec (p.1 l i u) s = .next (s.runWord l i (p.2.word u)) ∧
    (∀ q ∈ microOps, ∀ v, q.2.word v = p.2.word u → v = u ∧ q.2.cls = p.2.cls ∧ q.2.op = p.2.op)

/-- A thread that stalled at an instruction tries it again: from the state with the thread RUNNING and the stalled cycles counted in T_STALL and
STALL_CYCLES, the outcome is that of the instruction (R107). -/
def Obligations.StallRetry : Prop :=
  ∀ (l : Fin 256) (i : Fin 4) (u : UInsn) (n : Nat) (s : State), ∀ p ∈ microOps,
    (s.ltile l).tstate i = tStalled → ((s.ltile l).thread i).stalled = some (p.2.word u) →
      ∃ s', s'.at l i tRunning ((s.ltile l).pc i) ∧ ((s'.ltile l).thread i).stalled = none ∧
        (s'.ltile l).rd (Reg.T_STALL i) = satAdd ((s.ltile l).rd (Reg.T_STALL i)) n ∧
        (s'.ltile l).rd Reg.STALL_CYCLES = satAdd ((s.ltile l).rd Reg.STALL_CYCLES) n ∧
        s.tileOnly s' l i [Reg.T_STATUS i, Reg.T_STALL i, Reg.STALL_CYCLES] ∧
        ∃ t, exec (.threadUnstall l i n) s = .next t ∧ exec (p.1 l i u) s' = .next t

/-- The clock of a quiet tile that has been idle for IDLE_HOLD cycles stops; an oscillator more than 10 % off what it is set to gives way to the spare,
and a failed spare is marked; a timer that is enabled and whose TIMER_CMP is reached starts the clock of a tile that can run, adds one to its sync
object, and moves TIMER_CMP by whole periods or disables itself; TIMER_WRITE writes TIMER_CTRL or TIMER_CMP. Where the condition does not hold nothing
changes (R98, R102, R103, R157, R590, R592). -/
def Obligations.TileClocks : Prop :=
  ∀ (s : State),
    (∀ (p : Fin 272) (n : Nat),
      let may := (s.tile p).bit Reg.CLK_STATUS 10 = true ∧ s.tileQuiet p = true ∧ (s.tile p).fld Reg.TILE_CONFIG 23 16 ≤ n
      (may → Gives (.tileClockStop p n) s fun t =>
        (t.tile p).rd Reg.CLK_STATUS = wSetBit ((s.tile p).rd Reg.CLK_STATUS) 10 false ∧
        (t.tile p).rd Reg.CLK_STOPS = satAdd ((s.tile p).rd Reg.CLK_STOPS) 1 ∧ s.physWords t p [Reg.CLK_STATUS, Reg.CLK_STOPS]) ∧
      (¬may → exec (.tileClockStop p n) s = .next s)) ∧
    (∀ (p : Fin 272) (mhz : Nat),
      let set := s.oscMhz p
      let off := (s.tile p).bit Reg.CLK_STATUS 10 = true ∧ (10 * mhz < 9 * set ∨ 11 * set < 10 * mhz)
      (off → (s.tile p).bit Reg.CLK_STATUS 11 = false → Gives (.oscCheck p mhz) s fun t =>
        (t.tile p).bit Reg.CLK_STATUS 11 = true ∧ (t.tile p).bit Reg.CLK_STATUS 12 = true ∧
        (t.tile p).fld Reg.CLK_STATUS 10 0 = (s.tile p).fld Reg.CLK_STATUS 10 0 ∧ t.bit (Reg.PHYS_STATUS p) 3 = true ∧
        { s with regs := t.regs }.physWords t p [Reg.CLK_STATUS] ∧ s.regsOnly t [Reg.PHYS_STATUS p]) ∧
      (off → (s.tile p).bit Reg.CLK_STATUS 11 = true → Gives (.oscCheck p mhz) s fun t =>
        (t.tile p).spareBad = true ∧ s.physWords t p []) ∧
      (¬off → exec (.oscCheck p mhz) s = .next s)) ∧
    (∀ (l : Fin 256),
      let old := (s.ltile l).rd Reg.TIMER_CTRL
      let cmp := (s.ltile l).rd Reg.TIMER_CMP
      let period := (s.ltile l).rd Reg.TIMER_PERIOD
      let due := s.tileRuns l = true ∧ wbit old 0 = true ∧ (s.now32 - cmp).msb = false
      let n := wfld old 5 1
      (due → Gives (.timerMatch l) s fun t =>
        (t.ltile l).bit Reg.CLK_STATUS 10 = true ∧ s.tested t l n ((s.ltile l).rd (Reg.SYNC_COUNT n) + 1) ∧
        (if wbit old 6 = true ∧ period ≠ 0 then
          (t.ltile l).rd Reg.TIMER_CMP = cmp + wd (period.toNat * ((s.now32 - cmp).toNat / period.toNat + 1)) ∧
          (t.ltile l).rd Reg.TIMER_CTRL = old
        else (t.ltile l).rd Reg.TIMER_CMP = cmp ∧ (t.ltile l).rd Reg.TIMER_CTRL = wSetBit old 0 false) ∧ t.mem = s.mem) ∧
      (¬due → exec (.timerMatch l) s = .next s) ∧
      (∀ ctrl v, s.noTile (.timerWrite l ctrl v) l) ∧
      (∀ v, s.tileUp l = true →
        (Gives (.timerWrite l false v) s fun t => (t.ltile l).rd Reg.TIMER_CMP = v ∧ s.atTile t l 0 [Reg.TIMER_CMP]) ∧
        (Gives (.timerWrite l true v) s fun t =>
          wfld ((t.ltile l).rd Reg.TIMER_CTRL) 6 0 = wfld v 6 0 ∧ wfld ((t.ltile l).rd Reg.TIMER_CTRL) 31 7 = wfld old 31 7 ∧
          s.atTile t l 0 [Reg.TIMER_CTRL])))

/-- Writes of EV_CFG: ENABLE set over a valid configuration clears every slot outside the header lines of enabled rings, over an invalid one it stays
0; while ENABLE is 1, a change of RING_SHIFT or W_SHIFT, or the clearing of ENABLE with spikes queued or in work, completes with ERR_BUSY and is not
applied; EV_CLEAR_DONE ends the clear and applies the POSTs queued during it, the urgent first (R207, R208, R209, R226). -/
def Obligations.EventStateWrites : Prop :=
  ∀ (l : Fin 256) (v : Word) (s : State),
    let t0 := s.ltile l
    let old := t0.rd Reg.EV_CFG
    let slots := 2 ^ wfld v 3 1
    let count := t0.fld Reg.EV_NEURON_COUNT 16 0
    let row := (count + 15) / 16 * 16
    let base := t0.fld Reg.EV_NEURON_BASE 17 6 * 64
    let busy := wbit old 0 = true ∧
      ((wbit v 0 = true ∧ wfld old 6 1 ≠ wfld v 6 1) ∨ (wbit v 0 = false ∧ (t0.spikes ≠ [] ∨ t0.cursors ≠ [])))
    let rises := wbit old 0 = false ∧ wbit v 0 = true
    let valid := 2 ≤ wfld v 3 1 ∧ wfld v 3 1 ≤ 6 ∧ 1 ≤ count ∧ count ≤ 65536 ∧ base + slots * row * 4 ≤ 0x40000 ∧
      t0.fld Reg.EV_SYN_BASE 17 6 * 64 + 4 * count ≤ 0x40000
    s.noTile (.evCfgWrite l v) l ∧
    (s.tileUp l = true → busy → Gives (.evCfgWrite l v) s fun t => s.atTile t l 0x0B []) ∧
    (s.tileUp l = true → ¬busy → ¬(rises ∧ valid) → Gives (.evCfgWrite l v) s fun t =>
      (t.ltile l).rd Reg.EV_CFG = (if rises then wSetBit (v &&& 0xFF#32) 0 false else v &&& 0xFF#32) ∧ s.atTile t l 0 [Reg.EV_CFG]) ∧
    (s.tileUp l = true → rises → valid → Gives (.evCfgWrite l v) s fun t =>
      (t.ltile l).rd Reg.EV_CFG = v &&& 0xFF#32 ∧ (t.ltile l).evClear = true ∧
      (∀ j < slots * row * 4, t.mem.seen false (sramKey (s.physOf l) base + j) =
        if t0.touchesRing (base + j / 64 * 64) 64 then s.mem.seen false (sramKey (s.physOf l) base + j) else 0) ∧
      s.bytesOnly t false (sramKey (s.physOf l) base) (slots * row * 4) ∧
      { s with mem := t.mem, integ := { s.integ with odd := t.integ.odd } }.atTile t l 0 [Reg.EV_CFG]) ∧
    (t0.evClear = false → exec (.evClearDone l) s = .next s) ∧
    (t0.evClear = true → t0.posts = [] → Gives (.evClearDone l) s fun t => (t.ltile l).evClear = false ∧ s.wordsOnly t l []) ∧
    (t0.evClear = true → Gives (.evClearDone l) s fun t => ∃ s0, (s0.ltile l).evClear = false ∧ (s0.ltile l).posts = t0.posts ∧ s.wordsOnly s0 l [] ∧
      t = State.drainPosts l t0.posts.length s0)

/-- RING_CFG_WRITE, SYNC_CFG_WRITE, SYNC_THRESHOLD_WRITE, MA_CFG_WRITE and MA_MAX_READ at a tile that answers; at no tile each is refused. A ring that is
enabled validly has its header line's last 52 bytes zeroed and no slot ready; an invalid one stays disabled, and one with a poisoned header line is
refused; an enabled one takes no change but of ACTION, CONSUMER and ENTRY, or its disabling when it is empty. A sync object is refused ENABLE and REARM
over a negative THRESHOLD; a write of SYNC_CFG clears FIRED and PENDING and keeps C0, and it or a write of THRESHOLD tests the object. A probe restarts
at a write of its MA_CFG and at a read of its MA_MAX (R73, R134, R135, R144, R146, R158, R159). -/
def Obligations.RingSyncAndProbeWrites : Prop :=
  ∀ (l : Fin 256) (v : Word) (s : State),
    (∀ n : Fin 8,
      let old := (s.ltile l).rd (Reg.RING_CFG n)
      let base := (s.ltile l).fld (Reg.RING_BASE n) 17 6 * 64
      let head := s.sramWord l base
      let commit := s.sramWord l (base + 4)
      let tail := s.sramWord l (base + 8)
      let idle := commit = tail ∧ (s.ltile l).heldFor n = []
      let ok := if wbit v 7 = true then wfld old 15 0 = wfld v 15 0 else idle
      let rises := wbit old 7 = false ∧ wbit v 7 = true
      let valid := wfld v 2 0 ≤ 4 ∧ 4 ≤ wfld v 6 3 ∧ wfld v 6 3 ≤ 10 ∧ wfld v 15 8 < 2 ^ wfld v 6 3 ∧
        base + 64 + 2 ^ wfld v 6 3 * 2 ^ (wfld v 2 0 + 4) ≤ 0x40000 ∧ head = commit ∧ (commit - tail).toNat ≤ 2 ^ wfld v 6 3
      let g := sramKey (s.physOf l) base / 64
      let clean := wbit v 7 = true → s.cleanLine l (base / 64)
      s.noTile (.ringCfgWrite l n v) l ∧ (s.tileUp l = true →
      (wbit old 7 = true → ¬ok → Gives (.ringCfgWrite l n v) s fun t => s.atTile t l 0x0B []) ∧
      (wbit old 7 = true → ok → Gives (.ringCfgWrite l n v) s fun t =>
        (t.ltile l).rd (Reg.RING_CFG n) = v ∧ s.atTile t l 0 [Reg.RING_CFG n]) ∧
      (rises → s.mem.written false g = true → s.mem.poison false g = true → Gives (.ringCfgWrite l n v) s fun t =>
        t.lastStatus = 2 ∧ (t.ltile l).rd (Reg.RING_CFG n) = old ∧ t.mem = s.mem) ∧
      (wbit old 7 = false → clean → ¬(rises ∧ valid) → Gives (.ringCfgWrite l n v) s fun t =>
        (t.ltile l).rd (Reg.RING_CFG n) = wSetBit v 7 false ∧ s.atTile t l 0 [Reg.RING_CFG n]) ∧
      (rises → clean → valid → Gives (.ringCfgWrite l n v) s fun t =>
        (t.ltile l).rd (Reg.RING_CFG n) = v ∧ (∀ j < 52, t.mem.seen false (sramKey (s.physOf l) base + 12 + j) = 0) ∧
        s.bytesOnly t false (sramKey (s.physOf l) base + 12) 52 ∧ (∀ e ∈ (t.ltile l).ready, e.1 ≠ n) ∧
        { s with mem := t.mem }.atTile t l 0 [Reg.RING_CFG n]))) ∧
    (∀ n : Fin 32,
      let cfg := (s.ltile l).rd (Reg.SYNC_CFG n)
      let th := (s.ltile l).rd (Reg.SYNC_THRESHOLD n)
      let count := (s.ltile l).rd (Reg.SYNC_COUNT n)
      let bad := fun (c th : Word) => wbit c 0 = true ∧ wbit c 1 = true ∧ th.msb = true
      s.noTile (.syncCfgWrite l n v) l ∧ s.noTile (.syncThresholdWrite l n v) l ∧ (s.tileUp l = true →
      (bad v th → Gives (.syncCfgWrite l n v) s fun t => s.atTile t l 0x0B []) ∧
      (¬bad v th → Gives (.syncCfgWrite l n v) s fun t => ∃ s0,
        (s0.ltile l).rd (Reg.SYNC_CFG n) = (v &&& 0xFFF7F#32) ||| (cfg &&& 0x100000#32) ∧ s.atTile s0 l 0 [Reg.SYNC_CFG n] ∧
        s0.tested t l n count ∧ t.lastStatus = 0) ∧
      (bad cfg v → Gives (.syncThresholdWrite l n v) s fun t => s.atTile t l 0x0B []) ∧
      (¬bad cfg v → Gives (.syncThresholdWrite l n v) s fun t => ∃ s0,
        (s0.ltile l).rd (Reg.SYNC_THRESHOLD n) = v ∧ s.atTile s0 l 0 [Reg.SYNC_THRESHOLD n] ∧ s0.tested t l n count ∧ t.lastStatus = 0))) ∧
    (∀ n : Fin 16,
      let os := [Reg.MA_MAX n, Reg.MA_SAT n, Reg.MA_STAMP n]
      let again := fun (t : State) =>
        (t.ltile l).rd (Reg.MA_MAX n) = 0 ∧ (t.ltile l).rd (Reg.MA_SAT n) = 0 ∧ (t.ltile l).rd (Reg.MA_STAMP n) = s.now32
      s.noTile (.maCfgWrite l n v) l ∧
      (s.tileUp l = true → Gives (.maCfgWrite l n v) s fun t =>
        (t.ltile l).rd (Reg.MA_CFG n) = ((s.ltile l).rd (Reg.MA_CFG n) &&& ~~~0x0FFFFFF7#32) ||| (v &&& 0x0FFFFFF7#32) ∧ again t ∧
        s.atTile t l 0 (Reg.MA_CFG n :: os)) ∧
      (s.tileUp l = false → exec (.maMaxRead l n) s = .next { s with readData := 0, lastStatus := if s.mapState l = 3 then 0x07 else 0x0B }) ∧
      (s.tileUp l = true → Gives (.maMaxRead l n) s fun t =>
        t.readData = (s.ltile l).rd (Reg.MA_MAX n) ∧ again t ∧ { s with readData := t.readData }.atTile t l 0 os))

/-- A tile's only job begins; and running it ends, its thread going on, where its descriptor passes the checks of its start instruction and every line
of SRAM is written and free of errors, no ring is enabled and no accumulator is in error: beside the tile only its SRAM changes. The next job of a
thread begins when no job of its class or a lower one holds the engine; it is then marked running and nothing else changes. A running job that ends
without a fault leaves the engine: its outputs are in memory, its flags are in T_FLAGS, and a gate program's last group is kept; one that met a fault
faults its thread; with no such job nothing changes (R123, R131, R186, R188, R245). -/
def Obligations.EngineJobs : Prop :=
  ∀ (l : Fin 256) (i : Fin 4) (s : State),
    (∀ j, (s.ltile l).jobs = [j] → j.thread = i →
      (j.running = false → Gives (.engineJobStart l j.engine i) s fun t =>
        (t.ltile l).jobs = [{ j with running := true }] ∧ s.wordsOnly t l []) ∧
      (j.running = true → (∀ ln < 4096, s.readable l (64 * ln) 64) → (∀ n : Fin 8, (s.ltile l).ringOn n = false) → (∀ e,
        spGet (fun _ => 0) (s.ltile l).accErr e = 0) →
        let ends := fun (c : Instr) => Gives c s fun t =>
          (t.ltile l).jobs = [] ∧ (t.ltile l).tstate i = (s.ltile l).tstate i ∧ (∀ k < 4, (t.ltile l).pc k = (s.ltile l).pc k) ∧
          s.bytesOnly t false (sramKey (s.physOf l) 0) 0x40000 ∧ t = { s with tiles := t.tiles, mem := t.mem } ∧
          ∀ q, q ≠ s.physOf l → t.tile q = s.tile q
        (j.engine = .matrix → mmFault (s.ltile l) j.cls j.desc j.gdesc = none → ends (.matrixJobDone l i)) ∧
        (j.engine = .gate → gateFault (s.ltile l) j.cls j.desc = none → ends (.gateJobDone l i)) ∧
        (j.engine = .scan → scFault j.desc = none → ends (.scanJobDone l i)))) ∧
    (∀ e j, (s.ltile l).nextJob e i = some j →
      ((s.ltile l).mayBegin j = true → Gives (.engineJobStart l e i) s fun t =>
        (t.ltile l).jobs = (s.ltile l).jobs.map (fun k => if k = j then { k with running := true } else k) ∧ s.wordsOnly t l []) ∧
      ((s.ltile l).mayBegin j = false → exec (.engineJobStart l e i) s = .next s)) ∧
    (∀ e, (s.ltile l).nextJob e i = none → exec (.engineJobStart l e i) s = .next s) ∧
    ∀ p ∈ [(Instr.matrixJobDone l i, Engine.matrix), (.gateJobDone l i, .gate), (.scanJobDone l i, .scan)],
      ((s.ltile l).runningJob p.2 i = none → exec p.1 s = .next s) ∧
      ∀ j, (s.ltile l).runningJob p.2 i = some j →
        let r := s.runJob l j
        (r.fault = none → Gives p.1 s fun t =>
          (t.ltile l).jobs = (r.s.ltile l).jobs.filter (· ≠ j) ∧
          (t.ltile l).rd (Reg.T_FLAGS i) = (r.s.ltile l).rd (Reg.T_FLAGS i) ||| wd (r.flags % 32) ∧
          (j.program.isSome = true → ((t.ltile l).thread i).lastGate = r.last) ∧ r.s.wordsOnly t l [Reg.T_FLAGS i]) ∧
        (∀ c, r.fault = some c → c < 64 → Gives p.1 s fun t =>
          (t.tile (r.s.physOf l)).tstate i = tFault ∧ (t.tile (r.s.physOf l)).fld (Reg.T_STATUS i) 21 16 = c ∧ t.mem = r.s.mem)

/-- The event engine at one queued spike of a tile without FENCEs: a neuron whose directory entry has no row only leaves the queue; a row of one LOCAL
entry adds its weight, shifted by W_SHIFT and negated for a negative spike, into the slot of its neuron DELAY beats ahead, and nothing else. With
nothing queued the engine idles (R214, R218, R219, R220). -/
def Obligations.EventEngine : Prop :=
  ∀ (l : Fin 256) (s : State),
    ((s.ltile l).spikes = [] → (s.ltile l).cursors = [] → exec (.eventEngineSpike l) s = .next s) ∧
    ∀ k, (s.ltile l).spikes = [k] → (s.ltile l).cursors = [] → (∀ j, ((s.ltile l).thread j).fences = []) →
      (∀ h ∈ s.rowHead l k.neuron, s.readable l h.1 h.2) →
      (wbit (s.sramWord l ((s.ltile l).fld Reg.EV_SYN_BASE 17 6 * 64 + 4 * k.neuron)) 14 = false → Gives (.eventEngineSpike l) s fun t =>
        (t.ltile l).spikes = [] ∧ (t.ltile l).cursors = [] ∧ s.wordsOnly t l []) ∧
      ∀ g, s.rowOf l k.neuron = .segs [g] → g.loc = true → g.count = 1 → s.readable l g.first 3 →
        let beat := (s.ltile l).rd Reg.EV_BEAT
        let index := (wd (ofBytes (s.sram l g.first 2))).toNat
        let w := ((s.sram l (g.first + 2) 1).headD 0).signExtend 32 <<< (s.ltile l).fld Reg.EV_CFG 6 4
        let slot := (s.ltile l).fld Reg.EV_NEURON_BASE 17 6 * 64 +
          4 * (((s.ltile l).fld Reg.EV_NEURON_COUNT 16 0 + 15) / 16 * 16 * ((beat.toNat + g.delay) % 2 ^ (s.ltile l).fld Reg.EV_CFG 3 1) + index)
        k.stamp % 1024 = beat.toNat % 1024 → index < (s.ltile l).fld Reg.EV_NEURON_COUNT 16 0 → s.readable l slot 4 →
          (s.ltile l).touchesRing slot 4 = false →
          Gives (.eventEngineSpike l) s fun t =>
            t.sramWord l slot = s.sramWord l slot + (if k.neg then -w else w) ∧ s.bytesOnly t false (sramKey (s.physOf l) slot) 4 ∧
            (t.ltile l).spikes = [] ∧ (t.ltile l).cursors = [] ∧ { s with mem := t.mem }.wordsOnly t l []

/-- GET gives the bytes of SRAM, PUT stores its operand, an atomic gives the old value and writes the new one, GATHER_SUM of int8 rows gives their
sums and POST adds its weight into a slot and counts POSTS_IN; each leaves the fabric and is answered, and no other byte and word changes. A reserved
opcode completes with ERR_OP (R51, R52 to R61, R71 to R74, R81). -/
def Obligations.FabricOperations : Prop :=
  ∀ (r : ReqFlit) (l : Nat) (s : State), Addr.space r.addr = 0 →
    let o := Addr.off r.addr
    (∀ q : ReqFlit, q = asOp 1 r → s.arrives q l → s.readable l o (2 ^ r.size.toNat) → Gives (.get r) s fun t =>
      s.answers t q 0 0 (s.sram l o (2 ^ r.size.toNat)) ∧ t.fab.inflight = s.fab.inflight.erase q ∧ t.mem = s.mem ∧ s.tookAt t l []) ∧
    (∀ q : ReqFlit, q = asOp 2 r → s.arrives q l → s.writable l o (2 ^ r.size.toNat) → Gives (.put r) s fun t =>
      t.sram l o (2 ^ r.size.toNat) = operandOf r (2 ^ r.size.toNat) ∧ s.bytesOnly t false (sramKey (s.physOf l) o) (2 ^ r.size.toNat) ∧
      s.answers t q 0 0 [] ∧ t.fab.inflight = s.fab.inflight.erase q ∧ s.tookAt t l []) ∧
    (∀ p ∈ wordAtomics, ∀ q : ReqFlit, q = asOp p.2.1.toNat r → r.type = p.2.2.1 → s.arrives q l → s.readable l o 4 → (s.ltile l).touchesRing o 4 = false →
      let v := p.2.2.2 (s.sramWord l o) r.arg0 (wordAt r.payload 0)
      Gives (p.1 r) s fun t =>
        t.sramWord l o = v.getD (s.sramWord l o) ∧ s.bytesOnly t false (sramKey (s.physOf l) o) 4 ∧
        s.answers t q 0 (if p.2.1 = 6 ∧ v.isSome then 8 else 0) (s.sram l o 4) ∧ t.fab.inflight = s.fab.inflight.erase q ∧ s.tookAt t l []) ∧
    (∀ p ∈ doubleAtomics, ∀ q : ReqFlit, q = asOp p.2.1.toNat r → r.type = p.2.2.1 → s.arrives q l → s.readable l o 8 → (s.ltile l).touchesRing o 8 = false →
      let dw := fun (bs : List Byte) => BitVec.ofNat 64 (ofBytes bs)
      let v := p.2.2.2 (dw (s.sram l o 8)) (dw (takeBytes 8 r.payload)) (dw (takeBytes 8 (r.payload.drop 8)))
      Gives (p.1 r) s fun t =>
        dw (t.sram l o 8) = v.getD (dw (s.sram l o 8)) ∧ s.bytesOnly t false (sramKey (s.physOf l) o) 8 ∧
        s.answers t q 0 (if p.2.1 = 6 ∧ v.isSome then 8 else 0) (s.sram l o 8) ∧ t.fab.inflight = s.fab.inflight.erase q ∧ s.tookAt t l []) ∧
    (∀ q : ReqFlit, q = asOp 7 r → s.arrives q l → r.type = 0 →
      let g := gatherOf r.payload
      let sum := fun j => ((List.range g.count).map (fun i => ((s.sram l (gatherRow r.payload g o i + g.first + j) 1).headD 0).signExtend 32)).sum
      g.wtd = false → (∀ i < g.count, s.readable l (gatherRow r.payload g o i) (2 ^ g.shift)) → Gives (.gatherSum r) s fun t =>
        s.answered t q 0 0 (if g.n = 1 then sum 0 else 0) ((List.range g.n).flatMap (fun j => toBytes 4 (sum j).toNat)) ∧ t.fab.inflight = s.fab.inflight.erase q ∧
        t.mem = s.mem ∧ s.tookAt t l []) ∧
    (∀ q : ReqFlit, q = asOp 8 r → s.arrives q l → (s.ltile l).bit Reg.EV_CFG 0 = true → (s.ltile l).evClear = false →
      let beat := ((s.ltile l).rd Reg.EV_BEAT).toNat
      let n := (s.ltile l).fld Reg.EV_NEURON_COUNT 16 0
      let slots := 2 ^ (s.ltile l).fld Reg.EV_CFG 3 1
      let ahead := if r.srcTile = 0xFF then 1 + wfld r.arg0 5 0 else wfld r.arg0 5 0
      let slot := (s.ltile l).fld Reg.EV_NEURON_BASE 17 6 * 64 + 4 * ((n + 15) / 16 * 16 * ((beat + ahead) % slots) + o)
      (r.srcTile = 0xFF ∨ r.tag.toNat = beat % 1024) → o < 65536 → o < n → ahead < slots → s.readable l slot 4 →
      (s.ltile l).touchesRing slot 4 = false → (s.ltile l).posts = [] → Gives (.post r) s fun t =>
        t.sramWord l slot = s.sramWord l slot + (BitVec.ofNat 16 (wfld r.arg0 31 16)).signExtend 32 ∧
        s.bytesOnly t false (sramKey (s.physOf l) slot) 4 ∧ (t.ltile l).rd Reg.POSTS_IN = satAdd ((s.ltile l).rd Reg.POSTS_IN) 1 ∧
        s.answers t q 0 0 [] ∧ t.fab.inflight = s.fab.inflight.erase q ∧ s.tookAt t l [Reg.POSTS_IN]) ∧
    ∀ c ∈ [Instr.get r, .put r, .add r, .max r, .swap r, .cas r, .gatherSum r, .post r], r.op = 0 ∨ 8 < r.op.toNat → s.meets r l → Gives c s fun t =>
      s.answered t r 6 0 0 [] ∧ t.fab.inflight = s.fab.inflight.erase r ∧ t.mem = s.mem

/-- A PUT of slot size to BASE pushes where the ring has room for its priority, and is held where it has not; HELD_PUSH_APPLY applies the first held
push of a VC, once there is room. A claim of k slots moves HEAD and gives the old one, or completes with ERR_BUSY; PUBLISH makes a claimed slot ready;
TAIL moves no further than COMMIT (R136 to R142). -/
def Obligations.RingOperations : Prop :=
  ∀ (r : ReqFlit) (l : Fin 256) (n : Fin 8) (s : State), Addr.space r.addr = 0 → (s.ltile l).ringHolds n (Addr.off r.addr) →
    let base := (s.ltile l).ringBase n
    let size := ringSlotSize ((s.ltile l).rd (Reg.RING_CFG n))
    let head := s.ringWord l n 0
    let commit := s.ringWord l n 1
    let tail := s.ringWord l n 2
    let room := fun (k : Nat) (q : ReqFlit) =>
      k = 0 ∨ (if q.prio = 0 then 0 else (s.ltile l).fld (Reg.RING_CFG n) 15 8) + k ≤ ringSlots ((s.ltile l).rd (Reg.RING_CFG n)) - (head - tail).toNat
    let slot := (s.ltile l).ringSlot n head.toNat
    let open_ := (s.ltile l).touchesRing slot size = false ∧ ∀ ln ∈ linesOf slot size, s.cleanLine l ln
    let gone := fun (q : ReqFlit) (t : State) => t.fab.inflight = s.fab.inflight.erase q
    s.readable l base 16 →
    let word := fun (w : Nat) (v : Word) (t : State) =>
      t.sramWord l (base + 4 * w) = v ∧ s.bytesOnly t false (sramKey (s.physOf l) (base + 4 * w)) 4 ∧ s.tookAt t l []
    (∀ q : ReqFlit, q = asOp 2 r → s.arrives q l → Addr.off r.addr = base → 2 ^ r.size.toNat = size →
      (room 1 q → open_ → Gives (.ringPush r) s fun t => s.pushed t l n (operandOf r size) ∧ t.fab.inflight = s.fab.inflight.erase q ∧ s.answers t q 0 0 []) ∧
      (¬room 1 q → Gives (.ringPush r) s fun t =>
        (t.ltile l).held = (s.ltile l).held ++ [q] ∧ t.fab = (s.takeFlit q).fab ∧ t.mem = s.mem ∧ s.tookAt t l [])) ∧
    (∀ vc : Fin 3, ∀ q, (s.ltile l).held.find? (fun h => effPrio h.prio == BitVec.ofNat 2 vc) = some q → q.op = 2 → q.addr = r.addr →
      s.mapState l ≠ 3 →
      (q.anyEpoch = true ∨ q.epoch.toNat = s.epochOf l) → outOfRange q = false → misaligned q = false → notAllowed q = false →
      Addr.off r.addr = base → 2 ^ q.size.toNat = size → (∀ m ∈ s.fab.marks, m.req ≠ q) →
      (room 1 q → open_ → Gives (.heldPushApply l vc) s fun t =>
        s.pushed t l n (operandOf q size) ∧ (t.ltile l).held = (s.ltile l).held.erase q ∧ s.answers t q 0 (if q ∈ (s.ltile l).fwdHeld then 4 else 0) []) ∧
      (¬room 1 q → exec (.heldPushApply l vc) s = .next s)) ∧
    (∀ vc : Fin 3, (∀ h ∈ (s.ltile l).held, effPrio h.prio ≠ BitVec.ofNat 2 vc) → exec (.heldPushApply l vc) s = .next s) ∧
    (∀ q : ReqFlit, q = asOp 3 r → r.op ≠ 6 → r.type = 0 → s.arrives q l → Addr.off r.addr = base →
      (room r.arg0.toNat q → Gives (.ringClaim r) s fun t => word 0 (head + r.arg0) t ∧ s.answers t q 0 0 (toBytes 4 head.toNat) ∧ gone q t) ∧
      (¬room r.arg0.toNat q → Gives (.ringClaim r) s fun t => t.mem = s.mem ∧ gone q t ∧ (r.ack = true → s.answers t q 0x0B 0 []))) ∧
    (r.op = 6 → r.type = 0 → s.arrives r l → Addr.off r.addr = base →
      let k := (wordAt r.payload 0 - head).toNat
      (r.arg0 = head → room k r → Gives (.ringClaim r) s fun t =>
        word 0 (wordAt r.payload 0) t ∧ s.answers t r 0 8 (toBytes 4 head.toNat) ∧ gone r t) ∧
      (r.arg0 = head → ¬room k r → Gives (.ringClaim r) s fun t => t.mem = s.mem ∧ s.answers t r 0x0B 0 [] ∧ gone r t) ∧
      (r.arg0 ≠ head → Gives (.ringClaim r) s fun t => t.mem = s.mem ∧ s.answers t r 0 0 (toBytes 4 head.toNat) ∧ gone r t)) ∧
    (∀ q : ReqFlit, q = asOp 2 r → r.size = 2 → s.arrives q l → Addr.off r.addr = base + 12 → (∀ e ∈ (s.ltile l).ready, e.1 ≠ n.val) →
      ((r.arg0 - commit).toNat < (head - commit).toNat → Gives (.ringPublish r) s fun t =>
        t.sramWord l (base + 4) = (if r.arg0 = commit then commit + 1 else commit) ∧
        (t.ltile l).ready = (s.ltile l).ready ++ (if r.arg0 = commit then [] else [(n.val, r.arg0.toNat)]) ∧
        s.bytesOnly t false (sramKey (s.physOf l) (base + 4)) 4 ∧ s.answers t q 0 0 [] ∧ gone q t) ∧
      (¬(r.arg0 - commit).toNat < (head - commit).toNat → Gives (.ringPublish r) s fun t =>
        t.mem = s.mem ∧ gone q t ∧ (r.ack = true → s.answers t q 0x04 0 []))) ∧
    (∀ q : ReqFlit, q = asOp 2 r → r.size = 2 → s.arrives q l → Addr.off r.addr = base + 8 →
      ((r.arg0 - tail).toNat ≤ (commit - tail).toNat → Gives (.ringTailMove r) s fun t => word 2 r.arg0 t ∧ s.answers t q 0 0 [] ∧ gone q t) ∧
      (¬(r.arg0 - tail).toNat ≤ (commit - tail).toNat → Gives (.ringTailMove r) s fun t =>
        t.mem = s.mem ∧ gone q t ∧ (r.ack = true → s.answers t q 0x04 0 [])))

/-- What comes back to an issuer: a response completes the operation of its unit and TAG and puts its data into the scalar awaited, one that comes
after its operation failed is counted in LATE_RESPONSES, and any other is dropped; a target's CREDIT carries what it owes, completes the oldest posted
operations of its issuer, failures counted for a thread, and of a chip block's push signals its stream's frame end where the push was applied; a
notice leaves 10 µs after its failure, and one that arrives is pushed to its tile's ring or counted lost; a request leaves its router flit by flit
once its receiver has room (R66, R70, R81, R84, R85, R235, R350, R548). -/
def Obligations.FabricReturns : Prop :=
  ∀ (s : State),
    (∀ (r : RespFlit) (l : Nat), r.dstChip = s.chipId → r.dstUnit.toNat < 8 → r.dstTile.toNat = l →
      let gone := { s with fab := { s.fab with resps := s.fab.resps.erase r } }
      let mine := fun (o : Outst) => o.acked && o.tag == r.tag && o.unit == r.dstUnit.toNat
      (∀ o, (s.ltile l).out.find? mine = some o → (∀ j, ((s.ltile l).thread j).fences = []) →
        (∀ k, o.size ≤ 4 → o.dst = .reg k → k < 16 → Gives (.responseArrival r) s fun t =>
          (t.ltile l).out = (s.ltile l).out.erase o ∧ (t.ltile l).rd (Reg.S_REG o.owner k) = r.data0 ∧
          (t.ltile l).bit Reg.CLK_STATUS 10 = true ∧ gone.wordsOnly t l [Reg.S_REG o.owner k, Reg.CLK_STATUS]) ∧
        (o.dst = .nowhere → Gives (.responseArrival r) s fun t =>
          (t.ltile l).out = (s.ltile l).out.erase o ∧ (t.ltile l).bit Reg.CLK_STATUS 10 = true ∧ gone.wordsOnly t l [Reg.CLK_STATUS]) ∧
        (∀ a, o.dst = .sram a →
          let data := if o.size ≤ 4 then toBytes 4 r.data0.toNat else takeBytes o.size r.payload
          s.writable l a data.length → Gives (.responseArrival r) s fun t =>
            (t.ltile l).out = (s.ltile l).out.erase o ∧ t.sram l a data.length = data ∧ s.bytesOnly t false (sramKey (s.physOf l) a) data.length ∧
            { gone with mem := t.mem }.wordsOnly t l [Reg.CLK_STATUS])) ∧
      ((s.ltile l).out.find? mine = none →
        (lateTag (s.ltile l).late r.tag = true → Gives (.responseArrival r) s fun t =>
          t.rd Reg.LATE_RESPONSES = satAdd (s.rd Reg.LATE_RESPONSES) 1 ∧ s.regsOnly t [Reg.LATE_RESPONSES] ∧
          { gone with regs := t.regs }.wordsOnly t l [Reg.CLK_STATUS] ∧
          (s.mapState l ≠ 3 → s.tileDark l = false → (t.ltile l).bit Reg.CLK_STATUS 10 = true)) ∧
        (lateTag (s.ltile l).late r.tag = false → exec (.responseArrival r) s = .next gone))) ∧
    (∀ (i : IssuerId) (k : Nat) (o : Owed), s.fab.owed.find? (fun o => o.issuer == i && o.target == k) = some o →
      Gives (.creditSend i k) s fun t => t = { s with fab := { s.fab with
        owed := s.fab.owed.erase o, credits := s.fab.credits ++
          if s.routed i.chip = false then [] else [{ issuer := i, target := k, applied := o.applied, failed := o.failed }] } }) ∧
    (∀ (i : IssuerId) (k : Nat), s.fab.owed.find? (fun o => o.issuer == i && o.target == k) = none → exec (.creditSend i k) s = .next s) ∧
    (∀ (c : CreditFlit) (l : Nat), c.issuer.chip = s.chipId → c.issuer.unit.toNat < 8 → c.issuer.tile.toNat = l →
      (∀ j, ((s.ltile l).thread j).fences = []) →
        let mine := fun (o : Outst) =>
          !o.acked && o.unit == c.issuer.unit.toNat && o.owner == c.issuer.owner.toNat && o.prio == c.issuer.prio && o.target == c.target
        Gives (.creditArrival c) s fun t =>
          (t.ltile l).out.filter mine = ((s.ltile l).out.filter mine).drop (c.applied + c.failed) ∧
          (t.ltile l).out.filter (!mine ·) = (s.ltile l).out.filter (!mine ·) ∧
          ((t.ltile l).thread c.issuer.owner.toNat).failed = ((s.ltile l).thread c.issuer.owner.toNat).failed + (if c.issuer.unit.toNat ≤ 4 then c.failed else 0) ∧
          { s with fab := { s.fab with credits := s.fab.credits.erase c } }.wordsOnly t l [Reg.CLK_STATUS]) ∧
    (∀ (c : CreditFlit) (o : BlockOut) (m : PushMark) (e : Fin 2048), c.issuer.chip = s.chipId → 8 < c.issuer.unit.toNat → c.applied + c.failed = 1 →
      s.fab.blockOut.filter (fun o => o.unit == c.issuer.unit.toNat && !o.acked && o.prio == c.issuer.prio && o.target == c.target) = [o] →
      s.fab.marks.find? (fun m => m.req == o.req) = some m → m.ends = [e.val] → s.accepts e s.now32 = true → Gives (.creditArrival c) s fun t =>
        t.fab.marks = s.fab.marks.erase m ∧ t.rd (Reg.STAT e 1) = s.rd (Reg.STAT e 1) + wd c.applied ∧
        (t.run e).frames.length = (s.run e).frames.length + c.applied ∧ s.regsOnly t [Reg.STAT e 1]) ∧
    (∀ n, s.fab.notices.find? (fun n => decide (n.time + 10 ≤ s.now)) = some n → n.dstChip ≠ s.chipId →
      Gives (.noticeSend none) s fun t =>
        t = { s with fab := { s.fab with
          notices := s.fab.notices.erase n, sentNotices := s.fab.sentNotices ++ [(n.dstChip, { tile := n.dstTile, bytes := n.bytes })] } }) ∧
    (∀ (n : NoticeIn) (l : Nat), n.tile.toNat = l →
      let ring := (s.ltile l).fld Reg.TILE_CONFIG 2 0
      let given := (s.ltile l).bit Reg.TILE_CONFIG 3 = true ∧ (s.ltile l).ringOn ring = true ∧ (s.ltile l).fld (Reg.RING_CFG ring) 2 0 = 0
      let room := (s.ltile l).fld (Reg.RING_CFG ring) 15 8 + 1 ≤ s.ringFree l ring
      let header := (s.ltile l).ringBase ring / 64
      let slot := (s.ltile l).ringSlot ring (s.ringWord l ring 0).toNat
      (s.mapState l = 3 → Gives (.noticeSend (some n)) s fun t =>
        t.rd Reg.XLATE_ERRORS = satAdd (s.rd Reg.XLATE_ERRORS) 1 ∧ s.regsAt t [Reg.XLATE_ERRORS]) ∧
      (s.mapState l ≠ 3 → s.tileShut l = true → Gives (.noticeSend (some n)) s fun t =>
        t.rd Reg.GATED_DROPS = satAdd (s.rd Reg.GATED_DROPS) 1 ∧ s.regsAt t [Reg.GATED_DROPS]) ∧
      (s.mapState l ≠ 3 → s.tileShut l = false →
        (given → room → s.cleanLine l header → (s.ltile l).touchesRing slot 16 = false → (∀ ln ∈ linesOf slot 16, s.cleanLine l ln) →
          Gives (.noticeSend (some n)) s fun t => s.pushed t l (Fin.ofNat 8 ring) (takeBytes 16 n.bytes)) ∧
        (given → ¬room → s.cleanLine l header → Gives (.noticeSend (some n)) s fun t =>
          (t.ltile l).rd Reg.NOTICE_LOST = satAdd ((s.ltile l).rd Reg.NOTICE_LOST) 1 ∧ s.wordsOnly t l [Reg.NOTICE_LOST, Reg.CLK_STATUS]) ∧
        (¬given → Gives (.noticeSend (some n)) s fun t =>
          (t.ltile l).rd Reg.NOTICE_LOST = satAdd ((s.ltile l).rd Reg.NOTICE_LOST) 1 ∧ s.wordsOnly t l [Reg.NOTICE_LOST, Reg.CLK_STATUS]))) ∧
    (∀ (l : Fin 256) (vc : Fin 6), s.fab.waiting = [] →
      ((∀ r ∈ (s.ltile l).router, prioVc r.prio ≠ vc) → exec (.flitAdvance (.tile l) vc) s = .next s) ∧
      ∀ r, (s.ltile l).router.find? (fun r => prioVc r.prio == vc) = some r → (∀ q ∈ (s.ltile l).chainWait, prioVc q.prio ≠ vc) →
        r.srcUnit.toNat < 8 →
        let held := s.meshFull r = true ∨ Addr.chip r.addr ≠ s.chipId.toNat ∧ s.fenced (issuerKey r) r.prio = true
        let n := spGet (fun _ => 0) (s.ltile l).moved vc + 1
        (held → exec (.flitAdvance (.tile l) vc) s = .next s) ∧
        (¬held → n < 1 + (r.payload.length + 15) / 16 → Gives (.flitAdvance (.tile l) vc) s fun t =>
          spGet (fun _ => 0) (t.ltile l).moved vc = n ∧ (t.ltile l).router = (s.ltile l).router ∧ s.wordsOnly t l []) ∧
        (¬held → 1 + (r.payload.length + 15) / 16 ≤ n → Addr.chip r.addr = s.chipId.toNat → Gives (.flitAdvance (.tile l) vc) s fun t =>
          (t.ltile l).router = (s.ltile l).router.erase r ∧ spGet (fun _ => 0) (t.ltile l).moved vc = 0 ∧
          { s with fab := { s.fab with inflight := s.fab.inflight ++ [r] } }.wordsOnly t l []))

/-- MAP_CMD with the address-map block at work and not BUSY: BUMP_EPOCH of a mapped tile whose last bump is 1,000 µs past starts and raises BUSY, else
it leaves ERR 1 or 2; RELOCATE to a free tile of the row starts a copy, else it leaves ERR 1, 3 or 4; the host's own outside SERVICE is only recorded.
While BUSY a command is ignored. BUMP_EPOCH_DONE puts the next epoch into effect (R40, R43 to R46, R48). -/
def Obligations.MapCommands : Prop :=
  ∀ (o : Origin) (s : State), s.ready = true → s.bit Reg.BIST_BLOCKS 7 = false →
    let l := s.fld Reg.MAP_ARG 7 0
    let q := s.fld Reg.MAP_ARG 24 16
    let w := s.rd Reg.MAP_STATUS
    let refused := fun (c : Instr) (err : Nat) => Gives c s fun t => t.rd Reg.MAP_STATUS = wSetFld w 3 1 err ∧ s.regsAt t [Reg.MAP_STATUS]
    let begun := wSetBit (wSetFld w 3 1 0) 0 true
    let last := spGet (fun _ => none) s.fab.lastBump l
    let early := ∃ b, last = some b ∧ s.now < b + 1000
    (wbit w 0 = true → exec (.mapCmdBumpEpoch o) s = .next s ∧ (o ≠ .host ∨ s.lcState = lcService → exec (.mapCmdRelocate o) s = .next s)) ∧
    (o = .host → s.lcState ≠ lcService → s.auditRefuses = false → Gives (.mapCmdRelocate o) s fun t =>
      t = { s with nv := t.nv } ∧ t.nv = { s.nv with audit := t.nv.audit } ∧ ∃ e, t.nv.audit = s.nv.audit ++ [e]) ∧
    (wbit w 0 = false →
      (s.mapState l ≠ 0 → refused (.mapCmdBumpEpoch o) 1) ∧
      (s.mapState l = 0 → early → refused (.mapCmdBumpEpoch o) 2) ∧
      (s.mapState l = 0 → ¬early → Gives (.mapCmdBumpEpoch o) s fun t =>
        t.rd Reg.MAP_STATUS = begun ∧ { s with fab := { s.fab with bump := some (Fin.ofNat 256 l) } }.regsAt t [Reg.MAP_STATUS]) ∧
      (o ≠ .host ∨ s.lcState = lcService →
        let good := q / 17 = l / 16 ∧ q < 272
        (s.mapState l ≠ 0 → refused (.mapCmdRelocate o) 1) ∧
        (s.mapState l = 0 → good → s.phys q = phTesting → refused (.mapCmdRelocate o) 4) ∧
        (s.mapState l = 0 → ¬good ∨ (s.phys q ≠ phTesting ∧ (s.phys q ≠ phFree ∨ s.chosen q = true)) → refused (.mapCmdRelocate o) 3) ∧
        (s.mapState l = 0 → good → s.phys q = phFree → s.chosen q = false → Gives (.mapCmdRelocate o) s fun t =>
          t.rd Reg.MAP_STATUS = begun ∧ t.rd (Reg.TILE_MAP l) = wSetFld (s.rd (Reg.TILE_MAP l)) 26 24 1 ∧
          (∃ c, t.relocOf l = some c ∧ c.src = s.physOf l ∧ c.dst = q ∧ c.pass = 0 ∧ c.holding = false ∧ c.takeover = false ∧ c.host = true) ∧
          (∀ k, k ≠ l → t.relocOf k = s.relocOf k) ∧
          { s with fab := { s.fab with relocs := t.fab.relocs } }.regsAt t [Reg.MAP_STATUS, Reg.TILE_MAP l]))) ∧
    (s.fab.bump = none → exec .bumpEpochDone s = .next s) ∧
    ∀ k : Fin 256, s.fab.bump = some k →
      let e := (s.epochOf k + 1) % 256
      Gives .bumpEpochDone s fun t =>
        t.epochOf k = e ∧ t.rd (Reg.TILE_MAP k) = wSetFld (s.rd (Reg.TILE_MAP k)) 23 16 e ∧ t.rd Reg.MAP_STATUS = wSetBit (wSetFld w 15 8 e) 0 false ∧
        t.fab.bump = none ∧ spGet (fun _ => none) t.fab.lastBump k = some s.now ∧
        { s with fab := { s.fab with bump := none, lastBump := t.fab.lastBump } }.regsAt t [Reg.TILE_MAP k, Reg.MAP_STATUS]

/-- With no other takeover under way, a relocation of a tile without errors: a pass that leaves at most 64 lines begins the hold, the eighth that
leaves more gives the move up; the switch puts the whole tile and its memory on the new tile, which takes the role, and forwards what is under way;
once that is drained the old tile is free and untested, its memory as it was (R434). The takeover of a failed tile makes its role unusable and names a
destination, and its switch puts the role's memory there and retires the failed tile (R88 to R90, R582 to R588). -/
def Obligations.Relocations : Prop :=
  ∀ (l : Fin 256) (s : State), s.sound → (∀ x ∈ s.fab.relocs, x.logical ≠ l.val → x.takeover = false) →
    (s.relocOf l = none → (∀ n, exec (.copyPass l n) s = .next s) ∧ exec (.relocationSwitch l) s = .next s ∧ exec (.relocationDone l) s = .next s ∧
      exec (.takeoverSwitch l) s = .next s) ∧
    (∀ (c : Reloc) (left : Nat), s.relocOf l = some c → c.takeover = false → s.mapState l = 1 → (s.tile c.dst).spareBad = false → c.holding = false →
      s.limiting = false → c.src ≠ c.dst →
      let passed := fun (t : State) => t = { s with fab := { s.fab with relocs := t.fab.relocs }, tiles := t.tiles } ∧
        ∀ p, t.tile p = if p = c.src ∨ p = c.dst then (s.tile p).setBit Reg.CLK_STATUS 10 true else s.tile p
      (left ≤ 64 → Gives (.copyPass l left) s fun t =>
        t.relocOf l = some { c with pass := c.pass + 1, holding := true } ∧ passed t) ∧
      (64 < left → c.pass + 1 < 8 → Gives (.copyPass l left) s fun t =>
        t.relocOf l = some { c with pass := c.pass + 1, paused := false } ∧ passed t) ∧
      (64 < left → 8 ≤ c.pass + 1 → s.peal.cols = [] → wbit (s.col c.src).status 0 = false → Gives (.copyPass l left) s fun t =>
        t.relocOf l = none ∧ t.rd (Reg.TILE_MAP l) = wSetFld (s.rd (Reg.TILE_MAP l)) 26 24 0 ∧
        t.rd Reg.PEAL_ABORTS = satAdd (s.rd Reg.PEAL_ABORTS) 1)) ∧
    (∀ c : Reloc, s.relocOf l = some c → c.logical = l → c.src = s.physOf l → c.src < 272 → c.dst < 272 → c.src ≠ c.dst → c.takeover = false →
      c.holding = true → s.mapState l = 1 → (s.tile c.src).spareBad = false → (s.tile c.dst).spareBad = false → s.mem.badLines false c.src = [] →
        s.mem.badLines true c.src = [] → (∀ ln, s.colRefuses c.src ln = false) →
      Gives (.relocationSwitch l) s fun t =>
        t.rd (Reg.TILE_MAP l) = wSetFld (wSetFld (s.rd (Reg.TILE_MAP l)) 8 0 c.dst) 26 24 2 ∧ t.phys c.dst = phInRole ∧
        t.tile c.dst = (s.tile c.src).movedTo (s.tile c.dst) ∧
        (∀ j < 0x40000, t.mem.seen false (sramKey c.dst j) = s.mem.seen false (sramKey c.src j)) ∧
        (∀ j < 0x200000, t.mem.seen true (clayKey c.dst j) = s.mem.seen true (clayKey c.src j)) ∧
        t.relocOf l = some { c with holding := false, fwd := s.fab.inflight.filter (s.goesTo l) }) ∧
    (∀ c : Reloc, s.relocOf l = some c → c.takeover = false → s.mapState l = 2 → c.fwd = [] → c.peal = false → s.peal.cols = [] → c.src < 272 →
      wbit (s.col c.src).status 0 = false → Gives (.relocationDone l) s fun t =>
        t.relocOf l = none ∧ t.mapState l = 0 ∧ t.physOf l = s.physOf l ∧ t.phys c.src = phFree ∧ t.untested c.src = true ∧
        (c.host = true → t.bit Reg.MAP_STATUS 0 = false) ∧ t.mem = s.mem) ∧
    ((s.tile (s.physOf l)).spareBad = false → exec (.failureTakeover l) s = .next s) ∧
    (∀ q, (s.tile (s.physOf l)).spareBad = true → s.mapState l ≠ 2 → s.mapState l ≠ 3 → s.relocOf l = none → s.freeTile (s.physOf l / 17) = some q →
      Gives (.failureTakeover l) s fun t =>
        t.mapState l = 3 ∧ (∃ c, t.relocOf l = some c ∧ c.src = s.physOf l ∧ c.dst = q ∧ c.takeover = true) ∧
        (t.tile (s.physOf l)).held = [] ∧ (t.tile (s.physOf l)).posts = [] ∧ (t.tile (s.physOf l)).router = [] ∧
        (t.tile (s.physOf l)).chainWait = [] ∧
        t.fab.inflight = s.fab.inflight.filter (fun r => !s.goesTo l r) ++ (s.ltile l).router ++ (s.ltile l).chainWait ∧ t.mem = s.mem) ∧
    (∀ c : Reloc, s.relocOf l = some c → c.logical = l → c.src = s.physOf l → c.src < 272 → c.dst < 272 → c.src ≠ c.dst → c.takeover = true →
      s.phys c.dst = phFree → (s.tile c.dst).spareBad = false → (∀ x ∈ s.fab.relocs, x.logical ≠ l → x.src ≠ c.dst) → s.peal.cols = [] →
        s.mem.badLines false c.src = [] → s.mem.badLines true c.src = [] →
      (∀ ln, s.colRefuses c.src ln = false) → Gives (.takeoverSwitch l) s fun t =>
        t.physOf l = c.dst ∧ t.mapState l = 0 ∧ t.phys c.dst = phInRole ∧ t.phys c.src = phRetired ∧ t.relocOf l = none ∧
        t.rd Reg.TAKEOVERS = satAdd (s.rd Reg.TAKEOVERS) 1 ∧
        (∀ j < 0x40000, t.mem.seen false (sramKey c.dst j) = s.mem.seen false (sramKey c.src j)) ∧
        ∀ j < 0x200000, t.mem.seen true (clayKey c.dst j) = s.mem.seen true (clayKey c.src j))

/-- A read of a register gives its value and clears its RC fields; a write changes RW fields alone and leaves an RO register with ERR_PROTECT; a
host-bus write changes the bytes it enables, and a partial write of a slot with WO or W1C fields, or before READY of one that is not open yet, only
raises BUS_ERR; a chip block in reset answers ERR_BUSY, and so does a tile in reset, gated or closed. WAKE_CTRL written releases the pins whose
ASSERTED bit is 1 (R8 to R11, R332, R493, R503, R597, R644). -/
def Obligations.RegisterAccess : Prop :=
  ∀ (o : Origin) (be : BitVec 4) (v : Word) (s : State),
    (∀ (l : Fin 256) (off : Nat), s.noTile (.registerWrite o { unit := .tile l, off := off } be v) l) ∧
    (∀ (l : Fin 256) (off : Nat) (row : RegRow), s.tileUp l = true → tileRow off = some row → s.ctlView l off = none → (∀ n : Fin 16, off ≠ Reg.MA_MAX n) →
      (∀ e, spGet (fun _ => 0) (s.ltile l).accErr e = 0) →
      Gives (.rcCounterRead { unit := .tile l, off := off }) s fun t =>
        t.readData = (s.ltile l).rd off ∧ (t.ltile l).rd off = (s.ltile l).rd off &&& ~~~(wd row.rc) ∧
        { s with readData := t.readData }.atTile t l 0 [off]) ∧
    (∀ (l : Fin 256) (off : Nat) (row : RegRow), s.tileUp l = true → tileRow off = some row → row.ro = true →
      Gives (.registerWrite o { unit := .tile l, off := off } be v) s fun t => s.atTile t l 0x0A []) ∧
    (∀ (l : Fin 256), ∀ off ∈ [Reg.TIMER_CTRL, Reg.TIMER_CMP, Reg.TIMER_PERIOD], ∀ row, s.tileUp l = true → tileRow off = some row →
      Gives (.registerWrite o { unit := .tile l, off := off } be v) s fun t =>
        (t.ltile l).rd off = ((s.ltile l).rd off &&& ~~~(wd row.rw)) ||| (v &&& wd row.rw) ∧ s.atTile t l 0 [off]) ∧
    (s.ready = false → ∀ b off, exec (.registerWrite o { unit := .block b, off := off } be v) s = .next { s with lastStatus := 0x0B } ∧
      exec (.rcCounterRead { unit := .block b, off := off }) s = .next { s with readData := 0, lastStatus := 0x0B }) ∧
    (s.unitUp 7 → Gives (.registerWrite o { unit := .block 7, off := 0x2004 } be v) s fun t =>
      (∀ row, chipRow Reg.MAP_ARG = some row → row.ro = false →
        t.rd Reg.MAP_ARG = (s.rd Reg.MAP_ARG &&& ~~~(wd row.rw)) ||| (v &&& wd row.rw) ∧ { s with lastStatus := 0 }.regsAt t [Reg.MAP_ARG])) ∧
    (s.ready = true → s.boot.low = false → s.boot.safe = false → s.bit Reg.BIST_BLOCKS 4 = false → s.keys.halted = false → be ≠ 0 →
      Gives (.registerWrite .host { unit := .hostBus, off := Reg.CONTRACT_ARG } be v) s fun t =>
        (∀ b : Fin 32, wbit (t.rd Reg.CONTRACT_ARG) b = if be.getLsbD (b / 8) then wbit v b else wbit (s.rd Reg.CONTRACT_ARG) b) ∧
        s.regsAt t [Reg.CONTRACT_ARG]) ∧
    (∀ off < 0x100, s.slotDead off = false → s.boot.low = false → s.boot.safe = false →
      wholeSlot off = true ∧ be ≠ 15 ∨ s.ready = false ∧ earlySlot off = false ∧ off ≠ Reg.WIN_DATA ∧ off ≠ Reg.OP_CMD ∧ off ≠ Reg.PWR_CTRL →
        exec (.registerWrite .host { unit := .hostBus, off := off } be v) s = .next (s.setBit Reg.INT_STATUS 5 true)) ∧
    s.ignoredEarly (.wakeCtrlWrite v) ∧
    (s.ready = true → (s.rd Reg.WAKE_CTRL ^^^ v) &&& 0x1F000FF#32 = 0 → Gives (.wakeCtrlWrite v) s fun t =>
      (∀ n : Fin 8, t.bit Reg.WAKE_CTRL (8 + n) = (s.bit Reg.WAKE_CTRL (8 + n) && !wbit v (8 + n) && wbit v 20)) ∧
      t.rd Reg.WAKE_CTRL &&& 0x1FF00FF#32 = v &&& 0x1FF00FF#32 ∧ { s with pins := t.pins }.regsAt t [Reg.WAKE_CTRL])

/-- CLAP_CTRL.CLAP notes a cause; CLAP_TAKE takes it at its tick, and a fall of the net takes one with cause PIN: the snapshot, or, with one held, a
missed clap that only leaves its causes pending; a second cause of a slot joins the clap taken in it, unless that one's snapshot is held. Before READY
a fall takes none, but LEVEL shows it. The net is let go at the next tick, is STUCK after 3 µs low, and high again clears what it may. CLAP_CTRL.RELEASE
clears MISSED and PENDING, and HELD unless a clap of this tick set it (R559 to R565, R567 to R573). -/
def Obligations.Claps : Prop :=
  ∀ (s : State), s.sound →
    let held := s.bit Reg.CLAP_CTRL 3
    let at_ := s.now - s.now % 4
    let missed := fun (t : State) (causes : Nat) =>
      t.rd Reg.CLAP_CTRL = wSetFld (s.rd Reg.CLAP_CTRL) 15 8 (min 255 (s.fld Reg.CLAP_CTRL 15 8 + 1)) ||| wd (causes * 2 ^ 16) ∧
      t.rd Reg.CLAP_COUNT = s.rd Reg.CLAP_COUNT ∧ t.tiles = s.tiles
    s.ignoredEarly .clapCtrlClap ∧ s.ignoredEarly .clapCtrlRelease ∧
    (s.ready = true → s.bit Reg.CLAP_CTRL 25 = true →
      exec .clapCtrlClap s = .next { s with clap := { s.clap with noted := s.clap.noted ++ [(1, s.now)] } }) ∧
    (s.ready = true → s.bit Reg.CLAP_CTRL 25 = false → exec .clapCtrlClap s = .next s) ∧
    (s.clap.noted = [] → exec .clapTake s = .next s) ∧
    (∀ (n : Fin 7) (k : Nat), s.clap.noted = [(n.val, k)] →
      let tick := k + 1 + (4 - k % 4) % 4
      (s.now < tick → exec .clapTake s = .next s) ∧
      (tick ≤ s.now → s.bit Reg.CLAP_CTRL 4 = false → s.clap.slot ≠ some (tick - 1) →
        (held = false → Gives .clapTake s fun t =>
          t.clap.noted = [] ∧ t.rd (Reg.CAUSE_COUNT n) = satAdd (s.rd (Reg.CAUSE_COUNT n)) 1 ∧ s.clapped t (2 ^ n.val) (tick - 1)) ∧
        (held = true → Gives .clapTake s fun t => t.clap.noted = [] ∧ missed t (2 ^ n.val))) ∧
      (tick ≤ s.now → s.bit Reg.CLAP_CTRL 4 = false → s.clap.slot = some (tick - 1) → s.clap.latched = true →
        (held = false → Gives .clapTake s fun t =>
          t.clap.noted = [] ∧ t.rd Reg.CLAP_CAUSE = s.rd Reg.CLAP_CAUSE ||| wd (2 ^ n.val) ∧ t.rd Reg.CLAP_COUNT = s.rd Reg.CLAP_COUNT ∧
          t.tiles = s.tiles ∧ s.regsOnly t [Reg.CLAP_CAUSE, Reg.CAUSE_COUNT n]) ∧
        (held = true → Gives .clapTake s fun t => t.clap.noted = [] ∧ missed t (2 ^ n.val)))) ∧
    (s.ready = false → Gives .clapNetFall s fun t =>
      t.rd Reg.NET_STATUS = wSetBit (s.rd Reg.NET_STATUS) 0 false ∧ t.clap = { s.clap with lowAt := some (s.clap.lowAt.getD s.now) } ∧
      { s with clap := t.clap }.regsAt t [Reg.NET_STATUS]) ∧
    (s.ready = true → s.bit Reg.NET_STATUS 2 = true ∨ s.clap.armed = false → Gives .clapNetFall s fun t =>
      t.rd Reg.NET_IGNORED = satAdd (s.rd Reg.NET_IGNORED) 1 ∧ t.bit Reg.NET_STATUS 0 = false ∧ t.tiles = s.tiles ∧
      s.regsOnly t [Reg.NET_IGNORED, Reg.NET_STATUS]) ∧
    (s.ready = true → s.bit Reg.NET_STATUS 2 = false → s.clap.armed = true → s.clap.pulled ≠ some at_ → s.bit Reg.CLAP_CTRL 24 = true →
      s.clap.slot ≠ some at_ →
        (held = false → Gives .clapNetFall s fun t => t.clap.armed = false ∧ s.clapped t 1 at_) ∧
        (held = true → Gives .clapNetFall s fun t => t.clap.armed = false ∧ missed t 1)) ∧
    (∀ k, s.clap.pulled = some k → s.bit Reg.NET_STATUS 1 = true → k + 2 ≤ s.now → Gives .clapNetRelease s fun t =>
      t.rd Reg.NET_STATUS = wSetBit (s.rd Reg.NET_STATUS) 1 false ∧ s.regsAt t [Reg.NET_STATUS]) ∧
    (s.clap.pulled = none ∨ s.bit Reg.NET_STATUS 1 = false → exec .clapNetRelease s = .next s) ∧
    (∀ k, s.clap.lowAt = some k → k + 3 < s.now → Gives .clapNetStuck s fun t =>
      t.rd Reg.NET_STATUS = wSetBit (s.rd Reg.NET_STATUS) 2 true ∧ s.regsAt t [Reg.NET_STATUS]) ∧
    (s.clap.lowAt = none → exec .clapNetStuck s = .next s) ∧
    (∀ us, Gives (.clapNetHigh us) s fun t =>
      t.bit Reg.NET_STATUS 0 = true ∧ t.bit Reg.NET_STATUS 2 = (s.bit Reg.NET_STATUS 2 && decide (us < 2)) ∧
      t.clap = { s.clap with lowAt := none, armed := s.clap.armed || decide (1 ≤ us) } ∧
      { s with clap := t.clap }.regsAt t [Reg.NET_STATUS]) ∧
    (s.ready = true → s.clap.missed = none → Gives .clapCtrlRelease s fun t =>
      t.rd Reg.CLAP_CTRL = wSetFld (wSetFld (wSetBit (s.rd Reg.CLAP_CTRL) 3 (held && decide (s.clap.latchAt = some s.now))) 15 8 0) 22 16 0 ∧
      s.regsAt t [Reg.CLAP_CTRL])

/-- The contract commands of a stream of this chip: each ends with BUSY 0, a REASON and a DETAIL, and CONTRACT_DONE. REGISTER of a free entry with a
good descriptor, ACTIVATE of a registered stream that no check refuses, a DEACTIVATE due at once, UNREGISTER and BREAK change the stream's state as
Table 8.3 has it, and a DEACTIVATE for later waits, BUSY; a refusal changes nothing else but REFUSALS, and, of an ACTIVATE or a CHECK that goes so far,
what other chips answer and what a read of the record's header leaves. While BUSY every command is ignored (R304, R307 to R310, R313, R317, R329). -/
def Obligations.ContractCommands : Prop :=
  ∀ (stream : BitVec 15) (v : PeerView) (s : State),
    let e := stream.toNat % 2048
    let all := [Instr.contractCmdRegister stream, .contractCmdActivate stream v, .contractCmdDeactivate stream, .contractCmdUnregister stream,
      .contractCmdCheck stream v, .contractCmdBreak stream]
    let ended := fun (t : State) (code detail : Nat) =>
      t.rd Reg.CONTRACT_STATUS = wd (2 ^ 8 * code + 2 ^ 16 * (detail % 65536)) ∧ t.bit Reg.INT_STATUS 2 = true
    let only := fun (c : Instr) (code detail : Nat) =>
      Gives c s fun t => ended t code detail ∧ s.regsAt t [Reg.CONTRACT_STATUS, Reg.INT_STATUS]
    let wrong := s.chipId.toNat * 2048 + e
    (∀ c ∈ all, s.ignoredEarly c) ∧
    (s.unitUp 4 → s.bit Reg.CONTRACT_STATUS 0 = true → ∀ c ∈ all, exec c s = .next s) ∧
    (s.unitUp 4 → s.bit Reg.CONTRACT_STATUS 0 = false → stream.toNat / 2048 ≠ s.chipId.toNat →
      (∀ c ∈ all, c ≠ .contractCmdActivate stream v → only c 2 0) ∧
      Gives (.contractCmdActivate stream v) s fun t =>
        ended t 2 0 ∧ t.rd Reg.REFUSALS = satAdd (s.rd Reg.REFUSALS) 1 ∧ s.regsAt t [Reg.REFUSALS, Reg.CONTRACT_STATUS, Reg.INT_STATUS]) ∧
    (s.unitUp 4 → s.bit Reg.CONTRACT_STATUS 0 = false → stream.toNat / 2048 = s.chipId.toNat →
      (s.strState e ≠ stFree → only (.contractCmdRegister stream) 1 wrong) ∧
      (∀ o, s.strState e = stFree → s.badField e = some o → only (.contractCmdRegister stream) 2 o) ∧
      (s.strState e = stFree → s.badField e = none → Gives (.contractCmdRegister stream) s fun t =>
        t.strState e = stRegistered ∧ t.broken e = false ∧ (∀ i, 1 ≤ i → i < 4 → t.rd (Reg.STAT e i) = 0) ∧
        t.run e = { StreamRun.reset with pinOff := (t.run e).pinOff, pinBytes := (t.run e).pinBytes } ∧ ended t 0 0) ∧
      (s.strState e ≠ stRegistered → ¬(s.strState e = stActive ∧ s.broken e = true) → Gives (.contractCmdActivate stream v) s fun t =>
        ended t 1 wrong ∧ t.rd Reg.REFUSALS = satAdd (s.rd Reg.REFUSALS) 1 ∧ s.regsAt t [Reg.REFUSALS, Reg.CONTRACT_STATUS, Reg.INT_STATUS]) ∧
      (s.strState e = stRegistered → s.cu.asleep = false →
        let w := State.lookHeader { s with cu := { s.cu with view := v } } e
        let refused := lowestFail (w.admission v e).1
        let checked := fun (code detail : Nat) => Gives (.contractCmdCheck stream v) s fun t =>
          ended t code detail ∧ w.regsAt t [Reg.CONTRACT_STATUS, Reg.INT_STATUS]
        (∀ p, refused = some p → checked p.1 p.2 ∧ Gives (.contractCmdActivate stream v) s fun t =>
          ended t p.1 p.2 ∧ t.rd Reg.REFUSALS = satAdd (w.rd Reg.REFUSALS) 1 ∧ w.regsAt t [Reg.REFUSALS, Reg.CONTRACT_STATUS, Reg.INT_STATUS]) ∧
        (refused = none → checked 0 0 ∧ Gives (.contractCmdActivate stream v) s fun t =>
          t.strState e = stActivating ∧ t.broken e = false ∧ (t.run e).charges = (w.admission v e).2 ∧ (t.run e).frames = [] ∧ ended t 0 0)) ∧
      (s.strState e = stRegistered → Gives (.contractCmdUnregister stream) s fun t =>
        t.strState e = stFree ∧ t.run e = StreamRun.reset ∧ ended t 0 0) ∧
      (s.strState e ≠ stRegistered → only (.contractCmdUnregister stream) 1 wrong) ∧
      (s.strState e ≠ stActivating → s.strState e ≠ stActive → s.strState e ≠ stSuspended → only (.contractCmdDeactivate stream) 1 wrong) ∧
      ((s.strState e = stActivating ∨ s.strState e = stActive ∨ s.strState e = stSuspended) → s.argTime ≠ s.now32 → Gives (.contractCmdDeactivate stream) s fun t =>
        t.rd Reg.CONTRACT_STATUS = 1 ∧ (t.run e).untilT = some s.argTime ∧ t.strState e = s.strState e ∧ s.regsOnly t [Reg.CONTRACT_STATUS]) ∧
      ((s.strState e = stActivating ∨ s.strState e = stActive) → s.argTime = s.now32 → Gives (.contractCmdDeactivate stream) s fun t =>
        t.strState e = stDraining ∧ (t.run e).expect = none ∧ t.rd Reg.CONTRACT_STATUS = 1) ∧
      (s.strState e = stSuspended → s.argTime = s.now32 → (∀ d ∈ s.integ.due, d.entry ≠ e) → Gives (.contractCmdDeactivate stream) s fun t =>
        t.strState e = stRegistered ∧ (t.run e).charges = [] ∧ (t.run e).bound = false ∧ ended t 0 0) ∧
      (s.strState e = stActive → Gives (.contractCmdBreak stream) s fun t =>
        t.broken e = true ∧ t.bit (Reg.STAT e 0) 25 = true ∧ t.strState e = stActive ∧ ended t 0 0) ∧
      (s.strState e ≠ stActive → only (.contractCmdBreak stream) 1 wrong))

/-- A frame end is given the stream's next sequence number while the stream accepts, and a source that stays silent for 1,000 µs past the expected end
gets a frame without data. A commit from a home tile before the cut, and the cut of a frame without a record, each put the frame's record into the
device result ring; a commit of no such frame is discarded and counted. RES_TAIL is taken within 1,024 of RES_HEAD (R316 to R326). -/
def Obligations.FramesAndRecords : Prop :=
  ∀ (e : Fin 2048) (s : State),
    let q := s.rd (Reg.STAT e 1)
    let accepted := fun (c : Instr) (ends : Nat) (gap : Bool) => Gives c s fun t =>
      t.rd (Reg.STAT e 1) = q + 1 ∧ (t.run e).frames = (s.run e).frames ++ [{ seq := q, ends := ends, gap := gap, hint := 0, done := none }] ∧
      (t.run e).expect = some (ends + s.hopUs e) ∧ s.regsOnly t [Reg.STAT e 1] ∧ t.tiles = s.tiles ∧ t.mem = s.mem
    let room := (s.rd Reg.RES_HEAD - s.rd Reg.RES_TAIL).toNat < 1024
    let plain := s.strState e = stActive ∧ s.broken e = false ∧ s.desc e 0x18 8 1 = 1 ∧ (s.run e).isReset = false ∧ (s.run e).isLost = false
    (s.accepts e s.now32 = true → accepted (.frameEnd e) s.now false) ∧
    (s.accepts e s.now32 = false → s.strState e ≠ stDraining → exec (.frameEnd e) s = .next s) ∧
    (s.strState e = stDraining → Gives (.frameEnd e) s fun t =>
      t = { s with integ := { s.integ with due := s.integ.due.map (fun d => if d.entry = e.val then { d with ripe := true } else d) } }) ∧
    ((s.run e).expect = none → exec (.sourceGap e) s = .next s) ∧
    (∀ x, (s.run e).expect = some x →
      (s.now < x + 1000 → exec (.sourceGap e) s = .next s) ∧
      (x + 1000 ≤ s.now → s.accepts e (wd x) = true → accepted (.sourceGap e) x true) ∧
      (x + 1000 ≤ s.now → s.accepts e (wd x) = false → exec (.sourceGap e) s = .next s)) ∧
    (∀ (r q : ReqFlit), q = asOp 2 r → s.arrivesBlock q 4 (0x10000 + 32 * e + 28) → s.fromHome e q = true →
      let g := (s.run e).stage q
      let bs := g.bytes.take 28 ++ toBytes 4 r.arg0.toNat ++ g.bytes.drop 32
      let fl := natAt bs 18 2
      (∀ f c, plain → room → s.strClass e ≠ 3 → fl.testBit 6 = false → fl.testBit 8 = false → (s.run e).frames = [f] → f.seq = wordAt bs 4 →
        f.done = none → s.cutAt e f = some c → s.now < c → Gives (.recordCommit r) s fun t =>
          s.ringRecord t (s.record e f 0 (fl &&& flLibrary) (bs.drop 20)) ∧ (t.run e).frames = [] ∧ (t.run e).written = some f.seq ∧
          s.answers t q 0 0 [] ∧ t.tiles = s.tiles) ∧
      (s.strState e ≠ stFree → (∀ f ∈ (s.run e).frames ++ (s.run e).preroll, f.seq ≠ wordAt bs 4) → Gives (.recordCommit r) s fun t =>
        t.rd Reg.LATE_DISCARDS = satAdd (s.rd Reg.LATE_DISCARDS) 1 ∧ (t.run e).frames = (s.run e).frames ∧ s.regsOnly t [Reg.LATE_DISCARDS])) ∧
    (∀ (r q : ReqFlit), q = asOp 2 r → s.arrivesBlock q 4 (0x20000 + 8 * e + 4) → s.fromHome e q = true → s.strState e ≠ stFree →
      Gives (.hintWrite r) s fun t =>
        (t.run e).frames = (s.run e).frames.map (fun f => if f.seq = ((s.run e).stage q).hint ∧ f.done = none then { f with hint := wfld r.arg0 7 0 } else f) ∧
        s.answers t q 0 0 [] ∧ t.regs = s.regs ∧ t.tiles = s.tiles) ∧
    (∀ f c, (s.run e).frames = [f] → f.done = none → s.cutAt e f = some c →
      (s.now < c → exec (.cut e f.seq) s = .next s) ∧
      (c ≤ s.now → plain → room → s.wakes e = false → s.fld Reg.CU_CONFIG 23 16 = 0 →
        let st := s.missStatus e f
        Gives (.cut e f.seq) s fun t =>
          s.ringRecord t (s.record e f st (if st = 3 then 0x11 else 0x01) missTail) ∧ (t.run e).frames = [] ∧
          t.rd Reg.MISSES = satAdd (s.rd Reg.MISSES) 1 ∧ t.fld (Reg.STAT e 2) 15 0 = min 0xFFFF (s.fld (Reg.STAT e 2) 15 0 + 1))) ∧
    ∀ v, s.ignoredEarly (.resTailWrite v) ∧
      (s.unitUp 4 → (s.rd Reg.RES_HEAD - v).toNat ≤ 1024 → Gives (.resTailWrite v) s fun t => t.rd Reg.RES_TAIL = v ∧ s.regsAt t [Reg.RES_TAIL]) ∧
      (s.unitUp 4 → 1024 < (s.rd Reg.RES_HEAD - v).toNat → exec (.resTailWrite v) s = .next s)

/-- Context records over clean memory without a pinned core, and with no ring's header line in the state area: a swap-in copies a valid record of the
stream's generation into the state area, or zeroes the area where the record is not valid, and its end makes the stream ACTIVE; a swap-out writes
lines 1 to 511 back and then the header; either is done only by one of the 32 swaps that the mover has been given; a drained stream returns to
REGISTERED; a due context reset zeroes the area and marks the next record; a fall-back pins banks and moves the core there (R252 to R257, R259, R262,
R265, R266, R440). -/
def Obligations.ContextSwaps : Prop :=
  ∀ (e : Fin 2048) (s : State),
    let run := s.run e
    let area := sramKey (s.physOf (s.areaTile e)) (s.areaOff e)
    let key := s.recordKey e
    let line := fun (i : Nat) => clayKey (s.recordPhys e) 0 / 64 + s.recordOff e / 64 + i
    let whole := (s.ltile (s.areaTile e)).touchesRing (s.areaOff e) 0x8000 = false ∧ s.recordFaulted e = false ∧ s.recordOff e % 64 = 0 ∧
      s.areaOff e % 64 = 0 ∧ ∀ i < 512, s.colRefuses (s.recordPhys e) (s.recordOff e / 64 + i) = false ∧
      s.mem.poison true (line i) = false ∧ s.mem.written true (line i) = true ∧ spGet (fun _ => 0) s.integ.odd (2 * line i + 1) = 0 ∧
      ∀ j < 8, s.mem.err true (8 * line i + j) = 0
    let flags := s.mem.seen true (key + 4)
    let gen := ofBytes (s.mem.bytes true (key + 2) 2)
    (run.swap ≠ .inWaiting ∨ s.swapTurn e = false → exec (.swapIn e) s = .next s) ∧
    (run.swap = .inWaiting → s.swapTurn e = true → run.stale = false → run.pinBanks = 0 → whole →
      (flags.getLsbD 0 = true → flags.getLsbD 1 = false → gen = s.desc e 0x0C 0 16 → Gives (.swapIn e) s fun t =>
        (∀ j < 0x8000, t.mem.seen false (area + j) = s.mem.seen true (key + j)) ∧ (t.run e).swap = .inCopied ∧ (t.run e).isReset = run.isReset) ∧
      (flags.getLsbD 0 = false → flags.getLsbD 1 = false → Gives (.swapIn e) s fun t =>
        (∀ j < 0x8000, t.mem.seen false (area + j) = 0) ∧ (t.run e).swap = .inCopied ∧ (t.run e).isReset = run.isReset) ∧
      (flags.getLsbD 1 = true → Gives (.swapIn e) s fun t =>
        (∀ j < 0x8000, t.mem.seen false (area + j) = 0) ∧ (t.run e).swap = .inCopied ∧ (t.run e).isReset = true)) ∧
    (run.swap = .inCopied → Gives (.swapInDone e) s fun t =>
      (s.strState e = stActivating → t.strState e = stActive ∧ (t.run e).swap = .none) ∧
      (s.strState e = stActive → t.strState e = stActive ∧ (t.run e).swap = .none) ∧ t.mem = s.mem ∧
      ((∀ (l : Fin 256) i, ((s.ltile l).thread i).dispq = []) → ∀ q, t.tile q = s.tile q)) ∧
    (run.swap ≠ .inCopied → exec (.swapInDone e) s = .next s) ∧
    (run.swap ≠ .outWaiting ∨ s.swapTurn e = false → exec (.swapOut e) s = .next s) ∧
    (run.swap = .outWaiting → s.swapTurn e = true → run.pinBanks = 0 → run.fallback = false → whole → s.readable (s.areaTile e) (s.areaOff e) 0x8000 →
      Gives (.swapOut e) s fun t =>
        (∀ j, 64 ≤ j ∨ 24 ≤ j ∧ j < 28 → j < 0x8000 → t.mem.seen true (key + j) = s.mem.seen false (area + j)) ∧ t.mem.seen true (key + 4) = 1 ∧
        wd (ofBytes (t.mem.bytes true (key + 8) 4)) = s.rd (Reg.STAT e 1) - 1 ∧ ofBytes (t.mem.bytes true (key + 16) 8) = s.now ∧
        (t.run e).swap = .outDone) ∧
    (s.strState e = stDraining → run.frames = [] → run.swap = .outDone → s.strClass e ≠ 3 → (∀ d ∈ s.integ.due, d.entry ≠ e.val) → Gives (.drainDone e) s fun t =>
      t.strState e = stRegistered ∧ (t.run e).charges = [] ∧ (t.run e).bound = false ∧ (t.run e).swap = .none ∧ t.mem = s.mem) ∧
    (s.strState e ≠ stDraining → exec (.drainDone e) s = .next s) ∧
    ((∀ d ∈ s.integ.due, ¬(d.entry = e.val ∧ d.ripe = true)) → exec (.contextReset e) s = .next s) ∧
    ((∃ d ∈ s.integ.due, d.entry = e.val ∧ d.ripe = true) → run.pinBanks = 0 →
      (∀ l ∈ s.homeTiles e, (s.ltile l).touchesRing (s.areaOff e) 0x8000 = false) → Gives (.contextReset e) s fun t =>
      (∀ l ∈ s.homeTiles e, ∀ j < 0x8000, t.mem.seen false (sramKey (s.physOf l) (s.areaOff e) + j) = 0) ∧ (t.run e).isReset = true ∧
      t.rd Reg.CONTEXT_RESETS = satAdd (s.rd Reg.CONTEXT_RESETS) 1 ∧ ∀ d ∈ t.integ.due, ¬(d.entry = e.val ∧ d.ripe = true)) ∧
    (run.fallDue ≠ .ripe → exec (.residencyFallback e) s = .next s) ∧
    ∀ l b, run.fallDue = .ripe → s.strState e = stActive → run.pinBanks = 0 → coreBanks run.pinBytes ≠ 0 →
      (s.homeTiles e).find? (fun l => (s.freeBanks l (coreBanks run.pinBytes)).isSome) = some l → s.freeBanks l (coreBanks run.pinBytes) = some b →
      s.readable (s.areaTile e) (s.areaOff e + run.pinOff) run.pinBytes → Gives (.residencyFallback e) s fun t =>
        (t.run e).fallDue = .none ∧ (t.run e).fallback = true ∧ (t.run e).coreIn = true ∧ (t.run e).pinTile = l ∧ (t.run e).pinBank = b ∧
        (t.run e).pinBanks = coreBanks run.pinBytes ∧ (∀ i < coreBanks run.pinBytes, (t.ltile l).bit Reg.MM_CFG (b + i) = true) ∧
        ∀ j < run.pinBytes / 4, (t.ltile l).rd (Reg.ACC (b + j / 512) (j % 512)) = s.sramWord (s.areaTile e) (s.areaOff e + run.pinOff + 4 * j)

/-- A WAKE pulse whose time is over ends; a stream whose generation lost its coverage breaks with COVERAGE at its frame boundary; RESOLVE holds for
every expert the reachable instance with the fewest link hops, the lowest on a tie, COVERED follows it, and DIR_VERSION counts a recomputation that
changed a word (R271, R272, R276, R332). -/
def Obligations.WakeAndCoverage : Prop :=
  ∀ (s : State),
    (∀ (n : Fin 8) (k : Nat), spGet (fun _ => none) s.pins.wakeEnd n = some k →
      (k ≤ s.now → Gives (.wakePulseEnd n) s fun t =>
        t.rd Reg.WAKE_CTRL = wSetBit (s.rd Reg.WAKE_CTRL) (8 + n) false ∧ { s with pins := t.pins }.regsAt t [Reg.WAKE_CTRL]) ∧
      (s.now < k → exec (.wakePulseEnd n) s = .next s)) ∧
    (∀ n : Fin 8, spGet (fun _ => none) s.pins.wakeEnd n = none → exec (.wakePulseEnd n) s = .next s) ∧
    (∀ e : Fin 2048,
      ((s.run e).cover = .ripe → s.strState e ≠ stFree → s.strState e ≠ stRegistered → Gives (.coverageBreak e) s fun t =>
        t.broken e = true ∧ t.bit (Reg.STAT e 0) 18 = true ∧ t.strState e = s.strState e ∧ (t.run e).cover = .none ∧ t.tiles = s.tiles ∧ t.mem = s.mem) ∧
      ((s.run e).cover ≠ .ripe → exec (.coverageBreak e) s = .next s)) ∧
    Gives .resolveRecompute s fun t =>
      t.tiles = s.tiles ∧ t.mem = s.mem ∧
      ∀ (g : Fin 2) (x : Fin 64),
        let lo := t.rd (Reg.RESOLVE_LO (64 * g + x))
        let inst := fun (k : Nat) => s.rd (Reg.INSTANCE_LO (256 * g + 4 * x + k))
        ((∀ k < 4, s.instHops g x k = none) → lo = 0 ∧ t.rd (Reg.RESOLVE_HI (64 * g + x)) = 0) ∧
        (∀ k h, k < 4 → s.instHops g x k = some h → (∀ j < 4, ∀ h', s.instHops g x j = some h' → h ≤ h' ∧ (j < k → h < h')) →
          wfld lo 27 0 = wfld (inst k) 27 0 ∧ wbit lo 28 = true ∧ wfld lo 31 29 = k ∧ t.rd (Reg.RESOLVE_HI (64 * g + x)) = wd h) ∧
        t.bit (Reg.GEN_SLOT g) 25 = t.coveredNow g ∧
        ((∀ i < 128, t.rd (Reg.RESOLVE_LO i) = s.rd (Reg.RESOLVE_LO i) ∧ t.rd (Reg.RESOLVE_HI i) = s.rd (Reg.RESOLVE_HI i)) →
          t.rd Reg.DIR_VERSION = s.rd Reg.DIR_VERSION) ∧
        ((∃ i < 128, t.rd (Reg.RESOLVE_LO i) ≠ s.rd (Reg.RESOLVE_LO i) ∨ t.rd (Reg.RESOLVE_HI i) ≠ s.rd (Reg.RESOLVE_HI i)) →
          t.rd Reg.DIR_VERSION = s.rd Reg.DIR_VERSION + 1)

/-- The scrubber, at work on a tile in a role, checks a line, corrects its single-bit errors and the copies of its written and poison bits that
disagree, or poisons it, and goes on to the next; a bank idle for its time, or in LISTEN, keeps its data in retention; a failing bank is copied to the
column's spare and then stands on it; a column that fails is marked, with its cause. CTX_UNITS does not change while a stream exists, and STALE_TAIL
moves only within 64 of its head (R425, R428, R433, R444, R446, R447, R450 to R452). -/
def Obligations.MemoryIntegrity : Prop :=
  ∀ (s : State),
    let l := s.fld Reg.SCRUB_STATUS 7 0
    let ln := s.fld Reg.SCRUB_STATUS 23 9
    let g := sramKey (s.physOf l) 0 / 64 + ln
    let next := wd (l + 2 ^ 9 * (ln + 1))
    (s.bit Reg.SCRUB_CFG 0 = false ∨ s.ready = false → exec .scrubVisit s = .next s) ∧
    (s.bit Reg.SCRUB_CFG 0 = true → s.ready = true → s.mapState l = 0 → s.listening = false → s.bit Reg.SCRUB_STATUS 8 = false → ln < 4095 →
      s.mem.written false g = true → s.mem.poison false g = false →
      ((∀ k < 8, s.mem.err false (8 * g + k) = 0) → spGet (fun _ => 0) s.integ.odd (2 * g) = 0 →
        Gives .scrubVisit s fun t => t.rd Reg.SCRUB_STATUS = next ∧ s.regsAt t [Reg.SCRUB_STATUS]) ∧
      ((∀ k < 8, s.mem.err false (8 * g + k) ≠ 2) → (∃ k < 8, s.mem.err false (8 * g + k) = 1) → Gives .scrubVisit s fun t =>
        t.rd Reg.SCRUB_STATUS = next ∧ (∀ k < 8, t.mem.err false (8 * g + k) = 0) ∧ (∀ c j, t.mem.seen c j = s.mem.seen c j) ∧
        (t.tile (s.physOf l)).rd Reg.CORRECTED = satAdd ((s.tile (s.physOf l)).rd Reg.CORRECTED) (((List.range 8).map (fun k => s.mem.err false (8 * g + k))).count 1)) ∧
      ((∀ k < 8, s.mem.err false (8 * g + k) = 0) → ∀ e, spGet (fun _ => 0) s.integ.odd (2 * g) = e → e ≠ 0 → Gives .scrubVisit s fun t =>
        t.rd Reg.SCRUB_STATUS = next ∧ t.rd Reg.META_ERRORS = satAdd (s.rd Reg.META_ERRORS) (e % 2 + e / 2 % 2) ∧
        spGet (fun _ => 0) t.integ.odd (2 * g) = 0 ∧ t.mem = s.mem ∧ s.regsOnly t [Reg.SCRUB_STATUS, Reg.META_ERRORS]) ∧
      ((∃ k < 8, s.mem.err false (8 * g + k) = 2) → (s.regionOf l false ln).1 ≠ 2 → Gives .scrubVisit s fun t =>
        t.rd Reg.SCRUB_STATUS = next ∧ t.rd Reg.POISONED_LINES = satAdd (s.rd Reg.POISONED_LINES) 1 ∧ t.bit Reg.INT_STATUS 8 = true)) ∧
    (∀ (p : Fin 272) (bank : Fin 16) (idle : Nat),
      let due := s.listening = true ∨ (0 < s.fld Reg.RET_CFG 15 0 ∧ s.fld Reg.RET_CFG 15 0 ≤ idle ∧ s.bit Reg.RET_CFG 16 = false)
      (due → Gives (.bankRetention p bank idle) s fun t =>
        spGet (fun _ => false) t.integ.retained (16 * p + bank) = true ∧
        (∀ b, b ≠ 16 * p.val + bank → spGet (fun _ => false) t.integ.retained b = spGet (fun _ => false) s.integ.retained b) ∧
        t = { s with integ := { s.integ with retained := t.integ.retained } }) ∧
      (¬due → exec (.bankRetention p bank idle) s = .next s)) ∧
    (∀ (k : Fin 256) (bank : Fin 16),
      let p := s.physOf k
      let may := wbit (s.col p).status 3 = false ∧ wbit (s.col p).status 0 = false ∧ s.bankFailing (16 * p + bank) = true ∧ ∀ x ∈ s.integ.sparing, x.1 ≠ p
      (may → exec (.bankSpare k bank) s = .next { s with integ := { s.integ with sparing := s.integ.sparing ++ [(p, bank.val)] } }) ∧
      (¬may → exec (.bankSpare k bank) s = .next s) ∧
      (s.integ.sparing = [(p, bank.val)] → s.mem.badLines true p = [] → Gives (.bankSpareDone k) s fun t =>
        t.integ.sparing = [] ∧ (t.col p).status = wSetFld (wSetBit (s.col p).status 3 true) 7 4 bank ∧ t.bit Reg.INT_STATUS 8 = true ∧
        t.rd Reg.BANK_SPARES = satAdd (s.rd Reg.BANK_SPARES) 1 ∧ t.bankFailing (16 * p + bank) = false ∧ t.mem = s.mem ∧ t.tiles = s.tiles) ∧
      (s.integ.sparing = [] → exec (.bankSpareDone k) s = .next s) ∧
      ∀ cause : Fin 4,
        let holds := wbit (s.col p).status 0 = false ∧ s.boot.low = false ∧ s.boot.safe = false ∧
          (cause = 2 ∨ cause = 3 ∨ (cause = 1 ∧ wbit (s.col p).status 3 = true ∧ s.bankFailing (16 * p + bank) = true))
        (holds → Gives (.columnFault k cause bank) s fun t =>
          (t.col p).status = wSetFld (wSetFld (wSetBit (s.col p).status 0 true) 2 1 cause) 11 8 (if cause = 1 then bank.val else 0) ∧
          t.rd Reg.COLUMN_FAULTS = satAdd (s.rd Reg.COLUMN_FAULTS) 1 ∧ t.bit Reg.INT_STATUS 8 = true ∧ t.mem = s.mem) ∧
        (¬holds → exec (.columnFault k cause bank) s = .next s)) ∧
    ∀ v,
      let units := if 32 < wfld v 5 0 then s.fld Reg.POOL_CFG 5 0 else wfld v 5 0
      (s.ready = false → exec (.poolCfgWrite v) s = .next { s with lastStatus := 0x0B } ∧ exec (.staleTailWrite v) s = .next { s with lastStatus := 0x0B }) ∧
      (s.unitUp 14 → units ≠ s.fld Reg.POOL_CFG 5 0 → s.liveStreams ≠ [] → exec (.poolCfgWrite v) s = .next { s with lastStatus := 0x0B }) ∧
      (s.unitUp 14 → units = s.fld Reg.POOL_CFG 5 0 ∨ s.liveStreams = [] → Gives (.poolCfgWrite v) s fun t =>
        t.rd Reg.POOL_CFG = wSetFld (v &&& 0x300#32) 5 0 units ∧ { s with lastStatus := 0 }.regsAt t [Reg.POOL_CFG]) ∧
      (s.unitUp 14 → (s.rd Reg.STALE_HEAD - v).toNat ≤ 64 → Gives (.staleTailWrite v) s fun t =>
        t.rd Reg.STALE_TAIL = v ∧ { s with lastStatus := 0 }.regsAt t [Reg.STALE_TAIL]) ∧
      (s.unitUp 14 → 64 < (s.rd Reg.STALE_HEAD - v).toNat → exec (.staleTailWrite v) s = .next { s with lastStatus := 0 })

/-- FE_CMD LOAD_CAL loads 64 ALIGN words from a whole committed set or reports what is wrong; a wake request takes the marks of its groups in LISTEN
and is counted as ignored in the other modes; ALIGN and TH CTRL are written as their rules say, a stuck channel is marked and breaks its streams, and
an array group whose settle time is over no longer settles (R340, R343, R352, R355, R359, R360, R365, R394). -/
def Obligations.FrontEndCommands : Prop :=
  ∀ (s : State),
    let cal := fun (i : Nat) => s.nv.value (wd (0x10000 + i))
    let report := fun (e : Nat) => Gives .feCmdLoadCal s fun t => t.rd Reg.FE_STATUS = wSetFld (s.rd Reg.FE_STATUS) 11 10 e ∧ s.regsAt t [Reg.FE_STATUS]
    let wakes := fun (c : Instr) (groups : Nat) =>
      let gs := (List.range 4).filter (fun g => groups.testBit g && s.bit (Reg.PREROLL_CFG g) 0)
      (s.pwr.target ≠ some 0 → s.inListen = false → Gives c s fun t =>
        t.rd Reg.WAKES_IGNORED = satAdd (s.rd Reg.WAKES_IGNORED) 1 ∧ s.regsOnly t [Reg.WAKES_IGNORED] ∧ t.fe = s.fe ∧ t.pwr = s.pwr ∧ t.tiles = s.tiles) ∧
      (s.pwr.target ≠ some 0 → s.inListen = true → gs ≠ [] → s.fe.wakeAt ≠ some s.now → Gives c s fun t =>
        (∀ g < 4, (t.grp g).mark = ((s.grp g).mark || decide (g ∈ gs))) ∧ t.rd Reg.WAKES = satAdd (s.rd Reg.WAKES) 1 ∧ t.fe.wakeAt = some s.now ∧
        t.pwr.waking = some (s.pwr.waking.getD s.now))
    (s.ready = false → ∀ c ∈ [Instr.feCmdLoadCal, .feCmdWake], exec c s = .next { s with lastStatus := 0x0B }) ∧
    (s.unitUp 0 → cal 0 = none → (∀ g < 4, cal (1 + g) = none) → report 1) ∧
    (s.unitUp 0 → cal 0 = none → (∃ g < 4, cal (1 + g) ≠ none) → report 3) ∧
    (s.unitUp 0 → (∀ h, cal 0 = some h → natAt h 0 2 ≠ 1 ∨ ∃ g < 4, cal (1 + g) = none) → cal 0 ≠ none → report 3) ∧
    (∀ h, s.unitUp 0 → cal 0 = some h → natAt h 0 2 = 1 → (∀ g < 4, cal (1 + g) ≠ none) → (∀ g < 4, s.bit (Reg.FE_CLK g) 7 = false) →
      Gives .feCmdLoadCal s fun t =>
        (∀ c < 64, ∀ bs, cal (1 + c / 16) = some bs → t.rd (Reg.ALIGN c) = wordAt bs (4 * (c % 16)) &&& 0x03FFFFFF#32) ∧
        t.rd Reg.FE_STATUS = wSetBit (wSetFld (s.rd Reg.FE_STATUS) 11 10 0) 8 true ∧
        s.regsOnly t (Reg.FE_STATUS :: (List.range 64).map Reg.ALIGN) ∧ t.tiles = s.tiles ∧ t.mem = s.mem) ∧
    (s.unitUp 0 → wakes .feCmdWake s.prerollGroups) ∧
    (∀ r q : ReqFlit, q = asOp 2 r → s.arrivesBlock q 0 0xC → wakes (.wakeReqWrite r) (wfld r.arg0 3 0)) ∧
    (∀ (c : Fin 64) (v : Word), s.unitUp 0 → Gives (.alignWrite c v) s fun t =>
      t.rd (Reg.ALIGN c) = v &&& 0x03FFFFFF#32 ∧ t.rd Reg.FE_STATUS = wSetBit (s.rd Reg.FE_STATUS) 8 false ∧
      { s with fe := t.fe }.regsAt t [Reg.ALIGN c, Reg.FE_STATUS]) ∧
    (∀ (c : Fin 64) (u : Fin 2) (v : Word), s.unitUp 1 → Gives (.thCtrlWrite c u v) s fun t =>
      t.rd (Reg.TH_CTRL c u) = wSetBit (v &&& 0x3FFF1FFF#32) 0 (wbit v 0 && decide (s.fld (Reg.TH_OFF c u) 23 0 ≤ s.fld (Reg.TH_ON c u) 23 0)) ∧
      t.rd (Reg.TH_MEASURE c u) = 0 ∧ (t.thUnit c u).e = 0 ∧ (t.thUnit c u).held = 0 ∧
      { s with fe := t.fe }.regsAt t [Reg.TH_CTRL c u, Reg.TH_MEASURE c u]) ∧
    (∀ c : Fin 64,
      (s.captured c = true → Gives (.stuckDetect c) s fun t =>
        t.bit (Reg.STUCK (c / 32)) (c % 32) = true ∧ t.tiles = s.tiles ∧ t.mem = s.mem ∧
        ∀ e ∈ s.liveStreams, s.strServed e = true → s.desc e 0 0 4 = 2 → s.desc e 0 4 12 = c → t.broken e = true) ∧
      (s.captured c = false → exec (.stuckDetect c) s = .next s)) ∧
    ((∀ g < 4, ∀ k, (s.grp g).settle = some k → s.now < k) → exec .settleEnd s = .next s) ∧
    ∀ g < 4, ∀ k, (s.grp g).settle = some k → k ≤ s.now → Gives .settleEnd s fun t => (t.grp g).settle = none

/-- Decimation chains: a start takes a stopped chain with a valid setting to RUNNING, or to ARMED where its clock stands still or settles, and marks
an invalid one; a stop stops it; a setting, filled in from presets 0 to 2 or raw, is taken while the chain is stopped and refused with ERR_BUSY
otherwise; SRC alone may change while it runs, where the setting is valid at the new channel, and takes effect at its next output; shifts wait for the
next output sample; a read of MAXABS restarts it; each output interval gives one sample (R366, R369, R376, R382, R386, R387, R390 to R392). -/
def Obligations.DecimationChains : Prop :=
  ∀ (s : State),
    (∀ (r : Fin 3) (v : Word) (k : Nat), s.unitUp 1 → k ∈ dcChains r v →
      let enabled := k < 64 ∨ s.bit (Reg.FINE_CFG0 (k - 64)) 6 = true
      ((s.path k).st = 0 → enabled → s.chainValid k = true → Gives (.dcStart r v) s fun t =>
        (t.path k).st = (if s.captured (s.chanOf k) = true ∧ s.startWaits (s.chanOf k) = false then 2 else 1) ∧ (t.path k).cfgErr = false) ∧
      ((s.path k).st = 0 → enabled → s.chainValid k = false → Gives (.dcStart r v) s fun t => (t.path k).st = 0 ∧ (t.path k).cfgErr = true) ∧
      ((s.path k).st = 0 → ¬enabled → Gives (.dcStart r v) s fun t => (t.path k).st = 0 ∧ (t.path k).cfgErr = (s.path k).cfgErr) ∧
      (Gives (.dcStop r v) s fun t => (t.path k).st = 0 ∧ ((s.path k).st ≠ 0 → (t.path k).count = 0 ∧ (t.path k).settled = false))) ∧
    (∀ (c : Fin 64) (v : Word), s.unitUp 1 →
      ((s.path c).st ≠ 0 → Gives (.chCfg0Write c v) s fun t => t.lastStatus = 0x0B ∧ t.rd (Reg.CH_CFG0 c) = s.rd (Reg.CH_CFG0 c)) ∧
      ((s.path c).st = 0 → wfld v 2 0 = 7 → Gives (.chCfg0Write c v) s fun t =>
        t.lastStatus = 0 ∧ t.rd (Reg.CH_CFG0 c) = v &&& 0x1F7FF73F#32 ∧ (t.path c).st = 0) ∧
      ((s.path c).st = 0 → 3 ≤ wfld v 2 0 → wfld v 2 0 ≤ 6 → Gives (.chCfg0Write c v) s fun t =>
        t.lastStatus = 0 ∧ t.rd (Reg.CH_CFG0 c) = s.rd (Reg.CH_CFG0 c)) ∧
      ((s.path c).st = 0 → wfld v 2 0 < 3 →
        let f := outRate (wfld v 5 3)
        let m := presetOf (wfld v 2 0)
        let ratio := if f = 0 then 0 else s.pdmOf c / (2 * f)
        let w := wd (wfld v 2 0 + 2 ^ 3 * wfld v 5 3 + 2 ^ 8 * m.1 + 2 ^ 12 * (ratio % 256) + 2 ^ 20 * m.2.2.1 + 2 ^ 24 * m.2.1)
        let valid := ratio < 256 ∧ coarseValid w (s.pdmOf c) = true
        (valid → Gives (.chCfg0Write c v) s fun t => t.lastStatus = 0 ∧ t.rd (Reg.CH_CFG0 c) = w) ∧
        (¬valid → Gives (.chCfg0Write c v) s fun t => t.lastStatus = 0x0B ∧ t.rd (Reg.CH_CFG0 c) = s.rd (Reg.CH_CFG0 c)))) ∧
    (∀ (f : Fin 8) (v : Word), s.unitUp 1 → (s.path (64 + f)).st = 0 → wfld v 10 8 = 7 →
      let taken := wbit v 6 = true ∧ ∃ j < 8, j ≠ f.val ∧ s.bit (Reg.FINE_CFG0 j) 6 = true ∧ s.fld (Reg.FINE_CFG0 j) 5 0 = wfld v 5 0
      (taken → Gives (.fineCfg0Write f v) s fun t => t.lastStatus = 0x0B ∧ t.rd (Reg.FINE_CFG0 f) = s.rd (Reg.FINE_CFG0 f)) ∧
      (¬taken → Gives (.fineCfg0Write f v) s fun t =>
        t.lastStatus = 0 ∧ t.rd (Reg.FINE_CFG0 f) = v &&& 0x03FFFF7F#32 ∧ (t.path (64 + f)).src = wfld v 5 0)) ∧
    (∀ (f : Fin 8) (src : Fin 64),
      let w := s.rd (Reg.FINE_CFG0 f)
      let free := ∀ j < 8, j ≠ f.val → s.bit (Reg.FINE_CFG0 j) 6 = true → s.fld (Reg.FINE_CFG0 j) 5 0 ≠ src.val
      let refused := Gives (.channelSwitch f src) s fun t => t.lastStatus = 0x0B ∧ t.rd (Reg.FINE_CFG0 f) = w ∧ (t.path (64 + f)).src = (s.path (64 + f)).src
      s.unitUp 1 → (s.path (64 + f)).st = 2 → wfld w 5 0 ≠ src.val →
        ((wfld w 10 8 = 7 ∧ w &&& ~~~0x03FFFF7F#32 = 0 ∨ wfld w 10 8 = 3 ∧ ∃ p, s.fineFill (wSetFld w 5 0 src) = some (wSetFld w 5 0 src, p)) →
          free → Gives (.channelSwitch f src) s fun t =>
            t.lastStatus = 0 ∧ t.rd (Reg.FINE_CFG0 f) = wSetFld w 5 0 src ∧ (t.path (64 + f)).src = (s.path (64 + f)).src ∧ (t.path (64 + f)).st = 2) ∧
        (wfld w 10 8 = 3 → s.fineFill (wSetFld w 5 0 src) = none → refused) ∧
        (wfld w 10 8 ≠ 3 → wfld w 10 8 ≠ 7 → refused)) ∧
    (∀ f : Fin 8,
      let k := 64 + f.val
      let w := s.rd (Reg.FINE_CFG0 f)
      let c := wfld w 5 0
      (s.path k).st = 2 → (s.path k).src ≠ c → wbit w 6 = true → Gives (.chainOutputSample (.fine f) []) s fun t =>
        (t.path k).src = c ∧ (t.path k).count = 0 ∧
        (t.path k).st = if fineValid w (s.pdmOf c) = true then (if s.captured c = true ∧ s.startWaits c = false then 2 else 1) else 0) ∧
    (∀ (k : ChainSel) (v : Word), s.unitUp 1 → Gives (.shiftWrite k v) s fun t =>
      t.lastStatus = 0 ∧ t.rd (cfg1Key (chainKey k)) = v &&& (if chainKey k < 64 then 0x0FFFFFFF#32 else 0x7FFFFFFF#32) ∧
      ((s.path (chainKey k)).st = 2 → s.captured (s.chanOf (chainKey k)) = true →
        (t.path (chainKey k)).shifts = (s.path (chainKey k)).shifts)) ∧
    (∀ k : ChainSel, s.unitUp 1 →
      let n := match k with | .coarse c => s.pairOf c | .fine f => 64 + f.val
      Gives (.maxabsRead k) s fun t =>
        t.readData = wd (s.path n).maxabs ∧ t.path n = { s.path n with maxabs := 0 } ∧ (∀ j, j ≠ n → t.path j = s.path j) ∧
        t = { s with fe := t.fe, readData := t.readData, lastStatus := 0 }) ∧
    ∀ (c : Fin 64) (bits : List Bool),
      let p := s.path c
      let x := s.coarseSample c p bits
      p.st = 2 → p.fastOn = false → s.captured c = true → (onListenWire c = true ∨ s.settling (c / 16) = false) → p.shifts = s.rd (Reg.CH_CFG1 c) →
        bits.length = 2 * s.fld (Reg.CH_CFG0 c) 19 12 → bits ≠ [] → Gives (.chainOutputSample (.coarse c) bits) s fun t =>
          (t.path c).count = p.count + 1 ∧ (t.path c).settled = (p.settled || decide (p.startAt + p.warm ≤ s.now)) ∧
          (t.path c).maxabs = max p.maxabs (if p.settled || decide (p.startAt + p.warm ≤ s.now) then x.2.1.natAbs else 0) ∧
          (t.path c).integ = x.1.integ ∧ (t.path c).comb = x.1.comb ∧ (t.path c).hist = x.1.hist ∧
          t.rd (Reg.SAT c) = satAdd (s.rd (Reg.SAT c)) x.2.2

/-- A complete block of a group, of a listen feed or of a locked TDM port leaves its queue as one posted PUT to its ring, at once or when its way is
free, or, with four such pushes held, is dropped and counted; before it is complete nothing is pushed, and with its delivery off, or in LISTEN, a
group pushes nothing and a port only takes the block away (R346, R347, R349, R402, R403). -/
def Obligations.Deliveries : Prop :=
  ∀ (s : State),
    let sent := fun (c : Instr) (a : Addr) (prio size : Nat) (data : List Byte) (p : State → Prop) =>
      Addr.chip a = s.chipId.toNat → s.issueError a = none → s.heldPushes 10 a < 4 → Gives c s fun t =>
        let r := s.stampEpoch (mkReq s 2 false prio a size 0 0xFF 10 0 data)
        s.blockPosted t r ∧ t.fab.marks.map (·.req) = s.fab.marks.map (·.req) ++ [r] ∧ t.regs = s.regs ∧ p t
    let dropped := fun (c : Instr) (a : Addr) (lost : Nat) (p : State → Prop) =>
      4 ≤ s.heldPushes 10 a → Gives c s fun t => t.fab = s.fab ∧ t.rd lost = satAdd (s.rd lost) 1 ∧ p t
    (∀ g : Fin 4,
      let hi := s.rd (Reg.FE_DELIV_HI g)
      let a := s.addrAt (Reg.FE_DELIV_LO g) (Reg.FE_DELIV_HI g)
      let n := if wbit hi 9 then 4 else 8
      let whole := ∀ j ∈ s.runningChannels g, n ≤ (spGet (fun _ => []) (s.grp g).queues j).length
      let after := fun (t : State) => (t.grp g).sent = (s.grp g).sent + n
      (wbit hi 8 = false ∨ s.inListen = true ∨ (s.grp g).begun = false ∨ s.runningChannels g = [] ∨ ¬whole → exec (.delivPush g) s = .next s) ∧
      (wbit hi 8 = true → s.inListen = false → (s.grp g).begun = true → s.runningChannels g ≠ [] → whole →
        sent (.delivPush g) a (if wbit hi 14 then 0 else 1) 8 (s.delivBlock g n (wbit hi 9) (wfld hi 13 10)) after ∧
        dropped (.delivPush g) a (Reg.FE_DELIV_LOST g) after)) ∧
    (∀ g : Fin 4,
      let a := s.addrAt (Reg.FE_FEED_LO g) (Reg.FE_FEED_HI g)
      let q := (s.grp g).feedQ
      let after := fun (t : State) => (t.grp g).feedQ = q.drop 32 ∧ (t.grp g).feedPos = (s.grp g).feedPos + 32
      (s.bit (Reg.FE_FEED_HI g) 8 = false ∨ q.length < 32 → exec (.feedPush g) s = .next s) ∧
      (s.bit (Reg.FE_FEED_HI g) 8 = true → 32 ≤ q.length →
        sent (.feedPush g) a 1 6 ((q.take 32).flatMap (sampleBytes 2)) after ∧ dropped (.feedPush g) a (Reg.FEED_LOST g) after)) ∧
    ∀ (p : Fin 2) (frames : List (List BclkSample)),
      let hi := s.rd (Reg.TDM_DELIV_HI p)
      let a := s.addrAt (Reg.TDM_DELIV_LO p) (Reg.TDM_DELIV_HI p)
      let n := if s.bit (Reg.TDM_CFG p) 13 then 4 else 8
      let width := wlenBits (s.fld (Reg.TDM_CFG p) 8 7)
      let slot := fun (f : List BclkSample) (j : Nat) =>
        (List.range width).foldl (fun a i => 2 * a + ((frameBits (s.rd (Reg.TDM_CFG p)) f).getD (32 * j + i) false).toNat) 0
      let value := fun (f : List BclkSample) => (List.range 16).map (fun j => if j < s.tdmSlots p then sext width (slot f j) else 0)
      let q := (s.tdm p).queue ++ frames.map value
      (s.tdmState p ≠ tdmLocked → exec (.tdmDelivPush p frames) s = .next s) ∧
      (s.tdmState p = tdmLocked → q.length < n → Gives (.tdmDelivPush p frames) s fun t =>
        (t.tdm p).queue = q ∧ t = { s with ports := t.ports }) ∧
      (s.tdmState p = tdmLocked → n ≤ q.length →
        let after := fun (t : State) => (t.tdm p).queue = q.drop n ∧ (t.tdm p).sent = (s.tdm p).sent + n
        (wbit hi 8 = false ∨ s.inListen = true → Gives (.tdmDelivPush p frames) s fun t => t = { s with ports := t.ports } ∧ after t) ∧
        (wbit hi 8 = true → s.inListen = false →
        let data := (q.take n).flatMap (fun f => f.flatMap (fun v =>
          if s.bit (Reg.TDM_CFG p) 13 then sampleBytes 4 v else sampleBytes 2 (clampI (-32768) 32767 (rneShift v (s.fld (Reg.TDM_CFG p) 18 14)))))
        sent (.tdmDelivPush p frames) a (if wbit hi 14 then 0 else 1) 8 data after ∧ dropped (.tdmDelivPush p frames) a (Reg.TDM_DELIV_LOST p) after))

/-- A TDM port locks, loses its lock, counts a frame sync error with one frame of zeros, and sends the block fetched ahead while it fetches the next,
zeros with a count where none is there; an address event is looked up in its map, queued as a POST or acknowledged without one, withheld while its
queue is full or its rate is used up, and discarded when its hold expires; a queued POST goes out with its stream's priority of that moment; host
frames and the pushes of event frames signal frame ends (R400, R401, R405, R407 to R411, R413, R414, R418). -/
def Obligations.PortEvents : Prop :=
  ∀ (p : Fin 2) (s : State),
    let on := s.bit (Reg.TDM_CFG p) 0 = true
    (on → s.tdmState p = tdmSeeking ∨ s.tdmState p = tdmLost → Gives (.tdmLock p) s fun t =>
      t.tdmState p = tdmLocked ∧ (t.tdm p).queue = [] ∧ (t.tdm p).sent = 0 ∧ (t.tdm p).fails = 0 ∧ { s with ports := t.ports }.regsAt t [Reg.TDM_STATUS p]) ∧
    (¬(on ∧ (s.tdmState p = tdmSeeking ∨ s.tdmState p = tdmLost)) → exec (.tdmLock p) s = .next s) ∧
    (∀ cause : Fin 3, on → s.tdmState p ≠ tdmLost → (cause = 1 → 4 ≤ (s.tdm p).fails) → Gives (.tdmLost p cause) s fun t =>
      t.tdmState p = tdmLost ∧ t.bit (Reg.TDM_STATUS p) 2 = (s.bit (Reg.TDM_STATUS p) 2 || decide (cause = 2)) ∧ (t.tdm p).queue = [] ∧
      ∀ e ∈ s.liveStreams, s.strServed e = true → s.onTdmPort p e = true → t.broken e = true) ∧
    (∀ cause : Fin 3, on → s.tdmState p = tdmLost →
      exec (.tdmLost p cause) s = .next (if cause = 2 then s.setBit (Reg.TDM_STATUS p) 2 true else s)) ∧
    (∀ cause : Fin 3, ¬on ∨ cause = 1 ∧ (s.tdm p).fails < 4 → exec (.tdmLost p cause) s = .next s) ∧
    (s.tdmState p = tdmLocked → Gives (.tdmFsError p []) s fun t =>
      (t.tdm p).queue = (s.tdm p).queue ++ [List.replicate 16 0] ∧ (t.tdm p).fails = (s.tdm p).fails + 1 ∧
      t.rd (Reg.FS_ERR p) = satAdd (s.rd (Reg.FS_ERR p)) 1 ∧ t.rd (Reg.TDM_GAP_SAMPLES p) = satAdd (s.rd (Reg.TDM_GAP_SAMPLES p)) 1) ∧
    (∀ remote, s.bit (Reg.TDM_CFG p) 19 = false ∨ s.tdmState p ≠ tdmLocked ∨ s.inListen = true → exec (.tdmTxFetch p remote) s = .next s) ∧
    (s.bit (Reg.TDM_CFG p) 19 = true → s.tdmState p = tdmLocked → s.inListen = false →
      let a := s.addrAt (Reg.TX_LO p) (Reg.TX_HI p)
      let l := Addr.tile a
      let get := mkReq s 1 true 1 a 6 0 0xFF 10 0 []
      let fetched := fun (t : State) (b : Option (List Byte)) =>
        t.rd (Reg.TX_UNDERRUN p) = (if b = none then satAdd (s.rd (Reg.TX_UNDERRUN p)) 1 else s.rd (Reg.TX_UNDERRUN p)) ∧
        (t.tdm p).txNow = (s.tdm p).txNext.getD (List.replicate 256 0) ∧ (t.tdm p).txNext = some (b.getD (List.replicate 256 0))
      (∀ remote, s.bit (Reg.TX_HI p) 8 = false ∨ s.issueError a ≠ none → Gives (.tdmTxFetch p remote) s fun t =>
        fetched t none ∧ { s with ports := t.ports }.regsAt t [Reg.TX_UNDERRUN p]) ∧
      (s.bit (Reg.TX_HI p) 8 = true → s.issueError a = none → Addr.chip a ≠ s.chipId.toNat →
        (Gives (.tdmTxFetch p none) s fun t => fetched t none) ∧
        ∀ tail k b, Gives (.tdmTxFetch p (some (tail, k, b))) s fun t => fetched t (some (takeBytes 256 b))) ∧
      (∀ (n : Fin 8) (remote : Option (Word × Nat × List Byte)), s.bit (Reg.TX_HI p) 8 = true → s.issueError a = none → Addr.chip a = s.chipId.toNat →
        Addr.space a = 0 → s.tileShut l = false → s.relocOf l = none → (s.ltile l).vcHeld get = false → (∀ q ∈ s.fab.inflight ++ s.fab.waiting,
          sameLane get q = false) →
        s.epochEntry s.chipId.toNat l = s.epochOf l → (s.ltile l).ringHolds n (Addr.off a) →
        (s.ltile l).ringBase n = Addr.off a → ringSlotSize ((s.ltile l).rd (Reg.RING_CFG n)) = 256 → s.readable l (Addr.off a) 64 →
        let tail := s.sramWord l (Addr.off a + 8)
        let slot := (s.ltile l).ringSlot n tail.toNat
        s.sramWord l (Addr.off a + 4) ≠ tail → s.readable l slot 256 → Gives (.tdmTxFetch p remote) s fun t => fetched t (some (s.sram l slot 256)))) ∧
    (∀ a : Fin 65536,
      let lo := s.rd (Reg.MAP_ENTRY_LO p (a / 256))
      let hi := s.rd (Reg.MAP_ENTRY_HI p (a / 256))
      let m := wfld hi 15 8
      let free := s.bit (Reg.AE_CFG p) 0 = true ∧ (s.aer p).held = none
      let paced := s.fld (Reg.AE_CFG p) 8 1 = 0
      (¬free → exec (.aeEvent p a) s = .next s) ∧
      (free → paced → wbit lo 28 = false → Gives (.aeEvent p a) s fun t =>
        t.rd (Reg.AE_EVENTS p) = satAdd (s.rd (Reg.AE_EVENTS p)) 1 ∧ t.rd (Reg.AE_UNMAPPED p) = satAdd (s.rd (Reg.AE_UNMAPPED p)) 1 ∧
        (t.aer p).normal = (s.aer p).normal ∧ (t.aer p).urgent = (s.aer p).urgent ∧ (t.aer p).held = none) ∧
      (free → paced → wbit lo 28 = true → s.inListen = true → ¬(wfld lo 27 24 = s.chipId.toNat ∧ 240 ≤ wfld lo 23 16) → Gives (.aeEvent p a) s fun t =>
        t.rd (Reg.AE_EVENTS p) = satAdd (s.rd (Reg.AE_EVENTS p)) 1 ∧ t.rd (Reg.AE_DROPPED p) = satAdd (s.rd (Reg.AE_DROPPED p)) 1 ∧
        (t.aer p).normal = (s.aer p).normal ∧ (t.aer p).urgent = (s.aer p).urgent ∧ (t.aer p).held = none) ∧
      (free → paced → wbit lo 28 = true → s.inListen = false →
        let urgent := s.mapUrgent m
        let queue := fun (t : State) => if urgent then (t.aer p).urgent else (t.aer p).normal
        let neuron := (wfld lo 15 0 + if wbit lo 29 then a.val % 256 / 2 else a.val % 256) % 65536
        let odd := wbit lo 29 = true ∧ a.val % 2 = 1
        ((queue s).length < 16 → Gives (.aeEvent p a) s fun t =>
          (∃ w, queue t = queue s ++ [(mkReq s 8 false (if urgent then 0 else 1) (mkAddr (wfld lo 27 24) 0 (wfld lo 23 16) neuron) 0 0 0xFF 11
              (wd (wfld hi 5 0 + 2 ^ 16 * w)) [], m)] ∧
            (¬odd → w = wfld hi 31 16) ∧ (odd → wfld hi 31 16 ≠ 0x8000 → w = (65536 - wfld hi 31 16) % 65536)) ∧
          t.rd (Reg.AE_EVENTS p) = satAdd (s.rd (Reg.AE_EVENTS p)) 1 ∧ (t.aer p).held = none) ∧
        (16 ≤ (queue s).length → Gives (.aeEvent p a) s fun t => (t.aer p).held = some (a.val, s.now) ∧ t = { s with ports := t.ports })) ∧
      (free → (s.aer p).window = s.now / 10 → 0 < s.fld (Reg.AE_CFG p) 8 1 → s.fld (Reg.AE_CFG p) 8 1 ≤ (s.aer p).taken →
        Gives (.aeEvent p a) s fun t => (t.aer p).held = some (a.val, s.now) ∧ t = { s with ports := t.ports })) ∧
    (∀ (urgent : Bool),
      let queue := fun (t : State) => if urgent then (t.aer p).urgent else (t.aer p).normal
      (∀ r m rest, queue s = (r, m) :: rest → (s.aer p).held = none → Addr.chip r.addr = s.chipId.toNat → s.issueError r.addr = none →
        Gives (.aePostIssue p urgent) s fun t =>
          queue t = rest ∧ (8 < r.srcUnit.toNat → r.ack = false → s.blockPosted t (s.stampEpoch { r with prio := if s.mapUrgent m then 0 else 1 })) ∧
          (m, s.now, false) ∈ t.ports.log) ∧
      (queue s = [] → exec (.aePostIssue p urgent) s = .next s)) ∧
    ((s.aer p).held = none → exec (.aeRateWindow p) s = .next s ∧ exec (.aeHoldExpire p) s = .next s) ∧
    (∀ a k, (s.aer p).held = some (a, k) →
      let h := s.fld (Reg.AE_CFG p) 24 9
      let unmapped := wbit (s.rd (Reg.MAP_ENTRY_LO p (a / 256))) 28 = false
      (s.bit (Reg.AE_CFG p) 0 = true → (s.aer p).window ≠ s.now / 10 → s.fld (Reg.AE_CFG p) 8 1 ≠ 0 → unmapped → Gives (.aeRateWindow p) s fun t =>
        (t.aer p).held = none ∧ (t.aer p).window = s.now / 10 ∧ (t.aer p).taken = 1 ∧ t.rd (Reg.AE_EVENTS p) = satAdd (s.rd (Reg.AE_EVENTS p)) 1) ∧
      (s.bit (Reg.AE_CFG p) 0 = true → h ≠ 0 → k + h ≤ s.now → Gives (.aeHoldExpire p) s fun t =>
        (t.aer p).held = none ∧ t.rd (Reg.AE_DROPPED p) = satAdd (s.rd (Reg.AE_DROPPED p)) 1 ∧ t.rd (Reg.AE_EVENTS p) = satAdd (s.rd (Reg.AE_EVENTS p)) 1) ∧
      (s.bit (Reg.AE_CFG p) 0 = false ∨ h = 0 ∨ s.now < k + h → exec (.aeHoldExpire p) s = .next s)) ∧
    (∀ e : Fin 2048, s.desc e 0 0 4 = 4 → s.strState e = stActivating ∨ s.strState e = stActive → s.now % s.hopUs e = 0 →
      let a := s.descAddr e 4
      let m := s.desc e 0 4 12
      let seen := fun (dropped : Bool) =>
        (s.ports.log.filter (fun x => x.1 == m && x.2.2 == dropped && decide (s.now ≤ x.2.1 + s.hopUs e) && decide (x.2.1 < s.now))).length
      let r := s.stampEpoch (mkReq s 2 false (if s.mapUrgent m then 0 else 1) a 4 0 0xFF 11 0
        (toBytes 2 m ++ [0, 0] ++ toBytes 4 (seen false) ++ toBytes 4 (seen true) ++ toBytes 4 s.now))
      (s.heldPushes 11 a < 4 → Addr.chip a = s.chipId.toNat → s.issueError a = none → Gives (.aeFrameEnd e) s fun t =>
        s.blockPosted t r ∧ t.fab.marks = s.fab.marks ++ [{ req := r, ends := [e.val] }] ∧ t = { s with fab := t.fab }) ∧
      (4 ≤ s.heldPushes 11 a → exec (.aeFrameEnd e) s = .next s)) ∧
    (∀ e : Fin 2048, s.desc e 0 0 4 ≠ 4 → exec (.aeFrameEnd e) s = .next s) ∧
    ∀ (n : Fin 16) (v : Word),
      let those := s.liveStreams.filter (fun e => s.desc e 0 0 4 == 5 && s.desc e 0 4 12 == n)
      (s.ready = false → exec (.hostFrameWrite n v) s = .next { s with lastStatus := 0x0B }) ∧
      (s.unitUp 2 → those = [] → exec (.hostFrameWrite n v) s = .next s) ∧
      ∀ e, s.unitUp 2 → those = [e] →
        let early := ∃ x, (s.run e).lastEnd = some x ∧ 2 * s.now < 2 * x + s.hopUs e
        (¬early → s.accepts e s.now32 = true → Gives (.hostFrameWrite n v) s fun t =>
          t.rd (Reg.STAT e 1) = s.rd (Reg.STAT e 1) + 1 ∧ (t.run e).frames.length = (s.run e).frames.length + 1 ∧ (t.run e).lastEnd = some s.now ∧
          t.tiles = s.tiles) ∧
        (early → Gives (.hostFrameWrite n v) s fun t => t.rd Reg.HOST_EARLY = satAdd (s.rd Reg.HOST_EARLY) 1 ∧ s.regsAt t [Reg.HOST_EARLY])

/-- The commands of the parameter store that program nothing run at once: READ, GET_RECORD and TALLY_READ fill the transfer buffer and LEN, TX_BEGIN
and TX_ABORT open and drop the host's transaction, and each ends with its code; a READ before the spare map is loaded or of a sector under erase ends
with ERR_BUSY, and one of a page being programmed waits for it; those that need the completion pass wait for READY; NV_DATA moves through the buffer
word by word (R457, R459, R460, R462, R463, R472, R482, R489, R490). -/
def Obligations.StoreReads : Prop :=
  ∀ (s : State) (len : BitVec 9),
    let o := (s.rd Reg.NV_ADDR).toNat
    let n := len.toNat
    let view := s.nvView.2
    let wrong := o % 4 ≠ 0 ∨ n % 4 ≠ 0 ∨ n < 4 ∨ 256 < n ∨ 2 ^ 24 < o + n
    let filled := fun (t : State) (bs : List Byte) =>
      t.nv.buf = takeBytes 256 (bs ++ s.nv.buf.drop bs.length) ∧ t.nv.die = s.nv.die ∧ t.fld Reg.NV_STATUS 18 10 = min 256 bs.length
    (s.boot.low = false → s.boot.safe = false → s.nvPending = true →
      ∀ c ∈ [Instr.nvCmdRead len, .nvCmdProgram len, .nvCmdErase len, .nvCmdPutRecord len, .nvCmdGetRecord, .nvCmdDelete, .nvCmdTxBegin, .nvCmdTxCommit,
        .nvCmdTxAbort, .nvCmdTallyInc, .nvCmdTallyRead], exec c s = .next s) ∧
    (s.storeOpen → wrong → Gives (.nvCmdRead len) s fun t => t.storeEnded 2 ∧ t.nv = { s.nv with bufPos := 0 }) ∧
    (s.storeOpen → ¬wrong → ¬(0x100000 ≤ o ∧ o + n ≤ 0xF80000) → Gives (.nvCmdRead len) s fun t => t.storeEnded 1 ∧ t.nv = { s.nv with bufPos := 0 }) ∧
    (s.storeOpen → ¬wrong → 0x100000 ≤ o → o + n ≤ 0xF80000 → s.nv.loaded = true → view.busySector o n = false → view.busyPage o n = false →
      s.nv.weak = [] → Gives (.nvCmdRead len) s fun t => t.storeEnded 0 ∧ filled t (view.die.bytes o n)) ∧
    (s.storeOpen → ¬wrong → 0x100000 ≤ o → o + n ≤ 0xF80000 → s.nv.loaded = false ∨ view.busySector o n = true →
      Gives (.nvCmdRead len) s fun t => t.storeEnded 0x0B ∧ t.nv = { s.nv with bufPos := 0 }) ∧
    (s.storeOpen → ¬wrong → 0x100000 ≤ o → o + n ≤ 0xF80000 → s.nv.loaded = true → view.busySector o n = false → view.busyPage o n = true →
      Gives (.nvCmdRead len) s fun t => s.nvView.1.storeQueued t (.read o n)) ∧
    (s.nvActs = [] → view = { act := none, die := s.nv }) ∧
    (s.storeOpen → s.ready = true → (∀ p, s.nv.value (s.rd Reg.NV_ADDR) = some p → Gives .nvCmdGetRecord s fun t =>
      t.storeEnded 0 ∧ filled t p ∧ t.bit Reg.NV_STATUS 6 = true) ∧
      (s.nv.value (s.rd Reg.NV_ADDR) = none → Gives .nvCmdGetRecord s fun t =>
        t.storeEnded 0 ∧ t.nv = { s.nv with bufPos := 0 } ∧ t.bit Reg.NV_STATUS 6 = false ∧ t.fld Reg.NV_STATUS 18 10 = 0)) ∧
    (s.storeOpen → s.ready = true → o < 64 → Gives .nvCmdTallyRead s fun t => t.storeEnded 0 ∧ filled t (toBytes 8 (s.nv.tally o))) ∧
    (s.storeOpen → 64 ≤ o → Gives .nvCmdTallyRead s fun t => t.storeEnded 2 ∧ t.nv = { s.nv with bufPos := 0 }) ∧
    (s.storeOpen → s.ready = true → s.nv.hostTx = none → Gives .nvCmdTxBegin s fun t =>
      t.storeEnded 0 ∧ t.nv.hostTx = some { id := nextTx s.nv.lastTx, count := 0, bytes := 0 } ∧ t.nv.lastTx = nextTx s.nv.lastTx) ∧
    (s.storeOpen → s.ready = true → s.nv.hostTx ≠ none → Gives .nvCmdTxBegin s fun t => t.storeEnded 3 ∧ t.nv = { s.nv with bufPos := 0 }) ∧
    (s.storeOpen → s.ready = true → s.nv.hostTx ≠ none → Gives .nvCmdTxAbort s fun t => t.storeEnded 0 ∧ t.nv = { s.nv with bufPos := 0, hostTx := none }) ∧
    (s.storeOpen → s.ready = true → s.nv.hostTx = none → Gives .nvCmdTxAbort s fun t => t.storeEnded 3 ∧ t.nv = { s.nv with bufPos := 0 }) ∧
    (s.storeOpen → s.ready = false →
      (Gives .nvCmdGetRecord s fun t => s.storeQueued t (.getRecord (s.rd Reg.NV_ADDR))) ∧ (Gives .nvCmdTxBegin s fun t => s.storeQueued t .txBegin) ∧
      (Gives .nvCmdTxAbort s fun t => s.storeQueued t .txAbort) ∧ (o < 64 → Gives .nvCmdTallyRead s fun t => s.storeQueued t (.tallyRead o))) ∧
    (s.storeOpen →
      let p := s.nv.bufPos
      (∀ v, exec (.nvDataAccess (some v)) s =
        .next { s with nv := { s.nv with buf := s.nv.buf.take p ++ toBytes 4 v.toNat ++ s.nv.buf.drop (p + 4), bufPos := (p + 4) % 256 } }) ∧
      exec (.nvDataAccess none) s = .next { s with nv := { s.nv with bufPos := (p + 4) % 256 }, readData := wordAt s.nv.buf p }) ∧
    (s.boot.low = false → s.boot.safe = false → s.nvPending = true →
      (∀ v, exec (.nvDataAccess (some v)) s = .next s) ∧ exec (.nvDataAccess none) s = .next { s with readData := 0 }) ∧
    Gives .nvSpareMapLoad s fun t =>
      t.nv = { s.nv with loaded := true } ∧ t.fld Reg.NV_STATUS 27 19 = s.nv.spares.length ∧
      { s with nv := t.nv }.regsAt t [Reg.NV_STATUS, Reg.INT_STATUS]

/-- The commands that program or erase are refused with their code, or wait for the die, those on the upper quarter with an audit record; the die
finishes the most urgent one, with its retries counted, and an erase that fails with no spare left ends with NO_SPARE and its sector read-only; what
the die finds while the host has nothing in work is kept for the layer's own writes; a write of NV_PROTECT is recorded; compaction, the log and audit
records take the die when nothing more urgent waits, the log after a compaction that is due (R456 to R458, R463, R465, R470, R474, R476, R484 to R488,
R523, R524, R667). -/
def Obligations.StoreWrites : Prop :=
  ∀ (s : State) (len : BitVec 9),
    let o := (s.rd Reg.NV_ADDR).toNat
    let k := s.rd Reg.NV_ADDR
    let n := len.toNat
    let mark := fun (lo : Nat) => s.bpCovers lo
    let raw := fun (c : Instr) (lo m code arg : Nat) (w : NvWork) =>
      (lo + m ≤ 0xC00000 → rawWritable lo m = false ∨ mark lo = true ∨ mark (lo + m - 1) = true → Gives c s fun t => t.storeEnded 1 ∧
        t.nv = { s.nv with bufPos := 0 }) ∧
      (lo + m ≤ 0xC00000 → rawWritable lo m = true → mark lo = false → mark (lo + m - 1) = false → Gives c s fun t => s.storeQueued t w) ∧
      (0xC00000 < lo + m → s.auditRefuses = true → exec c s = .next s.auditRefused) ∧
      (0xC00000 < lo + m → s.auditRefuses = false →
        let s1 := s.auditPut (s.auditPayload 3 s.hostSrc (wd (9 * 2 ^ 24 + lo % 2 ^ 24)) (wd arg) (wd (code + 2 ^ 8 * arg)) 0) none
        (rawWritable lo m = false ∨ mark lo = true ∨ mark (lo + m - 1) = true → Gives c s fun t => t.storeEnded 1 ∧ t.nv = { s1.nv with bufPos := 0 }) ∧
        (rawWritable lo m = true → mark lo = false → mark (lo + m - 1) = false → Gives c s fun t => s1.storeQueued t w))
    let queued := fun (c : Instr) (lo : Nat) (ok : Bool) (w : NvWork) =>
      (ok = false ∨ mark lo = true → Gives c s fun t => t.storeEnded 1 ∧ t.nv = { s.nv with bufPos := 0 }) ∧
      (ok = true → mark lo = false → Gives c s fun t => s.storeQueued t w)
    (s.storeOpen → o % 16 ≠ 0 ∨ n % 16 ≠ 0 ∨ n < 16 ∨ 256 < n ∨ 2 ^ 24 < o + n → Gives (.nvCmdProgram len) s fun t => t.storeEnded 2) ∧
    (s.storeOpen → o % 16 = 0 → n % 16 = 0 → 16 ≤ n → n ≤ 256 → o + n ≤ 2 ^ 24 → raw (.nvCmdProgram len) o n 2 n (.program o (s.nv.buf.take n))) ∧
    (s.storeOpen → 2 ^ 24 ≤ o → Gives (.nvCmdErase len) s fun t => t.storeEnded 2) ∧
    (s.storeOpen → o < 2 ^ 24 → raw (.nvCmdErase len) (o / 4096 * 4096) 4096 3 n (.erase o)) ∧
    (s.storeOpen → n = 0 ∨ 256 < n → Gives (.nvCmdPutRecord len) s fun t => t.storeEnded 2) ∧
    (s.storeOpen → 0 < n → n ≤ 256 → queued (.nvCmdPutRecord len) 0x800000 (hostKey k) (.append .journal 1 k (s.nv.buf.take n))) ∧
    (s.storeOpen → queued .nvCmdDelete 0x800000 (hostKey k) (.append .journal 2 k [])) ∧
    (s.storeOpen → queued .nvCmdTxCommit 0x800000 true .txCommit) ∧
    (s.storeOpen → 56 ≤ o → Gives .nvCmdTallyInc s fun t => t.storeEnded 2) ∧
    (s.storeOpen → o < 56 → queued .nvCmdTallyInc 0x900000 true (.tallyInc o)) ∧
    (∀ (w : NvOp) (ver : NvVerify), s.nvCurrent = some w → w.host = true →
      let c := Instr.nvOpDone ver.prog ver.erase ver.spareFails
      let done := fun (v : Nv) => Gives c s fun t => t.nv = { v with queue := v.queue.erase w, started := t.nvCurrent } ∧ t.storeEnded 0
      (∀ off bs, w.work = .program off bs → s.nv.rawRo off bs.length = false →
        let secs := ((List.range ((bs.length + 15) / 16)).map (fun i => (off + 16 * i) / 4096)).eraseDups
        (∀ sec ∈ secs, progOf ver sec ≤ 3) → done ((secs.foldl (fun v sec => v.tallyAdd 57 (progOf ver sec)) s.nv).program off bs)) ∧
      (∀ off, w.work = .erase off →
        let sec := off / 4096
        let x := eraseOf ver sec
        let slow := 2 * Config.eraseBaseline (s.nv.phys (4096 * sec) / 4096) < x.2
        (s.nv.rawRo off 1 = false → x.1 ≤ 3 → ¬slow → done ((s.nv.tallyAdd 58 x.1).erase sec)) ∧
        (3 < x.1 ∨ slow → s.nv.spares = [] → (s.nv.row sec).readOnly = false → Gives c s fun t =>
          t.storeEnded 5 ∧ (t.nv.row sec).readOnly = true ∧ t.nv.die = (s.nv.tallyAdd 58 x.1).die))) ∧
    (∀ ver : NvVerify, s.nvCurrent = none →
      exec (.nvOpDone ver.prog ver.erase ver.spareFails) s = .next { s with nv := { s.nv with found := ver } }) ∧
    (∀ v : Word, s.boot.low = false → s.boot.safe = false → s.bit Reg.BIST_BLOCKS 9 = false → s.keys.halted = false →
      (s.auditRefuses = true → exec (.nvProtectWrite v) s = .next s.auditRefused) ∧
      (s.auditRefuses = false → Gives (.nvProtectWrite v) s fun t =>
        t.fld Reg.NV_PROTECT 1 0 = wfld v 1 0 ∧ { s with nv := t.nv }.regsAt t [Reg.NV_PROTECT] ∧ t.nv.audit.length = s.nv.audit.length + 1)) ∧
    (∀ enroll : Bool,
      let r := if enroll then Region.enroll else .journal
      let urgent := 9 * r.size < 10 * s.nv.used r
      let idle := s.nv.queue = [] ∧ s.nv.audit = [] ∧ s.bit Reg.MGMT_LOAD 16 = false ∧ s.mailBusy = false
      let may := s.coreUp = true ∧ s.dieIdle = true ∧ s.nv.compactDue r = true ∧ (urgent ∧ s.mailUrgent = false ∨ ¬urgent ∧ idle)
      (¬may → exec (.compaction enroll) s = .next s) ∧
      (may → s.nv.found = NvVerify.clean → Gives (.compaction enroll) s fun t =>
        t.nv = s.nv.compact r ∧ { s with nv := t.nv }.regsAt t [Reg.NV_STATUS, Reg.INT_STATUS])) ∧
    (s.coreUp = false ∨ s.keysGoing = true ∨ s.mailBusy = true ∨ s.bit Reg.MGMT_LOAD 16 = true ∨ s.nv.logq = [] → exec .logAppend s = .next s) ∧
    (s.mayCompact .enroll = true ∨ s.mayCompact .journal = true → exec .logAppend s = .next s) ∧
    (∀ e r, s.coreUp = true → s.keysGoing = false → s.mailBusy = false → s.bit Reg.MGMT_LOAD 16 = false → s.nv.queue = [] → s.nv.audit = [] → s.nv.logq = e :: r →
      s.nv.compactDue .enroll = false → s.nv.compactDue .journal = false → s.nv.found = NvVerify.clean → Gives .logAppend s fun t =>
      t.nv = { (s.nv.append .log 0x30 (wd e.code) 0 e.payload).1 with logq := r }) ∧
    (s.coreUp = false ∨ s.dieTakes = false ∨ s.mailUrgent = true ∨ s.nv.audit = [] → exec .auditCommit s = .next s) ∧
    (∀ e r, s.nv.audit = e :: r → e.due = true → exec .auditCommit s = .next s) ∧
    ∀ e r, s.coreUp = true → s.dieTakes = true → s.mailUrgent = false → s.nv.audit = e :: r → e.due = false → e.extra = none →
      s.nv.found = NvVerify.clean → (s.nv.append .journal 0x10 0x8A000000 0 e.payload).2 = .ok → Gives .auditCommit s fun t =>
      t.nv = { (s.nv.append .journal 0x10 0x8A000000 0 e.payload).1 with audit := r } ∧ t.rd Reg.AUDIT_HEAD = s.nv.journal.seq ∧
      { s with nv := t.nv }.regsAt t [Reg.AUDIT_HEAD, Reg.NV_STATUS, Reg.INT_STATUS]

/-- A window write and an OP_CMD capture their addresses, operands and data in the posted write buffer, or hold the bus while it is full, for at most
2 µs; entries are issued in order, one that needs a response only below 16 under way; a window read issues its GET once the buffer is empty and gives
the value of its response, or RETRY after 2 µs; before READY they answer ERR_BUSY, a write with BUS_ERR, but for reads of the parameter store's die
(R93, R489, R497 to R499, R501 to R503, R512, R515). -/
def Obligations.WindowAndOperations : Prop :=
  ∀ (s : State) (v : Word), s.boot.low = false → s.boot.safe = false →
    let h := s.host
    let a := s.winAddr
    let e := HostEntry.window a s.winSize s.winPrio v
    (s.ready = true → s.bit Reg.WIN_STATUS 21 = false →
      (h.buf.length < 16 → Gives (.winDataWrite v) s fun t =>
        t.host = { h with buf := h.buf ++ [e] } ∧ t.winAddr = (if s.bit Reg.WIN_CTRL 3 then a + BitVec.ofNat 40 (2 ^ s.winSize) else a) ∧
        { s with host := t.host }.regsAt t [Reg.WIN_ADDR_LO, Reg.WIN_ADDR_HI]) ∧
      (16 ≤ h.buf.length → exec (.winDataWrite v) s = .next { s with host := { h with stalled := some (e, s.now) } })) ∧
    (s.ready = false → s.bit Reg.WIN_STATUS 21 = false → Gives (.winDataWrite v) s fun t =>
      t.bit Reg.INT_STATUS 5 = true ∧ s.regsAt t [Reg.WIN_STATUS, Reg.INT_STATUS] ∧
      (s.bit Reg.WIN_STATUS 24 = false → t.fld Reg.WIN_STATUS 31 25 = 0x0B ∧ t.bit Reg.WIN_STATUS 24 = true ∧ t.bit Reg.INT_STATUS 4 = true)) ∧
    (s.ready = false →
      let o := Addr.off a
      let early := s.winOnStore = true ∧ s.bit Reg.BIST_BLOCKS 9 = false ∧ s.keys.halted = false
      let result := s.keys.halted = true ∧ a = mkAddr s.chipId.toNat 3 10 0x60 ∧ s.winSize = 2
      (result → Gives .winDataRead s fun t => t.readData = s.rd Reg.LC_RESULT ∧ t.fld Reg.WIN_STATUS 7 0 = 0) ∧
      (¬early → ¬result → Gives .winDataRead s fun t =>
        t.readData = 0 ∧ t.fld Reg.WIN_STATUS 12 0 = 0x0B ∧ t.bit Reg.INT_STATUS 4 = true ∧ { s with readData := 0 }.regsAt t [Reg.WIN_STATUS, Reg.INT_STATUS]) ∧
      (early → s.winSize = 2 → o % 4 = 0 → 0x100000 ≤ o → o + 4 ≤ 0xF80000 →
        let view := s.nvView.2
        let busy := view.busyPage o 4 = true ∨ view.busySector o 4 = true
        (s.nv.loaded = true → ¬busy → s.nv.weak = [] → Gives .winDataRead s fun t =>
          t.readData = wd (ofBytes (view.die.bytes o 4)) ∧ t.fld Reg.WIN_STATUS 7 0 = 0 ∧ t.nv = s.nv) ∧
        (s.nv.loaded = false ∨ busy → Gives .winDataRead s fun t =>
          t.readData = 0 ∧ t.fld Reg.WIN_STATUS 7 0 = 0x0B ∧ t.bit Reg.INT_STATUS 4 = true ∧ t.nv = s.nv))) ∧
    (s.ready = true → h.read = none →
      let go := h.buf = [] ∧ s.hostRoom = true ∧ s.hostHeld a s.winPrio = false
      (go → s.issueError a = none → Gives .winDataRead s fun t =>
        t.host.read = some { addr := a, size := s.winSize, active := true, since := s.now, tag := some s.hostTag, resp := none } ∧
        s.hostSent t .winRead { mkReq s 1 true s.winPrio a s.winSize 0 0xFF 8 0 [] with anyEpoch := true }) ∧
      (¬go → exec .winDataRead s =
        .next { s with host := { h with read := some { addr := a, size := s.winSize, active := true, since := s.now, tag := none, resp := none } } })) ∧
    (∀ x r, s.ready = true → h.read = some x → s.bit Reg.WIN_STATUS 21 = true → x.resp = some r → r.status = 0 → Gives .winDataRead s fun t =>
      t.readData = wd (r.data0.toNat % 2 ^ (8 * 2 ^ x.size)) ∧ t.host.read = none ∧ t.fld Reg.WIN_STATUS 7 0 = 0 ∧
      t.fld Reg.WIN_STATUS 12 8 = r.flags.toNat % 32 ∧ t.bit Reg.WIN_STATUS 21 = false) ∧
    (h.read = none → exec .winReadTimeout s = .next s) ∧
    (∀ x, h.read = some x →
      (x.active = false ∨ s.now < x.since + 2 → exec .winReadTimeout s = .next s) ∧
      (x.active = true → x.since + 2 ≤ s.now → Gives .winReadTimeout s fun t =>
        t.readData = 0 ∧ t.bit Reg.WIN_STATUS 21 = true ∧ t.host.read = some { x with active := false } ∧
        (s.bit Reg.WIN_STATUS 21 = false → t.bit Reg.INT_STATUS 4 = true))) ∧
    (h.buf = [] → exec .postedWriteIssue s = .next s) ∧
    (∀ e rest, h.buf = e :: rest → (e.needsResponse = true ∧ s.hostRoom = false) ∨ s.entryHeld e = true → exec .postedWriteIssue s = .next s) ∧
    (∀ b n p d rest, h.buf = .window b n p d :: rest → s.hostRoom = true → s.hostHeld b p = false → h.stalled = none → h.read = none →
      s.issueError b = none → Gives .postedWriteIssue s fun t =>
        t.host.buf = rest ∧ s.hostSent t .winWrite { mkReq s 2 true p b n 0 0xFF 8 d [] with anyEpoch := true }) ∧
    (∀ b x y w rest, h.buf = .op b x y w :: rest → s.hostRoom = true → s.entryHeld (.op b x y w) = false → h.stalled = none → h.read = none →
      wfld w 4 0 = 1 ∨ wfld w 4 0 = 2 → wbit w 5 = true → s.issueError b = none → Gives .postedWriteIssue s fun t =>
        t.host.buf = rest ∧ s.hostSent t .op { mkReq s (wfld w 4 0) true (if wfld w 9 8 = 2 then 2 else 1) b 2 (wfld w 12 10) 0xFF 8 x [] with anyEpoch := wbit w 6 }) ∧
    (h.stalled = none → exec .postedBufferTimeout s = .next s) ∧
    (∀ e k, h.stalled = some (e, k) →
      (s.now < k + 2 → exec .postedBufferTimeout s = .next s) ∧
      (k + 2 ≤ s.now → Gives .postedBufferTimeout s fun t =>
        t.host = { h with stalled := none } ∧ t.bit Reg.INT_STATUS 5 = true ∧
        (∀ b n p d, e = .window b n p d → t.bit Reg.WIN_STATUS 23 = true) ∧ { s with host := t.host }.regsAt t [Reg.INT_STATUS, Reg.WIN_STATUS])) ∧
    ∀ c ∈ [(Instr.opCmdGet v, 1), (.opCmdPut v, 2), (.opCmdAdd v, 3), (.opCmdMax v, 4), (.opCmdSwap v, 5), (.opCmdCas v, 6), (.opCmdFence v, 9)],
      let w := HostEntry.op s.opAddr (s.rd Reg.OP_ARG) (s.rd Reg.OP_ARG2) (wSetFld v 4 0 c.2)
      (s.ready = false → exec c.1 s = .next ((s.wr Reg.OP_STATUS (wSetFld (s.rd Reg.OP_STATUS) 15 8 0x0B)).setBit Reg.INT_STATUS 5 true)) ∧
      (s.ready = true → s.bit Reg.OP_STATUS 0 = true → exec c.1 s = .next s) ∧
      (s.ready = true → s.bit Reg.OP_STATUS 0 = false → h.buf.length < 16 → Gives c.1 s fun t =>
        t.host = { h with buf := h.buf ++ [w] } ∧ t.bit Reg.OP_STATUS 0 = true ∧ { s with host := t.host }.regsAt t [Reg.OP_STATUS]) ∧
      (s.ready = true → s.bit Reg.OP_STATUS 0 = false → 16 ≤ h.buf.length → exec c.1 s = .next { s with host := { h with stalled := some (w, s.now) } })

/-- INT_CLEAR clears the bits written as 1, TIME_LO latches TIME_HI, a read of MGMT_REPLY takes the oldest reply, POWER_CAP is clamped to 800 to
2,500, ALARM_POLICY takes NEXT and raises POLICY field by field but lowers none of its fields, and a restart of the management core, by the host or
the watchdog, is counted and shown; audited writes are refused with BUS_ERR and AUDIT when their record cannot be kept (R506, R507, R509, R516, R519
to R521, R524, R668). -/
def Obligations.HostRegisters : Prop :=
  ∀ (s : State) (v : Word), s.boot.low = false → s.boot.safe = false →
    (Gives (.intClearWrite v) s fun t => t.rd Reg.INT_STATUS = s.rd Reg.INT_STATUS &&& ~~~v ∧ s.regsAt t [Reg.INT_STATUS]) ∧
    (Gives .timeLoRead s fun t =>
      t.readData = s.now32 ∧ t.rd Reg.TIME_HI = (s.time >>> 32).setWidth 32 ∧ { s with readData := s.now32 }.regsAt t [Reg.TIME_HI]) ∧
    (s.mgmt.replies = [] → exec .mgmtReplyRead s = .next { s with readData := 0 }) ∧
    (∀ w r, s.mgmt.replies = w :: r → Gives .mgmtReplyRead s fun t =>
      t.readData = w ∧ t.mgmt.replies = r ++ s.mgmt.heldReplies.take 1 ∧ t.mgmt.heldReplies = s.mgmt.heldReplies.drop 1) ∧
    (s.ready = false → ∀ c ∈ [Instr.powerCapWrite v, .alarmPolicyWrite v], exec c s = .next (s.setBit Reg.INT_STATUS 5 true)) ∧
    (s.ready = true → s.auditRefuses = true → exec (.powerCapWrite v) s = .next s.auditRefused) ∧
    (s.ready = true → s.auditRefuses = false → Gives (.powerCapWrite v) s fun t =>
      t.rd Reg.POWER_CAP = wd (max 800 (min 2500 (wfld v 11 0))) ∧ { s with nv := t.nv }.regsAt t [Reg.POWER_CAP] ∧
      t.nv.audit.length = s.nv.audit.length + 1) ∧
    (s.ready = true → s.auditRefuses = false → s.keys.event = none → Gives (.alarmPolicyWrite v) s fun t =>
      (∀ n < 7, t.fld Reg.ALARM_POLICY (2 * n + 17) (2 * n + 16) = wfld v (2 * n + 1) (2 * n) ∧
        t.fld Reg.ALARM_POLICY (2 * n + 1) (2 * n) =
          (if policyRank (s.fld Reg.ALARM_POLICY (2 * n + 1) (2 * n)) ≤ policyRank (wfld v (2 * n + 1) (2 * n)) then wfld v (2 * n + 1) (2 * n)
           else s.fld Reg.ALARM_POLICY (2 * n + 1) (2 * n))) ∧
      { s with nv := t.nv }.regsAt t [Reg.ALARM_POLICY] ∧ t.nv.audit.length = s.nv.audit.length + 1) ∧
    (s.ready = true → s.journalRo = true → s.keys.event = none →
      (∃ n < 7, policyRank (wfld v (2 * n + 1) (2 * n)) < policyRank (s.fld Reg.ALARM_POLICY (2 * n + 1) (2 * n))) →
        exec (.alarmPolicyWrite v) s = .next s.auditRefused) ∧
    (s.auditRefuses = true → exec .hbControlMgmtRestart s = .next s.auditRefused) ∧
    (s.auditRefuses = false → Gives .hbControlMgmtRestart s fun t => s.restarted t 2) ∧
    (s.fld Reg.MB_STATUS 1 0 = 0 → exec .watchdogExpire s = .next s) ∧
    (s.fld Reg.MB_STATUS 1 0 ≠ 0 → Gives .watchdogExpire s fun t => s.restarted t 1)

/-- A port trains on TRAIN, on its own 1 ms after it went DOWN, and never while EN = 0; training ends UP with what the peer sent, REFUSED, or DOWN
with its cause; lane failures move to the spare or end the link; frames are sent in order from the resends; a control flit holds every field of its
frame, and a header flit those of its request or response; a frame whose CRC is wrong is counted and discarded, one in sequence taken, any other
discarded; notices, skews, caught operations and resumed ports do as their rules say (R528 to R530, R533, R535 to R537, R539, R540, R542, R543, R545
to R548, R555, R646). -/
def Obligations.LinkCommands : Prop :=
  ∀ (p : Fin 8) (s : State),
    let st := s.linkState p
    let cfg := s.rd (Reg.LINK_CFG p)
    let x := s.port p
    let notUp := fun (c : Instr) => st ≠ 2 → exec c s = .next s
    let falls := fun (c : Instr) (cause : Nat) => Gives c s fun t =>
      t.linkState p = 3 ∧ t.fld (Reg.LINK_STATUS p) 20 18 = cause ∧ (t.port p).downAt = some s.now ∧ (t.port p).retry = [] ∧ (t.port p).part = [] ∧
      t.bit Reg.INT_STATUS 16 = true ∧ (st = 2 → t.rd (Reg.DOWN_EVENTS p) = satAdd (s.rd (Reg.DOWN_EVENTS p)) 1)
    let trains := fun (c : Instr) => Gives c s fun t => t.linkState p = 1 ∧ (t.port p).retry = [] ∧ (t.port p).downAt = none
    (s.unitUp 13 → wbit cfg 0 = true → s.bit Reg.BIST_BLOCKS (16 + p) = false → trains (.linkCmdTrain p)) ∧
    (s.unitUp 13 → wbit cfg 0 = false ∨ s.bit Reg.BIST_BLOCKS (16 + p) = true → exec (.linkCmdTrain p) s = .next s) ∧
    (s.unitUp 13 → st = 1 ∨ st = 2 → falls (.linkCmdDisable p) 7) ∧
    (s.ready = false → ∀ c ∈ [Instr.linkCmdTrain p, .linkCmdDisable p], exec c s = .next { s with lastStatus := 0x0B }) ∧
    (∀ k, x.downAt = some k →
      let due := st = 3 ∧ wbit cfg 0 = true ∧ wbit cfg 1 = true ∧ k + 1000 ≤ s.now
      (due → trains (.linkAutoRetrain p)) ∧ (¬due → exec (.linkAutoRetrain p) s = .next s)) ∧
    (∀ (locked : BitVec 5) (ts : Option TsFlit),
      let lanes := ((List.range 5).filter (fun l => locked.getLsbD l)).length
      (st ≠ 1 → exec (.linkTrainDone p locked ts) s = .next s) ∧
      (st = 1 → lanes < 4 → falls (.linkTrainDone p locked ts) 1) ∧
      (st = 1 → 4 ≤ lanes → ts = none → falls (.linkTrainDone p locked ts) 2) ∧
      ∀ f, st = 1 → 4 ≤ lanes → ts = some f →
        let rev := min 3 f.revMax.toNat
        let refused := fun (cause : Nat) => Gives (.linkTrainDone p locked ts) s fun t =>
          t.linkState p = 4 ∧ t.fld (Reg.LINK_STATUS p) 20 18 = cause ∧ t.rd (Reg.LINK_REFUSALS p) = satAdd (s.rd (Reg.LINK_REFUSALS p)) 1 ∧
          t.bit Reg.INT_STATUS 16 = true
        (f.chip = s.chipId → refused 3) ∧
        (f.chip ≠ s.chipId → rev < max 2 f.revMin.toNat → refused 4) ∧
        (f.chip ≠ s.chipId → max 2 f.revMin.toNat ≤ rev → Gives (.linkTrainDone p locked ts) s fun t =>
          t.linkState p = 2 ∧ t.fld (Reg.LINK_STATUS p) 6 3 = f.chip.toNat ∧ t.fld (Reg.LINK_STATUS p) 9 7 = f.port.toNat ∧
          t.fld (Reg.LINK_STATUS p) 13 10 = rev ∧ t.fld (Reg.LINK_STATUS p) 17 14 = f.revMax.toNat ∧
          t.port p = { LinkPort.reset with heard := s.now, rx := x.rx } ∧ wfld (t.rd (Reg.LANE_STATUS p)) 4 0 = locked.toNat ∧
          t.mapBit s.chipId.toNat p = true ∧ t.mapBit f.chip.toNat f.port.toNat = true ∧ t.bit Reg.INT_STATUS 16 = true)) ∧
    notUp (.linkFrameSend p) ∧
    (st = 2 → x.parked = true → exec (.linkFrameSend p) s = .next s) ∧
    (∀ f rest, st = 2 → x.parked = false → s.fab.waiting = [] → x.resend = f :: rest → Gives (.linkFrameSend p) s fun t =>
      (t.port p).resend = rest ∧ (t.port p).retry = x.retry ∧
      spGet (fun _ => 0) (t.port p).resends f.fseq.toNat = spGet (fun _ => 0) x.resends f.fseq.toNat + 1 ∧
      ∃ g, (t.port p).wire = some g ∧ g.fseq = f.fseq ∧ g.vc = f.vc ∧ g.data = f.data ∧ g.ack = x.expect - 1 ∧ g.nak = x.discarding) ∧
    (st = 2 → x.parked = false → s.fab.waiting = [] → x.resend = [] → (∀ v < 6, s.readyFlits p v = []) → Gives (.linkFrameSend p) s fun t =>
      (t.port p).retry = x.retry ∧ (t.port p).fseq = x.fseq ∧ ∃ g, (t.port p).wire = some g ∧ g.data = [] ∧ g.ack = x.expect - 1) ∧
    (∀ (f : LinkFrame) (body : List (BitVec 128)), f.credits.length = 6 → f.data.length ≤ 21 →
      frameTaken (ctlFlit f body) body = true ∧ ctlFrame (ctlFlit f body) f.data = f) ∧
    (∀ r : ReqFlit, reqOfBits (reqBits r) r.payload r.owner = r) ∧ (∀ r : RespFlit, respOfBits (respBits r) r.payload = r) ∧
    (∀ (w : BitVec 128) (flits : List (DataFlit × BitVec 128)),
      let c := Instr.linkFrameReceive p w flits
      let f := ctlFrame w (readFlits flits)
      let ok := w.extractLsb' 0 8 = 0xD2 ∧
        w.extractLsb' 96 32 = crc32 (toBytes 12 (w.extractLsb' 0 96).toNat ++ flits.flatMap (fun d => toBytes 16 d.2.toNat))
      notUp c ∧
      (st = 2 → ¬ok → Gives c s fun t =>
        t.port p = { x with discarding := true } ∧ t.rd (Reg.CRC_ERRORS p) = satAdd (s.rd (Reg.CRC_ERRORS p)) 1 ∧ t.fab = s.fab) ∧
      (st = 2 → ok → f.nak = false → f.subReq = false → x.subReq = none → f.data ≠ [] →
        (f.fseq = x.expect → Gives c s fun t =>
          (t.port p).expect = x.expect + 1 ∧ (t.port p).discarding = false ∧
          spGet (fun _ => []) (t.port p).rx f.vc = spGet (fun _ => []) x.rx f.vc ++ f.data ∧
          t.rd (Reg.RX_FLITS p) = satAdd (s.rd (Reg.RX_FLITS p)) f.data.length) ∧
        (f.fseq ≠ x.expect → Gives c s fun t =>
          (t.port p).expect = x.expect ∧ (t.port p).discarding = true ∧ (t.port p).rx = x.rx ∧ t.regs = s.regs))) ∧
    (∀ l : Fin 5,
      let w := s.rd (Reg.LANE_STATUS p)
      let may := s.fld (Reg.LINK_STATUS p) 13 10 = 3 ∧ wbit cfg 4 = true ∧ s.bit (Reg.LINK_STATUS p) 28 = false ∧ x.subReq = none ∧
        ∃ k < 5, k ≠ l.val ∧ wbit w (10 + k) = false ∧ wbit w k = true ∧ wbit w (5 + k) = false
      notUp (.laneFail p l) ∧
      (st = 2 → wbit w (10 + l) = false → exec (.laneFail p l) s = .next s) ∧
      (st = 2 → wbit w (10 + l) = true → may → Gives (.laneFail p l) s fun t =>
        let v := t.rd (Reg.LANE_STATUS p)
        v = wSetBit (wSetBit w (5 + l) true) l (wbit v l) ∧ (wbit v l = true → wbit w l = true) ∧
        t.port p = { x with subReq := some l.val, subSince := s.now } ∧ t.linkState p = 2) ∧
      (st = 2 → wbit w (10 + l) = true → ¬may → falls (.laneFail p l) 1)) ∧
    (∀ silent : Bool,
      let due := if silent then x.heard + 10 ≤ s.now ∧ x.parked = false else ∃ e ∈ x.resends, 16 ≤ e.2
      notUp (.linkDown p silent) ∧ (¬due → exec (.linkDown p silent) s = .next s) ∧
      (st = 2 → due → falls (.linkDown p silent) (if silent then 6 else 5))) ∧
    (∀ n : LinkNotice, notUp (.linkNotice p n) ∧ (n ∈ s.links.known ∨ n.origin = s.chipId → exec (.linkNotice p n) s = .next s) ∧
      (st = 2 → n ∉ s.links.known → n.origin ≠ s.chipId → Gives (.linkNotice p n) s fun t =>
        t.links.known = s.links.known ++ [n] ∧ spGet (fun _ => (0 : BitVec 16)) t.links.reported n.origin.toNat = n.routes ∧
        (∀ q < 8, t.mapBit n.origin.toNat q = n.map.getLsbD (8 * n.origin.toNat + q)) ∧
        t.links.sent = s.links.sent ++ ((List.range 8).filter (fun q => q != p.val && s.linkState q == 2)).map (fun q => (q, n)))) ∧
    (s.links.caught = [] → exec .linkOpTimeout s = .next s) ∧
    (∀ (k : Nat) (o : HostOut), s.links.caught = [(k, 16 * 0xFF + 8, o.seq)] → s.host.out = [o] → o.acked = true → o.use = .op →
      s.host.fence = none → s.host.read = none →
      k ≤ s.now → Gives .linkOpTimeout s fun t =>
        t.links.caught = [] ∧ t.host.out = [] ∧ t.fld Reg.OP_STATUS 15 8 = 8 ∧ t.bit Reg.OP_STATUS 0 = false ∧
        t.rd Reg.LINK_FAILED_OPS = satAdd (s.rd Reg.LINK_FAILED_OPS) 1 ∧ t.bit Reg.INT_STATUS 3 = true) ∧
    (∀ (k : Nat) (o : BlockOut), s.links.caught = [(k, 16 * 0xFF + o.unit, o.seq)] → 8 < o.unit → s.fab.blockOut = [o] → o.acked = false → k ≤ s.now →
      Gives .linkOpTimeout s fun t => t.links.caught = [] ∧ t.fab.blockOut = [] ∧ (∀ m ∈ t.fab.marks, m ∈ s.fab.marks) ∧
        t.rd Reg.LINK_FAILED_OPS = satAdd (s.rd Reg.LINK_FAILED_OPS) 1 ∧ s.regsOnly t [Reg.LINK_FAILED_OPS] ∧ t.cu = s.cu) ∧
    (∀ ns : Int, notUp (.linkSkewMeasure p ns) ∧
      (st = 2 → Gives (.linkSkewMeasure p ns) s fun t =>
        t.rd (Reg.LINK_SKEW p) = wi ns ∧ (t.port p).skewHigh = decide (1000 < ns.natAbs) ∧
        (1000 < ns.natAbs → x.skewHigh = true → t.bit Reg.INT_STATUS 18 = true) ∧ t.fab = s.fab)) ∧
    ∀ notice : Bool,
      (x.parked = false → exec (.portResume p notice) s = .next s) ∧
      (x.parked = true → Gives (.portResume p notice) s fun t =>
        t.port p = { x with parked := false, heard := s.now } ∧
        (notice = true → s.bit Reg.PWR_CFG 3 = true → s.fld Reg.PWR_STATUS 1 0 = 0 → s.pwr.waking = none → t.pwr.waking = some s.now) ∧
        (s.bit Reg.PWR_CFG 3 = true → s.pwr.waking ≠ none → t.links.wakeSent = s.links.wakeSent ++ [p.val]))

/-- The peal: a row whose step is due moves its victim's role to its free tile; a slice or element of a test goes on to the next, repairs an SRAM row,
passes or retires its tile, and a calibration sets CAL; BIST_CMD is refused with the first reason that holds or starts a test, a retirement or a step;
while the mode does not allow it no test goes on (R578 to R581, R585, R589 to R592, R600, R632). -/
def Obligations.PealCommands : Prop :=
  ∀ (s : State) (r : Fin 16) (p : Fin 272),
    let busy := s.bit Reg.BIST_STATUS 0
    let arg := s.fld Reg.BIST_ARG 8 0
    let row := s.fld Reg.BIST_ARG 19 16
    let errs := fun (c : Instr) (e : Nat) => Gives c s fun t => t.fld Reg.BIST_STATUS 3 1 = e ∧ s.regsAt t [Reg.BIST_STATUS]
    let retired := fun (t : State) (q cause : Nat) =>
      t.phys q = 3 ∧ t.fld (Reg.PHYS_STATUS q) 7 4 = cause ∧ t.testOf q = none ∧ (t.tile q).bit Reg.CLK_STATUS 10 = false ∧
      t.rd Reg.TILES_RETIRED = satAdd (s.rd Reg.TILES_RETIRED) 1 ∧ t.bit Reg.INT_STATUS 17 = true
    let tested := fun (t : State) (q : Nat) (seed : Option Word) (again : Bool) =>
      t.phys q = 2 ∧ t.bit Reg.BIST_STATUS 0 = true ∧ t.fld Reg.BIST_STATUS 3 1 = 0 ∧ t.peal.tests = s.peal.tests ++
        [{ phys := q, origin := 2, slice := 0, elem := 0, seed := seed, sigs := [], step := false, unretire := again, spared := false, fixed := [] }]
    let woke := fun (t : State) => (t.tile p).bit Reg.CLK_STATUS 10 = true ∧ (∀ o, o ≠ Reg.CLK_STATUS → (t.tile p).rd o = (s.tile p).rd o) ∧
      ∀ q, q ≠ p.val → t.tile q = s.tile q
    let free := s.phys arg = 1 ∧ s.chosen arg = false
    let useSeed := s.bit Reg.BIST_ARG 20
    (s.ready = false ∨ s.stepping r = true ∨ s.pealMayRun = false ∨ s.freeTile r = none ∨ s.victim r = none →
      exec (.pealStepStart r) s = .next s) ∧
    (∀ (q v : Nat) (l : Fin 256), s.ready = true → s.stepping r = false → s.lcState ≠ lcScrapped → s.pealMayRun = true → s.freeTile r = some q →
      s.victim r = some v → s.logicalOf v = some l.val → s.untested q = false → s.mapState l = 0 →
      s.peal.stepCmd = some (r.val, false) ∨
        (∃ k, spGet (fun _ => none) s.peal.due r = some k ∧ k ≤ s.now) ∧ s.bit Reg.PEAL_CFG 0 = true ∧ s.bit Reg.PEAL_ROWS r = true →
      Gives (.pealStepStart r) s fun t =>
        t.mapState l = 1 ∧ t.relocOf l = some (newReloc l (s.physOf l) q false true false) ∧ spGet (fun _ => none) t.peal.prev r = some (v % 17)) ∧
    (s.pealMayRun = false ∨ s.testOf p = none ∧ p.val ∉ s.peal.retest → ∀ ok, exec (.lbistSlice p ok) s = .next s) ∧
    (s.pealMayRun = false ∨ s.testOf p = none → ∀ cells, exec (.mbistElement p cells) s = .next s) ∧
    (s.testOf p = none → ∀ top, exec (.vfCalibrate p top) s = .next s) ∧
    (∀ x, s.testOf p = some x → s.pealMayRun = true → p.val ∉ s.peal.retest → x.slice < 24 → x.seed = none → (s.tile p).spareBad = false →
      (Gives (.lbistSlice p true) s fun t => t.testOf p = some { x with slice := x.slice + 1 } ∧ t.mem = s.mem ∧ woke t) ∧
      Gives (.lbistSlice p false) s fun t => retired t p 1 ∧ t.rd Reg.LBIST_FAILS = satAdd (s.rd Reg.LBIST_FAILS) 1) ∧
    (∀ x, s.testOf p = some x → s.pealMayRun = true → 24 ≤ x.slice → x.elem < 24 →
      (x.elem < 23 → Gives (.mbistElement p []) s fun t => t.testOf p = some { x with elem := x.elem + 1 } ∧ t.mem = s.mem ∧ woke t) ∧
      (x.elem = 23 → x.origin ≠ 1 → x.unretire = false → s.peal.cols = [] → Gives (.mbistElement p []) s fun t =>
        t.phys p = 1 ∧ t.untested p = false ∧ t.testOf p = none ∧ t.mem = (s.mem.clearTile false p).clearTile true p ∧
        (x.origin = 2 → t.bit Reg.BIST_STATUS 0 = false ∧ t.bit Reg.BIST_STATUS 4 = true)) ∧
      (∀ addr b : Nat,
        let line := 128 * (addr % 8) + addr / 8 / 4
        let rows := s.repaired p
        x.elem < 23 → line ∉ x.fixed → Gives (.mbistElement p [(0, addr, b)]) s fun t =>
          if ((Config.productionRows p ++ rows).filter (fun y => y / 128 == addr % 8)).length < 2 then
            t.repaired p = rows ++ [line] ∧ t.rd Reg.REPAIRS = satAdd (s.rd Reg.REPAIRS) 1 ∧ t.bit Reg.INT_STATUS 17 = true ∧
            t.testOf p = some { x with elem := x.elem + 1, fixed := x.fixed ++ [line] }
          else retired t p 2) ∧
      (∀ mem addr b : Nat, mem ≠ 0 → mem ≠ 4 → Gives (.mbistElement p [(mem, addr, b)]) s fun t => retired t p 2)) ∧
    (∀ x (top : Nat), s.testOf p = some x → 24 ≤ x.elem → x.origin = 1 →
      let lv := s.vlevelOf p
      (top < 500 → Gives (.vfCalibrate p top) s fun t => retired t p 1) ∧
      (500 ≤ top → x.unretire = false → s.peal.cols = [] → Gives (.vfCalibrate p top) s fun t =>
        t.cal p lv = min (min 1150 (top / 25 * 25) - 25) (s.droopCap p lv) ∧ t.phys p = 1 ∧ t.testOf p = none)) ∧
    (s.ready = false → ∀ c ∈ [Instr.bistCmdTestTile, .bistCmdRetire, .bistCmdUnretire, .bistCmdStep], exec c s = .next { s with lastStatus := 0x0B }) ∧
    (s.unitUp 14 → busy = true → ∀ c ∈ [Instr.bistCmdTestTile, .bistCmdRetire, .bistCmdUnretire, .bistCmdStep], exec c s = .next s) ∧
    (s.unitUp 14 → busy = false → s.lcState = lcScrapped → ∀ c ∈ [Instr.bistCmdTestTile, .bistCmdRetire, .bistCmdUnretire, .bistCmdStep], errs c 1) ∧
    (s.unitUp 14 → busy = false → s.lcState ≠ lcScrapped →
      let closed := useSeed = true ∧ s.lcState ≠ lcBlank ∧ s.lcState ≠ lcService
      (closed → errs .bistCmdTestTile 1) ∧
      (¬closed → 271 < arg → errs .bistCmdTestTile 4) ∧
      (¬closed → arg ≤ 271 → ¬free → errs .bistCmdTestTile 2) ∧
      (¬closed → arg ≤ 271 → free → Gives .bistCmdTestTile s fun t => tested t arg (if useSeed then some (s.rd Reg.BIST_SEED) else none) false) ∧
      (271 < arg → errs .bistCmdRetire 4) ∧
      (arg ≤ 271 → ¬free → errs .bistCmdRetire 2) ∧
      (arg ≤ 271 → free → Gives .bistCmdRetire s fun t => retired t arg 5 ∧ t.bit Reg.BIST_STATUS 0 = false) ∧
      (s.lcState ≠ lcService → errs .bistCmdUnretire 1) ∧
      (s.lcState = lcService → 271 < arg → errs .bistCmdUnretire 4) ∧
      (s.lcState = lcService → arg ≤ 271 → s.phys arg ≠ 3 → errs .bistCmdUnretire 5) ∧
      (s.lcState = lcService → arg ≤ 271 → s.phys arg = 3 → Gives .bistCmdUnretire s fun t =>
        tested t arg none true ∧ t.nv.queue = s.nv.queue ++ [{ work := .append .journal 2 (wd (0x8E000000 + arg)) [], host := false }]) ∧
      (s.stepping row = true → errs .bistCmdStep 3) ∧
      (s.stepping row = false → (∀ c < 17, s.phys (17 * row + c) ≠ 1) → errs .bistCmdStep 2) ∧
      (s.stepping row = false → (∃ c < 17, s.phys (17 * row + c) = 1) → s.pealMayRun = false → Gives .bistCmdStep s fun t =>
        t.peal.stepCmd = some (row, false) ∧ t.bit Reg.BIST_STATUS 0 = true ∧ t.fld Reg.BIST_STATUS 3 1 = 0 ∧
        { s with peal := t.peal }.regsAt t [Reg.BIST_STATUS]))

/-- The tocsin takes the sources found in a tick that are not set yet, counts them, sets ALARM_STATUS, locks or erases by the policy of its sources
and ends an exchange; the erasure of KEYS goes on step by step; the fuse check and the entropy tests show what they find; KEY_CMD stores, generates or
programs a key in the states that allow it, zeroises KEY_IN and is recorded (R603, R605 to R607, R615 to R619, R628). -/
def Obligations.KeysAndTocsin : Prop :=
  ∀ (s : State),
    let alarm := fun (t : State) (new : Nat) =>
      (∀ n < 7, t.bit Reg.ALARM_STATUS n = (s.bit Reg.ALARM_STATUS n || new.testBit n) ∧
        t.rd (Reg.TOCSIN_EVENTS n) = (if new.testBit n then satAdd (s.rd (Reg.TOCSIN_EVENTS n)) 1 else s.rd (Reg.TOCSIN_EVENTS n))) ∧
      t.bit Reg.INT_STATUS 11 = true ∧ t.keys.exchange = none ∧ t.bit Reg.LC_STATE 12 = false ∧
      (1 ≤ s.policyOf new → t.bit Reg.ALARM_STATUS 16 = true ∧ t.keys.keyIn = List.replicate 32 0) ∧
      (s.policyOf new = 2 → t.bit Reg.ALARM_STATUS 17 = true ∧ t.keys.wk = none ∧ t.keys.image = none ∧ t.keys.site = none ∧ t.keys.enroll = none ∧
        t.keys.erase.isSome = true)
    (∀ (sources : BitVec 7) (mon : Word),
      let new := sources.toNat &&& (127 - s.fld Reg.ALARM_STATUS 6 0)
      (s.boot.low = true ∨ s.boot.safe = true → exec (.tocsinEvent sources mon) s = .next s) ∧
      (s.boot.low = false → s.boot.safe = false → new = 0 → Gives (.tocsinEvent sources mon) s fun t =>
        t.rd Reg.MON_STATUS = (s.rd Reg.MON_STATUS &&& 0x80#32) ||| (mon &&& 0xFFFF007F#32) ∧ s.regsAt t [Reg.MON_STATUS]) ∧
      (s.boot.low = false → s.boot.safe = false → new ≠ 0 → s.mgmt.load = none → (∀ e, s.keys.event = some e → e.at_ ≠ s.now) →
        Gives (.tocsinEvent sources mon) s fun t => alarm t new)) ∧
    (s.boot.low = true ∨ s.boot.safe = true → ∀ ok, exec (.fuseRecheck ok) s = .next s) ∧
    (s.boot.low = false → s.boot.safe = false →
      (Gives (.fuseRecheck true) s fun t => t.bit Reg.MON_STATUS 7 = true ∧ s.regsAt t [Reg.MON_STATUS]) ∧
      (s.bit Reg.ALARM_STATUS 4 = true → Gives (.fuseRecheck false) s fun t => t.bit Reg.MON_STATUS 7 = false ∧ s.regsAt t [Reg.MON_STATUS]) ∧
      (s.bit Reg.ALARM_STATUS 4 = false → s.mgmt.load = none → (∀ e, s.keys.event = some e → e.at_ ≠ s.now) → Gives (.fuseRecheck false) s fun t => alarm t 16)) ∧
    (s.boot.low = true ∨ s.boot.safe = true ∨ s.keys.halted = true → ∀ ok, exec (.entropySample ok) s = .next s) ∧
    (s.boot.low = false → s.boot.safe = false → s.keys.halted = false → Gives (.entropySample true) s fun t =>
      t.keys = { s.keys with passes := min 1024 (s.keys.passes + 1) } ∧ { s with keys := t.keys }.regsAt t [Reg.SEC_STATUS] ∧
      t.bit Reg.SEC_STATUS 4 = (s.bit Reg.SEC_STATUS 4 || decide (1023 ≤ s.keys.passes))) ∧
    (s.boot.low = false → s.boot.safe = false → s.keys.halted = false → Gives (.entropySample false) s fun t =>
      t.keys = { s.keys with passes := 0 } ∧ { s with keys := t.keys }.regsAt t [Reg.SEC_STATUS, Reg.ENTROPY_FAILS] ∧ t.bit Reg.SEC_STATUS 4 = false ∧
      t.rd Reg.ENTROPY_FAILS = satAdd (s.rd Reg.ENTROPY_FAILS) 1) ∧
    (s.keys.erase = none → ∀ last, exec (.keysErase last) s = .next s) ∧
    (s.keys.erase = some 1 → s.nv.started = none → s.keysRo = false → s.nv.found = NvVerify.clean →
      let v1 := s.nv.program keyMarker (List.replicate 16 0)
      let v2 := v1.doSteps (v1.zeroSteps 3968 6)
      let v3 := (List.range 7).foldl (fun v i => v.erase (3968 + i)) v2
      exec (.keysErase 0) s = .next s ∧
      (Gives (.keysErase 1) s fun t => t.nv = v1 ∧ t.keys.erase = some 2) ∧
      (Gives (.keysErase 2) s fun t => t.nv = v2 ∧ t.keys.erase = some 3) ∧
      (s.ready = true → Gives (.keysErase 3) s fun t => t.nv.die = v3.die ∧ t.keys.erase = none) ∧
      (s.ready = false → Gives (.keysErase 3) s fun t => t.nv = v2 ∧ t.keys.erase = some 3)) ∧
    ∀ c ∈ [(Instr.keyCmdSetImageRoot, 1), (.keyCmdSetSiteKey, 2), (.keyCmdNewEnrollKey, 3), (.keyCmdProgUnlockKey, 4)],
      let n := c.2
      let st := s.lcState
      let allowed := st = lcProvision ∨ st = lcField ∧ n = 3 ∨ st = lcService ∧ (n = 1 ∨ n = 2)
      let recorded := fun (t : State) => t.nv.audit.getLast? =
        some { payload := s.auditPayload 2 s.hostSrc (wd (0xA * 2 ^ 24 + 8)) 0 (wd n) 0, device := false, extra := none, due := false }
      let ends := fun (err : Nat) => Gives c.1 s fun t =>
        t.fld Reg.KEY_STATUS 3 1 = err ∧ t.keys = { s.keys with keyIn := List.replicate 32 0 } ∧ recorded t ∧
          { s with nv := t.nv, keys := t.keys }.regsAt t [Reg.KEY_STATUS]
      let does := fun (p : State → Prop) => Gives c.1 s fun t =>
        t.fld Reg.KEY_STATUS 3 1 = 0 ∧ t.rd Reg.KEY_OPS = satAdd (s.rd Reg.KEY_OPS) 1 ∧ t.keys.keyIn = List.replicate 32 0 ∧ recorded t ∧ p t
      let seq := match s.nv.keyActive (n - 1) with | some x => x.2.1 + 1 | none => 1
      let wraps := (st = lcService ∧ s.keys.duk ≠ none) ∨ (st ≠ lcService ∧ s.keys.wk ≠ none)
      (s.ready = false → exec c.1 s = .next { s with lastStatus := 0x0B }) ∧
      (s.unitUp 10 → s.auditRefuses = true → exec c.1 s = .next s.auditRefused) ∧
      (s.unitUp 10 → s.auditRefuses = false → s.keys.halted = false →
        (¬allowed → ends 1) ∧
        (allowed → n ≠ 4 → s.bit Reg.ALARM_STATUS 16 = true → ends 2) ∧
        (allowed → n = 4 → s.keys.unlock ≠ none → ends 5) ∧
        (allowed → n = 4 → s.keys.unlock = none → does fun t => t.keys.unlock = some s.keys.keyIn) ∧
        (allowed → s.bit Reg.ALARM_STATUS 16 = false → n ≠ 4 → ¬wraps → ends 2) ∧
        (allowed → s.bit Reg.ALARM_STATUS 16 = false → n ≠ 4 → wraps → s.bit Reg.SEC_STATUS 4 = false → ends 3) ∧
        (allowed → s.bit Reg.ALARM_STATUS 16 = false → n ≠ 4 → wraps → s.bit Reg.SEC_STATUS 4 = true → s.keysRo = true → ends 4) ∧
        (allowed → s.bit Reg.ALARM_STATUS 16 = false → n ≠ 4 → wraps → s.bit Reg.SEC_STATUS 4 = true → s.keysRo = false → s.nv.found = NvVerify.clean → does fun t =>
          (n = 1 → st ≠ lcService → t.keys.image = some { key := s.keys.keyIn, group := 0, seq := seq }) ∧
          (n = 2 → st ≠ lcService → t.keys.site = some { key := s.keys.keyIn, group := s.fld Reg.KEY_ARG 15 0, seq := seq }) ∧
          (n = 3 → ∃ k, t.keys.enroll = some { key := k, group := 0, seq := seq } ∧ k.length = 32) ∧
          (st = lcService → t.keys.image = s.keys.image ∧ t.keys.site = s.keys.site)))

/-- An unlock exchange: a command that the state refuses gives REFUSED, one while another waits gives BUSY, PROVISION and a right response to FIELD or
RETURN make their transition, program its fuse and hold every unit in reset, the other commands write a challenge and count, a wrong response counts a
failure and 10 s without the response end the exchange (R621 to R623). -/
def Obligations.UnlockExchanges : Prop :=
  ∀ (s : State),
    let open' := s.ready = true ∧ s.bit Reg.BIST_BLOCKS 10 = false
    let result := fun (c : Instr) (code : Word) => Gives c s fun t => t.rd Reg.LC_RESULT = code ∧ s.regsAt t [Reg.LC_RESULT]
    let held := fun (t : State) =>
      t.keys.halted = true ∧ t.ready = false ∧ t.keys.exchange = none ∧ t.keys.wk = none ∧ t.keys.keyIn = List.replicate 32 0 ∧ t.tiles = [] ∧ t.rd Reg.LC_RESULT = 1
    (∀ c ∈ [(Instr.lcUnlockProvision, 1), (.lcUnlockField, 2), (.lcUnlockService, 3), (.lcUnlockReturn, 4), (.lcUnlockScrap, 5)],
      (s.ready = false → s.boot.low = false → s.boot.safe = false → exec c.1 s = .next (s.setBit Reg.INT_STATUS 5 true)) ∧
      (open' → s.keys.halted = true → exec c.1 s = .next s) ∧
      (open' → s.keys.halted = false → s.keys.exchange ≠ none → result c.1 5) ∧
      (open' → s.keys.halted = false → s.keys.exchange = none → s.lcRefused c.2 = true → result c.1 3) ∧
      (open' → s.keys.halted = false → s.keys.exchange = none → s.lcRefused c.2 = false → c.2 ≠ 1 → Gives c.1 s fun t =>
        t.rd Reg.LC_RESULT = 0 ∧ t.bit Reg.LC_STATE 12 = true ∧ t.rd Reg.UNLOCK_ATTEMPTS = satAdd (s.rd Reg.UNLOCK_ATTEMPTS) 1 ∧
        ∃ ch, ch.length = 32 ∧ t.keys = { s.keys with exchange := some { cmd := c.2, challenge := ch, words := [], start := s.now } } ∧
          ∀ i < 8, t.rd (Reg.LC_CHALLENGE i) = wordAt ch (4 * i))) ∧
    (open' → s.keys.halted = false → s.keys.exchange = none → s.lcRefused 1 = false → Gives .lcUnlockProvision s fun t =>
      held t ∧ t.keys.fuses = wSetBit s.keys.fuses 0 true ∧ ∃ k, t.keys.duk = some k ∧ k.length = 32) ∧
    (∀ w, lcCmdOf w = none →
      (s.ready = false → s.boot.low = false → s.boot.safe = false → exec (.lcUnlockResponse w) s = .next (s.setBit Reg.INT_STATUS 5 true)) ∧
      (open' → s.keys.exchange = none → s.keys.halted = false → result (.lcUnlockResponse w) 3) ∧
      ∀ e, open' → s.keys.halted = false → s.keys.exchange = some e →
        let right := s.keys.response e = some ((e.words ++ [w]).flatMap (fun x => toBytes 4 x.toNat))
        let fails := min 8 (s.fld Reg.LC_STATE 11 8 + 1)
        (e.words.length ≠ 7 → exec (.lcUnlockResponse w) s =
          .next { s with keys := { s.keys with exchange := some { e with words := e.words ++ [w] } } }) ∧
        (e.words.length = 7 → right → e.cmd = 2 ∨ e.cmd = 4 → Gives (.lcUnlockResponse w) s fun t =>
          held t ∧ t.keys.fuses = (if e.cmd = 2 then wSetBit s.keys.fuses 1 true else fuseNext s.keys.fuses 10)) ∧
        (e.words.length = 7 → ¬right → s.mgmt.load = none → Gives (.lcUnlockResponse w) s fun t =>
          t.rd Reg.LC_RESULT = 2 ∧ t.fld Reg.LC_STATE 11 8 = fails ∧ t.keys.exchange = none ∧ t.bit Reg.LC_STATE 12 = false ∧ t.keys.fuses = s.keys.fuses)) ∧
    (s.keys.exchange = none → exec .lcUnlockTimeout s = .next s) ∧
    ∀ e, s.keys.exchange = some e →
      (s.now < e.start + 10000000 → exec .lcUnlockTimeout s = .next s) ∧
      (e.start + 10000000 ≤ s.now → Gives .lcUnlockTimeout s fun t =>
        t.rd Reg.LC_RESULT = 4 ∧ t.keys = { s.keys with exchange := none } ∧ t.bit Reg.LC_STATE 12 = false)

/-- A mode request is refused with the first reason of R641 that holds, completes at once or starts a change; LISTEN is entered in steps, once nothing
is due, and a wake passes from its start to its mode; ACTIVITY, from the clocks that ran, gives GUARD, droops lower CAL, the level steps towards the
wanted one, and the limiter shows POWER and the temperature and lowers the caps of the first tier while the cap is exceeded (R520, R629, R630, R632,
R633, R636, R637, R641, R643, R647, R649, R650, R689). -/
def Obligations.PowerCommands : Prop :=
  ∀ (s : State),
    let mode := s.fld Reg.PWR_STATUS 1 0
    let changing := s.bit Reg.PWR_STATUS 2
    (∀ (limit : Bool), ∀ c ∈ [(Instr.pwrModeListen limit, 0), (.pwrModeArmed limit, 1), (.pwrModeFull limit, 2)],
      let m := c.2
      let refused := fun (code : Nat) => Gives c.1 s fun t =>
        t.fld Reg.PWR_STATUS 5 3 = code ∧ t.bit Reg.INT_STATUS 14 = true ∧ t.fld Reg.PWR_CTRL 1 0 = m ∧ t.bit Reg.PWR_CTRL 4 = limit ∧
        s.regsAt t [Reg.PWR_STATUS, Reg.PWR_CTRL, Reg.INT_STATUS]
      let starts := fun (p : State → Prop) => Gives c.1 s fun t =>
        t.fld Reg.PWR_STATUS 5 3 = 0 ∧ t.bit Reg.PWR_STATUS 2 = true ∧ t.fld Reg.PWR_STATUS 1 0 = mode ∧ t.bit Reg.PWR_CTRL 4 = limit ∧
        s.regsOnly t [Reg.PWR_STATUS, Reg.PWR_CTRL] ∧ p t
      (s.boot.low = true ∨ s.boot.safe = true → exec c.1 s = .next s) ∧
      (s.boot.low = false → s.boot.safe = false → s.ready = false → Gives c.1 s fun t =>
        t.fld Reg.PWR_STATUS 5 3 = 4 ∧ t.bit Reg.INT_STATUS 5 = true ∧ t.bit Reg.INT_STATUS 14 = true ∧ s.regsAt t [Reg.PWR_STATUS, Reg.INT_STATUS]) ∧
      (s.boot.low = false → s.boot.safe = false → s.ready = true →
        (changing = true → refused 3) ∧
        (changing = false → m = 0 → s.urgentServed = true → refused 1) ∧
        (changing = false → m = 0 → s.urgentServed = false → s.matched = true → refused 2) ∧
        (changing = false → (m = 0 → s.urgentServed = false ∧ s.matched = false) → m = mode → refused 0) ∧
        (changing = false → m = 0 → s.urgentServed = false → s.matched = false → m ≠ mode → starts fun t =>
          t = { s with regs := t.regs, pwr := { s.pwr with target := some 0 }, cu := { s.cu with asleep := true } }) ∧
        (changing = false → m ≠ 0 → mode = 0 → starts fun t =>
          t = { s with regs := t.regs, pwr := { s.pwr with waking := some (s.pwr.waking.getD s.now) } }) ∧
        (changing = false → m ≠ 0 → mode ≠ 0 → m ≠ mode → Gives c.1 s fun t =>
          t.fld Reg.PWR_STATUS 1 0 = m ∧ t.bit Reg.PWR_STATUS 2 = false ∧ t.fld Reg.PWR_STATUS 5 3 = 0 ∧ t.bit Reg.INT_STATUS 14 = true ∧
          t.rd Reg.MODE_CHANGES = satAdd (s.rd Reg.MODE_CHANGES) 1 ∧ s.regsAt t [Reg.PWR_STATUS, Reg.PWR_CTRL, Reg.INT_STATUS, Reg.MODE_CHANGES]))) ∧
    (let entering := s.pwr.target = some 0
     let level := s.fld Reg.PWR_ACT 13 12 = 0 ∨ s.bit Reg.PWR_CFG 0 = false
     (¬entering → exec .listenEntryDone s = .next s) ∧
     (entering → s.pwr.closed = false → s.entryReady = false → exec .listenEntryDone s = .next s) ∧
     (entering → s.pwr.closed = false → s.entryReady = true → s.liveStreams = [] → s.peal.tests = [] → Gives .listenEntryDone s fun t =>
       t.pwr = { s.pwr with closed := true, closedAt := s.now } ∧ t.fld Reg.PWR_STATUS 1 0 = mode) ∧
     (entering → s.pwr.closed = true → s.pwr.gated = false → s.entryQuiet = false → exec .listenEntryDone s = .next s) ∧
     (entering → s.pwr.closed = true → s.pwr.gated = false → s.entryQuiet = true → Gives .listenEntryDone s fun t =>
       t.pwr.gated = true ∧ t.fe.listen = true ∧ (∀ q < 255, (t.tile q).bit Reg.CLK_STATUS 10 = false) ∧
       (∀ b < 4352, spGet (fun _ => false) t.integ.retained b = true) ∧ ∀ k : Fin 8, s.linkState k = 2 → (t.port k).parked = true) ∧
     (entering → s.pwr.closed = true → s.pwr.gated = true → ¬level → exec .listenEntryDone s = .next s) ∧
     (entering → s.pwr.closed = true → s.pwr.gated = true → level → s.pwr.heldWake = none → Gives .listenEntryDone s fun t =>
       t.fld Reg.PWR_STATUS 1 0 = 0 ∧ t.bit Reg.PWR_STATUS 2 = false ∧ t.bit Reg.INT_STATUS 14 = true ∧
       t.rd Reg.LISTEN_ENTRIES = satAdd (s.rd Reg.LISTEN_ENTRIES) 1 ∧ t.rd Reg.MODE_CHANGES = satAdd (s.rd Reg.MODE_CHANGES) 1 ∧
       { s with pwr := { s.pwr with target := none } }.regsAt t [Reg.PWR_STATUS, Reg.INT_STATUS, Reg.LISTEN_ENTRIES, Reg.MODE_CHANGES])) ∧
    (let asked := s.pwr.waking ≠ none ∧ s.pwr.restored = false ∧ mode = 0
     let level := s.fld Reg.PWR_ACT 13 12 = 3 ∨ s.bit Reg.PWR_CFG 0 = false
     (¬asked → exec .wakeStart s = .next s) ∧
     (asked → s.pwr.begun = false → ¬level ∨ s.pwr.saved = none → Gives .wakeStart s fun t =>
       t.bit Reg.PWR_STATUS 2 = true ∧ t.pwr.begun = true ∧ t.fe.listen = false ∧ ∀ k : Fin 8, (t.port k).parked = false) ∧
     (asked → s.pwr.begun = true → ¬level → exec .wakeStart s = .next s) ∧
     (asked → level → s.pwr.saved = none → Gives .wakeStart s fun t =>
       t.pwr.gated = false ∧ t.pwr.closed = false ∧ t.pwr.restored = true ∧ t.integ.retained = [] ∧
       ∀ q < 255, ∀ o < 0x40000, t.mem.seen false (sramKey q o) = 0)) ∧
    (let parked := ∃ k < 8, (s.port k).parked = true
     (s.pwr.waking = none ∨ s.pwr.restored = false ∨ parked → exec .wakeDone s = .next s) ∧
     (s.pwr.waking ≠ none → s.pwr.restored = true → ¬parked → s.liveStreams = [] → Gives .wakeDone s fun t =>
       t.fld Reg.PWR_STATUS 1 0 = (if s.fld Reg.PWR_CFG 2 1 = 1 then 1 else 2) ∧ t.bit Reg.PWR_STATUS 2 = false ∧ t.bit Reg.INT_STATUS 15 = true ∧
       t.rd Reg.WAKES_DONE = satAdd (s.rd Reg.WAKES_DONE) 1 ∧ t.cu.asleep = false ∧ t.shadow = [] ∧
       t.pwr = { s.pwr with waking := none, begun := false, restored := false, saved := none })) ∧
    (∀ up : Bool,
      let n := 256 * s.pwr.ranFor
      let whole := 100 * s.pwr.ran % n = 0
      let a := min 100 (100 * s.pwr.ran / n + if up = true ∧ ¬whole then 1 else 0)
      let gs := s.pwr.guards.filter (fun e => decide (s.now < e.1 + 100)) ++ [(s.now, 3 * ((a + 24) / 25))]
      (s.pwr.ranFor < 10 → exec (.activityUpdate up) s = .next s) ∧
      (10 ≤ s.pwr.ranFor → Gives (.activityUpdate up) s fun t =>
        t.fld Reg.PWR_ACT 6 0 = a ∧ t.fld Reg.PWR_ACT 11 8 = gs.foldl (fun m e => max m e.2) 0 % 16 ∧
        { s with pwr := { s.pwr with guards := gs, ran := 0, ranFor := 0 } }.regsAt t [Reg.PWR_ACT])) ∧
    (∀ p : Fin 272,
      let ev := (spGet (fun _ => []) s.pwr.droops p).filter (fun e => decide (s.now < e + 1000000)) ++ [s.now]
      let limit := max 1 (s.fld Reg.DROOP_CFG 7 0)
      let again := ∃ e, spGet (fun _ => none) s.pwr.droopAt p = some e ∧ s.now < e + 1000000
      let enough := limit + 1 ≤ ev.length ∨ again ∧ limit ≤ ev.length
      let v := s.vlevelOf p
      (¬enough → Gives (.droopEvent p) s fun t =>
        t.regs = s.regs ∧ t.pwr = { s.pwr with droops := t.pwr.droops } ∧ spGet (fun _ => []) t.pwr.droops p = ev ∧
        (t.tile p).rd Reg.DROOP_STRETCH = satAdd ((s.tile p).rd Reg.DROOP_STRETCH) 1) ∧
      (enough → Gives (.droopEvent p) s fun t =>
        t.cal p v = s.cal p v - 25 ∧ (25 < s.cal p v → t.droopCap p v = s.cal p v - 25) ∧ spGet (fun _ => []) t.pwr.droops p = [] ∧
        spGet (fun _ => none) t.pwr.droopAt p = some s.now ∧ t.rd Reg.DROOP_LOWERS = satAdd (s.rd Reg.DROOP_LOWERS) 1)) ∧
    (let v := s.fld Reg.PWR_ACT 13 12
     let soon := ∃ k, s.pwr.stepAt = some k ∧ s.now < k + 50
     (soon ∨ v = s.levelWanted → exec .vlevelStep s = .next s) ∧
     (¬soon → v ≠ s.levelWanted → Gives .vlevelStep s fun t =>
       t.fld Reg.PWR_ACT 13 12 = (if v < s.levelWanted then v + 1 else v - 1) ∧
       { s with pwr := { s.pwr with stepAt := some s.now } }.regsAt t [Reg.PWR_ACT])) ∧
    ∀ (power : Nat) (temp : BitVec 16), s.liveStreams = [] → s.cu.held = [] →
      let cap := if s.bit Reg.PWR_CTRL 4 then s.fld Reg.POWER_CAP 11 0 else 2500
      let hot := 105 ≤ temp.toInt ∨ ∃ k, s.pwr.hotAt = some k ∧ (100 ≤ temp.toInt ∨ s.now < k + 1000000)
      (Gives (.limiterUpdate power temp) s fun t =>
        t.fld Reg.PWR_STATUS 31 16 = min 0xFFFF power ∧ t.fld Reg.MON_STATUS 31 16 = temp.toNat ∧ (t.pwr.hotAt.isSome = true ↔ hot) ∧
        (cap < power ∨ hot → t.pwr.above = s.pwr.above + 1) ∧ (power ≤ cap → ¬hot → t.pwr.above = 0)) ∧
      (cap < power ∨ hot → 1 ≤ s.pwr.above →
        (∀ x < 240, s.rd (Reg.LOAD0 x) = 0 ∧ s.rd (Reg.LOAD12 x) = 0 ∧ max 100 (min 1000 ((s.tileFloor [] x + 24) / 25 * 25)) + 25 ≤ s.capMhz x ∧
          s.capMhz x ≤ 1000) → Gives (.limiterUpdate power temp) s fun t =>
          (∀ x < 240, t.capMhz x = s.capMhz x - 25) ∧ t.bit Reg.PWR_STATUS 6 = true ∧ t.rd Reg.LIMIT_STEPS = satAdd (s.rd Reg.LIMIT_STEPS) 1)

/-- The timing master drives SYNC at whole seconds and the others take its edges: an armed device loads TIME_SET, one more than 50 µs off is an error,
and a closer one trims the rate by what d has grown and is taken off; a missing edge is counted; PORESET# resets everything but the flash die, the
fuses and the port, power-up samples the straps and ends ready to be completed or in the safe state, and READY rises with the result (R34, R491, R594,
R595, R597 to R599, R621, R652 to R654, R679). -/
def Obligations.SyncAndPowerUp : Prop :=
  ∀ (s : State),
    let off := s.boot.low = true ∨ s.boot.safe = true
    let set := s.rd Reg.TIME_SET_HI ++ s.rd Reg.TIME_SET_LO
    let taken := fun (c : Instr) (d : Int) =>
      (s.bit Reg.TIME_STATUS 3 = true → Gives c s fun t =>
        t.time = set ∧ t.bit Reg.TIME_STATUS 3 = false ∧ t.bit Reg.TIME_STATUS 4 = false ∧ t.bit Reg.TIME_STATUS 2 = true ∧
        t.fld Reg.TIME_STATUS 31 16 = 0 ∧ { s with time := set, sync := t.sync }.regsAt t [Reg.TIME_STATUS]) ∧
      (s.bit Reg.TIME_STATUS 3 = false →
        let n := if d.natAbs ≤ 100 then s.sync.streak + 1 else 0
        let shown := fun (t : State) =>
          t.time = s.time ∧ t.bit Reg.TIME_STATUS 2 = true ∧ t.bit Reg.TIME_STATUS 1 = decide (2 ≤ n) ∧ t.sync.edgeAt = some s.now ∧ t.sync.streak = n ∧
          t.fld Reg.TIME_STATUS 31 16 = (BitVec.ofInt 16 (clampI (-32768) 32767 d)).toNat ∧
          t.sync.edgeD = (if d.natAbs ≤ 50000 then 0 else d) ∧ t.sync.slew = (if d.natAbs ≤ 50000 then d * 100000 else 0)
        let grown := d - (s.sync.edgeD + Int.tdiv s.sync.slew 100000)
        (50000 < d.natAbs → Gives c s fun t =>
          shown t ∧ t.bit Reg.TIME_STATUS 4 = true ∧ t.rd Reg.TIME_TRIM = s.rd Reg.TIME_TRIM ∧
          t.rd Reg.SYNC_ERRS = satAdd (s.rd Reg.SYNC_ERRS) 1 ∧ t.bit Reg.INT_STATUS 18 = true) ∧
        (d.natAbs ≤ 50000 → s.sync.edgeAt = none → Gives c s fun t => shown t ∧ t.rd Reg.TIME_TRIM = s.rd Reg.TIME_TRIM ∧ t.rd Reg.SYNC_ERRS = s.rd Reg.SYNC_ERRS) ∧
        (∀ e, d.natAbs ≤ 50000 → s.sync.edgeAt = some e → Gives c s fun t =>
          shown t ∧ t.rd Reg.SYNC_ERRS = s.rd Reg.SYNC_ERRS ∧
          t.rd Reg.TIME_TRIM = s.rd Reg.TIME_TRIM - wi (Int.tdiv grown (10 * ((max 1 ((s.now - e + 500000) / 1000000) : Nat) : Int)))))
    (s.chipId ≠ 0 ∨ off ∨ s.now % 1000000 ≠ 0 ∨ s.now = 0 ∨ s.syncPin = true → exec .syncDrive s = .next s) ∧
    (s.chipId = 0 → ¬off → s.now % 1000000 = 0 → s.now ≠ 0 → s.syncPin = false →
      taken .syncDrive 0 ∧ Gives .syncDrive s fun t => t.sync.pulse = some (t.now + 10)) ∧
    (∀ frac : Nat, (s.chipId = 0 ∨ off → exec (.syncEdge frac) s = .next s) ∧
      (s.chipId ≠ 0 → ¬off →
        let r := s.now % 1000000
        taken (.syncEdge frac) ((if r < 500000 then (r : Int) else (r : Int) - 1000000) * 1000 + ((frac % 1000 : Nat) : Int)))) ∧
    (∀ e, s.sync.edgeAt = some e → e + 1000050 < s.now → Gives .syncMissed s fun t =>
      t.rd Reg.SYNC_MISSED = satAdd (s.rd Reg.SYNC_MISSED) 1 ∧ t.bit Reg.TIME_STATUS 2 = false ∧ t.bit Reg.TIME_STATUS 1 = false ∧
      t.bit Reg.INT_STATUS 18 = true ∧ t.sync = { s.sync with edgeAt := some (e + 1000000), streak := 0 } ∧
      { s with sync := t.sync }.regsAt t [Reg.SYNC_MISSED, Reg.TIME_STATUS, Reg.INT_STATUS]) ∧
    ((∀ e, s.sync.edgeAt = some e → s.now ≤ e + 1000050) → exec .syncMissed s = .next s) ∧
    (s.unitUp 15 → exec .timeCmdArm s = .next (s.setBit Reg.TIME_STATUS 3 true)) ∧
    (s.ready = false → exec .timeCmdArm s = .next { s with lastStatus := 0x0B }) ∧
    (Gives .poresetAssert s fun t =>
      t.boot.low = true ∧ t.boot.safe = false ∧ t.boot.tap = s.boot.tap ∧ t.regs = [] ∧ t.tiles = [] ∧ t.mem = Memory.reset ∧ t.pending = s.pending ∧
      t.nv.queue = [] ∧ t.nv.hostTx = none ∧ t.keys = { Keys.reset with fuses := s.keys.fuses, duk := s.keys.duk, unlock := s.keys.unlock } ∧
      (s.nvUnderWay = [] → t.nv.die = s.nv.die ∧ t.nv.info = s.nv.info)) ∧
    (∀ v, s.boot.low = false → exec (.powerUp v) s = .next s) ∧
    (∀ v, s.boot.low = true → Gives (.powerUp v) s fun t =>
      t.boot.low = false ∧ t.time = 0 ∧ t.chipId = v.chipId ∧ t.keys.fuses = s.keys.fuses ∧
      (v.control = true ∨ v.hostBus = true → t.boot.safe = true ∧ t.boot.hostBad = v.hostBus ∧ t.nv = s.nv ∧
        t.fld Reg.LC_STATE 2 0 = lcDecode s.keys.fuses v.lifeRow ∧ t.bit Reg.HB_STATUS 24 = v.syncBus) ∧
      (v.control = false → v.hostBus = false → t.boot.safe = s.boot.safe ∧ t.mem = Memory.reset)) ∧
    (off ∨ s.ready = true ∨ s.keys.halted = true → exec .selfTestDone s = .next s) ∧
    (¬off → s.ready = false → s.keys.halted = false → Gives .selfTestDone s fun t =>
      t.ready = true ∧ t.fld Reg.HB_STATUS 3 1 = s.bistResult ∧ { s with peal := t.peal }.regsAt t [Reg.HB_STATUS] ∧
      ∀ r : Fin 16, spGet (fun _ => none) t.peal.due r = some (s.now + s.pealInterval r * r / 16))

/-- The core answers each mailbox command in its turn, the record of an audited one with its reply: PING with its build, CLAP_REQ with a clap,
LOG_FLUSH with the number of entries it wrote, COMPACT with the sectors it freed, VF_DELETE, which takes the caps of the record away, and BOOT_CHECK
with what they find; an image load is opened by a sound envelope, takes its chunks once the writes of the one before are answered, with their bytes
from the staging area of another chip if its epoch is that of EPOCH_TABLE, and ends measured or fails; a restarted core selects its boot slot, and
DEFERRING ends after 100 ms of calm (R36, R523, R609 to R612, R631, R637, R659 to R661, R663, R664, R666, R667, R670, R671). -/
def Obligations.MailboxCommands : Prop :=
  ∀ (s : State) (c : MailCmd) (load : Fin 101),
    let answers := fun (i : Instr) (code status data : Nat) (p : State → Prop) => s.ownTurn c code → Gives i s fun t => s.replied t c status data ∧ p t
    let any := fun (_ : State) => True
    let nvIs := fun (t : State) (v : Nv) => t.nv = { v with audit := t.nv.audit }
    let written := s.corePending = false
    let env := c.page.take 128
    let enc := natAt env 8 1 = 1
    let a : Addr := BitVec.ofNat 40 (natAt c.page 0 5)
    let len := natAt c.page 8 4
    let vf := c.arg / 8 % 512
    (s.mgmt.queue = [] → s.mgmt.run = none → s.mgmt.job = none → ∀ i ∈ [Instr.mailboxPing load, .mailboxClapReq load, .mailboxLogFlush load,
      .mailboxCompact load, .loadBegin load,
        .loadChunk load none, .loadEnd load, .loadAbort load, .seal load none, .unseal load none, .deleteResident load, .exportRecord load none,
        .restore load none, .vfDelete load, .bootCheck load],
      Gives i s fun t => t.mgmt.replies = s.mgmt.replies ∧ t.fld Reg.MGMT_LOAD 7 0 = load ∧ { s with mgmt := t.mgmt }.regsAt t [Reg.MGMT_LOAD, Reg.DEFER_MS]) ∧
    answers (.mailboxPing load) 0x01 0 (wfld s.hbBuild 15 0) (fun t => nvIs t s.nv ∧ t.tiles = s.tiles ∧ t.mem = s.mem) ∧
    answers (.mailboxClapReq load) 0x02 0 0 (fun t =>
      t.clap.noted = s.clap.noted ++ (if s.ready = true ∧ s.bit Reg.CLAP_CTRL 30 = true then [(6, s.now)] else [])) ∧
    (s.nv.ro .log = true → answers (.mailboxLogFlush load) 0x03 0 0 (fun t => t.nv.logq = [] ∧
      t.rd Reg.LOG_LOST = satAdd (s.rd Reg.LOG_LOST) s.nv.logq.length)) ∧
    (s.nv.ro .log = false → s.nv.found = NvVerify.clean → answers (.mailboxLogFlush load) 0x03 0 s.nv.logq.length (fun t => t.nv.logq = [])) ∧
    (∀ r : Region, c.arg / 8 = 1 ∧ r = .enroll ∨ c.arg / 8 = 3 ∧ r = .journal →
      (s.nv.ro r = true → answers (.mailboxCompact load) 0x04 6 5 (fun t => nvIs t s.nv)) ∧
      (s.nv.ro r = false → s.nv.found = NvVerify.clean →
        answers (.mailboxCompact load) 0x04 0 (s.nv.used r - (s.nv.compact r).used r) (fun t => nvIs t (s.nv.compact r)))) ∧
    (c.arg / 8 ≠ 1 → c.arg / 8 ≠ 3 → answers (.mailboxCompact load) 0x04 2 0 (fun t => nvIs t s.nv)) ∧
    (s.lcState ≠ lcService → answers (.vfDelete load) 0x30 3 0 any) ∧
    (s.lcState = lcService → 272 ≤ vf → answers (.vfDelete load) 0x30 2 0 any) ∧
    (s.lcState = lcService → vf < 272 → s.nv.found = NvVerify.clean → (s.nv.append .journal 2 (wd (0x8C000000 + vf)) 0 []).2 = .ok →
      answers (.vfDelete load) 0x30 0 0 (fun t =>
      t.nv.die = (s.nv.append .journal 2 (wd (0x8C000000 + vf)) 0 []).1.die ∧ ∀ v < 4, spGet (fun _ => 0) t.pwr.droopCap (4 * vf + v) = 0)) ∧
    answers (.bootCheck load) 0x31 0 ((if s.bootA = none then 0 else 1) + 2 * (if s.bootB = none then 0 else 1)) (fun t => nvIs t s.nv) ∧
    (s.mgmt.load ≠ none → answers (.loadBegin load) 0x10 3 0 any) ∧
    (s.mgmt.load = none → envelopeOk env = false ∨ s.lcState = lcScrapped ∨ s.lcState = lcField ∧ ¬enc → answers (.loadBegin load) 0x10 2 0 any) ∧
    (s.mgmt.load = none → envelopeOk env = true → s.lcState ≠ lcScrapped → s.lcState ≠ lcField → ¬enc → answers (.loadBegin load) 0x10 0 0 (fun t =>
      t.mgmt.load = some { envelope := env, key := none, body := [], rest := [], sect := none, ended := false, held := [], chunks := 0 } ∧
      t.mgmt.ranges = [] ∧ t.bit Reg.MB_STATUS 2 = true ∧ t.bit Reg.MB_STATUS 3 = false ∧ t.fld Reg.MB_STATUS 19 4 = natAt env 6 2)) ∧
    (s.mgmt.load = none → envelopeOk env = true → s.lcState ≠ lcScrapped → enc → s.keys.image = none ∨ s.deriveEn = false →
      answers (.loadBegin load) 0x10 4 0 (fun t => t.mgmt.load = none)) ∧
    (s.mgmt.load = none → written → s.coreWaits 2 a = false → answers (.loadChunk load none) 0x11 (if s.bit Reg.ALARM_STATUS 16 then 4 else 3) 0 any) ∧
    (¬written → (∀ remote, Gives (.loadChunk load remote) s fun t => (∀ x ∈ s.mgmt.queue, cmdRow x.code ≠ none) → t.mgmt.queue = s.mgmt.queue ∧
      t.mgmt.load = s.mgmt.load) ∧
      Gives (.loadEnd load) s fun t => t.mgmt.queue = s.mgmt.queue ∧ t.mgmt.load = s.mgmt.load ∧ t.mgmt.replies = s.mgmt.replies) ∧
    (∀ (l : Load) (remote : Option FarRead), s.mgmt.load = some l → written →
      let bad := len < 64 ∨ 2 ^ 20 < len ∨ len % 64 ≠ 0 ∨ natAt l.envelope 12 4 < l.body.length + len ∨ 1 < Addr.space a
      (bad → s.coreWaits 2 a = false → answers (.loadChunk load remote) 0x11 2 0 (fun t => t.mgmt.load = some l)) ∧
      (¬bad → Addr.chip a ≠ s.chipId.toNat → remote = none ∨ s.issueError a ≠ none → s.mgmt.ranges = [] → answers (.loadChunk load remote) 0x11 2 0 (fun t =>
        t.mgmt.load = none ∧ t.rd Reg.LOADS_FAILED = satAdd (s.rd Reg.LOADS_FAILED) 1)) ∧
      ∀ (epoch : BitVec 8) (lines : List (List Byte)), ¬bad → Addr.chip a ≠ s.chipId.toNat → s.issueError a = none →
        remote = some { epoch := epoch, lines := lines.map some } → lines.length = len / 64 → (∀ x ∈ lines, x.length = 64) → len ≤ 65536 →
        (epoch.toNat ≠ s.epochEntry (Addr.chip a) (Addr.tile a) → s.mgmt.ranges = [] → answers (.loadChunk load remote) 0x11 2 0 (fun t =>
          t.mgmt.load = none ∧ t.rd Reg.LOADS_FAILED = satAdd (s.rd Reg.LOADS_FAILED) 1)) ∧
        (epoch.toNat = s.epochEntry (Addr.chip a) (Addr.tile a) → l.key = none → l.ended = true → answers (.loadChunk load remote) 0x11 0 (l.chunks + 1) (fun t =>
          t.mgmt.load = some { l with body := l.body ++ lines.flatten, rest := l.rest ++ lines.flatten, chunks := l.chunks + 1 }))) ∧
    (s.mgmt.load = none → (written → answers (.loadEnd load) 0x12 3 0 any) ∧ answers (.loadAbort load) 0x13 3 0 any) ∧
    (∀ l, s.mgmt.load = some l → s.mgmt.ranges = [] →
      let closed := fun (t : State) => t.mgmt.load = none ∧ t.bit Reg.MB_STATUS 2 = false
      let failed := fun (t : State) => closed t ∧ t.rd Reg.LOADS_FAILED = satAdd (s.rd Reg.LOADS_FAILED) 1
      answers (.loadAbort load) 0x13 0 0 failed ∧
      (l.key = none → written → l.body.length ≠ natAt l.envelope 12 4 ∨ l.ended = false → answers (.loadEnd load) 0x12 2 0 failed) ∧
      (∀ k, l.key = some k → written → gcmTag k ((l.envelope.drop 16).take 12) (l.envelope.take 16) l.body ≠ (l.envelope.drop 96).take 16 →
        answers (.loadEnd load) 0x12 5 0 failed) ∧
      (l.key = none → written → l.body.length = natAt l.envelope 12 4 → l.ended = true → l.held = [] → answers (.loadEnd load) 0x12 0 0 (fun t =>
        closed t ∧ t.mgmt.job = none ∧ ∀ i < 8, t.rd (Reg.IMG_MEASURE i) = wordAt (sha256 (l.envelope.take 16 ++ l.body)) (4 * i)))) ∧
    (s.boot.low = true ∨ s.boot.safe = true ∨ s.fld Reg.MB_STATUS 1 0 ≠ 0 → exec .mgmtCoreStart s = .next s) ∧
    (s.boot.low = false → s.boot.safe = false → s.fld Reg.MB_STATUS 1 0 = 0 → s.mgmt.load = none → Gives .mgmtCoreStart s fun t =>
      t.fld Reg.MB_STATUS 1 0 = (if s.bootA = none ∧ s.bootB = none then 1 else 2) ∧ s.regsAt t [Reg.MB_STATUS, Reg.HB_BUILD]) ∧
    ∀ k, s.mgmt.queue = [] → s.mgmt.calmAt = some k → s.bit Reg.MGMT_LOAD 16 = true →
      (load.val < 50 → k + 100000 ≤ s.now → Gives (.deferClear load) s fun t => t.bit Reg.MGMT_LOAD 16 = false ∧ t.mgmt.deferAt = none) ∧
      (50 ≤ load.val ∨ s.now < k + 100000 → Gives (.deferClear load) s fun t => t.bit Reg.MGMT_LOAD 16 = true)

/-- SEAL (with fewer than 4,096 speakers resident), UNSEAL, DELETE_RESIDENT, EXPORT and RESTORE answer with the first reason that holds, and else seal
the row under ENROLL_KEY into a record with the next SEQ, open a record into a row, delete the record, or put an exported record into the result page.
The lines of a row on another chip come with the command; its writes go out one after the other, the header with an odd SEQ first, and the command is
answered when they are: BAD_ARG if one failed, but for SEAL, whose record stands (log entry 79) (R24, R297, R300 to R302, R613, R614). -/
def Obligations.EnrollmentRecords : Prop :=
  ∀ (s : State) (c : MailCmd) (load : Fin 101) (lines : List (List Byte)), lines.length = 16 → (∀ x ∈ lines, x.length = 64) →
    let row := lines.flatten
    let read := fun (a : Addr) => some ({ epoch := BitVec.ofNat 8 (s.epochEntry (Addr.chip a) (Addr.tile a)), lines := lines.map some } : FarRead)
    let answers := fun (i : Instr) (code status data : Nat) (p : State → Prop) => s.ownTurn c code → Gives i s fun t => s.replied t c status data ∧ p t
    let kept := fun (t : State) => t.nv.die = s.nv.die
    let a : Addr := BitVec.ofNat 40 (natAt c.page 0 5)
    let far := fun (a : Addr) => s.rowAddr a = true ∧ Addr.chip a ≠ s.chipId.toNat
    let id := wordAt row 0
    let seq := match s.nv.resident id with | some r => natAt r 8 4 + 1 | none => 1
    let nonce := (s.drawBytes 12).2
    let key : Word := wordAt c.page 0
    let format := natAt c.page 8 2
    let file := (c.page.drop 16).take 1024
    let group := natAt file 4 2
    let started := fun (i : Instr) (code data : Nat) (b : Addr) (new : List Byte) (p : State → Prop) => s.ownTurn c code → Gives i s fun t =>
      t.mgmt.queue = [] ∧ t.mgmt.replies = s.mgmt.replies ∧ t.bit Reg.MB_STATUS 20 = true ∧ p t ∧
      t.mgmt.job = some { cmd := c, todo := (rowWrites b (lines.map some) new).drop 1, anyEpoch := false, prio := 1, waits := true, code := 0,
                            status := 0, data := data }
    let kind := natAt file 6 2
    (s.deriveEn = false ∨ s.entropyOk = false → answers (.seal load (read a)) 0x20 4 0 kept) ∧
    (s.deriveEn = true → s.entropyOk = true → s.enrollProtected = true → answers (.seal load (read a)) 0x20 6 1 kept) ∧
    (s.deriveEn = true → s.entropyOk = true → s.enrollProtected = false → s.rowAddr a = false ∨ far a ∧ sealable row = false →
      answers (.seal load (read a)) 0x20 2 0 kept) ∧
    (s.deriveEn = true → s.entropyOk = true → s.enrollProtected = false → far a → s.issueError a ≠ none → answers (.seal load (read a)) 0x20 2 0 kept) ∧
    (∀ k, s.deriveEn = true → s.entropyOk = true → s.enrollProtected = false → far a → s.issueError a = none → sealable row = true → s.keys.enroll = some k →
      let r := sealRecord k.key nonce row 1 s.siteGroup seq
      (s.nv.resident id ≠ none ∨ s.nv.residents < 4096 → s.nv.found = NvVerify.clean → (s.nv.append .enroll 0x20 id 0 r).2 = .ok →
        started (.seal load (read a)) 0x20 (seq % 65536) a (row.take 8 ++ toBytes 1 (natAt row 8 1 ||| 2) ++ row.drop 9) (fun t =>
        t.nv.die = (s.nv.append .enroll 0x20 id 0 r).1.die ∧ t.rd Reg.KEY_OPS = satAdd (s.rd Reg.KEY_OPS) 1 ∧ t.keys = s.keys))) ∧
    (s.deriveEn = false ∨ s.keys.enroll = none → ∀ b, answers (.unseal load (read b)) 0x21 4 0 kept) ∧
    (∀ k, s.deriveEn = true → s.keys.enroll = some k →
      let b : Addr := BitVec.ofNat 40 (natAt c.page 8 5)
      (s.nv.resident key = none → answers (.unseal load (read b)) 0x21 8 0 kept) ∧
      (∀ r, s.nv.resident key = some r →
        (s.rowAddr b = false → answers (.unseal load (read b)) 0x21 2 0 kept) ∧
        (s.rowAddr b = true → openRecord k.key r = none → answers (.unseal load (read b)) 0x21 5 0 kept) ∧
        (∀ body, far b → openRecord k.key r = some body → s.issueError b = none →
          started (.unseal load (read b)) 0x21 0 b (openedRow row r body true) kept) ∧
        (∀ body, far b → openRecord k.key r = some body → s.issueError b ≠ none → answers (.unseal load (read b)) 0x21 2 0 kept))) ∧
    (s.enrollProtected = true → answers (.deleteResident load) 0x22 6 1 kept) ∧
    (s.enrollProtected = false → s.nv.resident key = none → answers (.deleteResident load) 0x22 8 0 kept) ∧
    (s.enrollProtected = false → s.nv.resident key ≠ none → s.nv.found = NvVerify.clean → (s.nv.append .enroll 0x21 key 0 []).2 = .ok →
      answers (.deleteResident load) 0x22 0 0 (fun t =>
      t.nv.die = (s.nv.append .enroll 0x21 key 0 []).1.die)) ∧
    ((format ≠ 2 ∧ format ≠ 3) ∨ s.rowAddr a = false → answers (.exportRecord load (read a)) 0x23 2 0 kept) ∧
    (format = 2 ∨ format = 3 → s.rowAddr a = true → s.entropyOk = false ∨ s.exportKey format = none → answers (.exportRecord load (read a)) 0x23 4 0 kept) ∧
    (∀ k, format = 2 ∨ format = 3 → far a → s.entropyOk = true → s.exportKey format = some k →
      (sealable row = false ∨ s.issueError a ≠ none → answers (.exportRecord load (read a)) 0x23 2 0 kept) ∧
      (sealable row = true → s.issueError a = none → answers (.exportRecord load (read a)) 0x23 0 0 (fun t => kept t ∧
        ∀ j < 256, t.rd (Reg.RESULT (c.arg % 8) j) =
          wordAt (sealRecord k nonce row format s.siteGroup (match s.nv.resident id with | some r => natAt r 8 4 | none => 0)) (4 * j)))) ∧
    (s.enrollProtected = true → answers (.restore load (read a)) 0x24 6 1 kept) ∧
    (s.enrollProtected = false → kind ≠ 2 → kind ≠ 3 → answers (.restore load (read a)) 0x24 2 0 kept) ∧
    (s.enrollProtected = false → kind = 2 ∨ kind = 3 → s.exportKey kind = none → answers (.restore load (read a)) 0x24 4 0 kept) ∧
    (∀ (j : CoreJob) (i : Instr) (code : Nat) (remote : Option FarRead),
      (i, code) ∈ [(Instr.seal load remote, 0x20), (.unseal load remote, 0x21), (.restore load remote, 0x24)] → s.mgmt.job = some j → j.cmd = c → c.code = code →
      s.mgmt.queue = [] → s.coreTakes = true → s.mgmt.replies.length < 8 → j.waits = false → j.todo = [] ∨ j.code ≠ 0 → Gives i s fun t =>
        t.mgmt.job = none ∧ (if j.code = 0 ∨ code = 0x20 then s.replied t c j.status j.data else s.replied t c 2 0)) ∧
    ∀ k, s.enrollProtected = false → kind = 2 ∨ kind = 3 → s.exportKey kind = some k →
      (kind = 2 → group ≠ s.siteGroup → answers (.restore load (read a)) 0x24 2 0 kept) ∧
      ((kind = 2 → group = s.siteGroup) → s.rowAddr a = true → openRecord k file = none → answers (.restore load (read a)) 0x24 5 0 kept) ∧
      (∀ body, (kind = 2 → group = s.siteGroup) → far a → openRecord k file = some body → s.issueError a = none →
        started (.restore load (read a)) 0x24 0 a (openedRow row file body (s.nv.resident (wordAt file 0)).isSome) kept) ∧
      (∀ body, (kind = 2 → group = s.siteGroup) → far a → openRecord k file = some body → s.issueError a ≠ none →
        answers (.restore load (read a)) 0x24 2 0 kept)

/-- The test access port holds IDCODE after a reset and shifts out the register its instruction selects: the identification, the bypass cell, or the
254 boundary cells, which capture the levels of input pins and what the device drives, and which a full shift replaces, the cell next to TDO first
(the order of a pin's cells: log entry 83); EXTEST, CLAMP and HIGHZ control the pins only while PORESET# is low and else act as BYPASS, as a private
instruction does where scan is closed and a reserved opcode does anywhere (R601, R685 to R687). -/
def Obligations.TestAccessPort : Prop :=
  ∀ (s : State) (captured shifted : List Bool),
    let tap := fun (c : Instr) (x : Tap) => exec c s = .next { s with boot := { s.boot with tap := x } }
    let passed := (false :: shifted).take shifted.length
    let cells := if shifted.length = 254 then shifted.reverse else s.boot.tap.boundary
    let seen := (s.captures captured).reverse
    let st := if s.boot.low then lcDecode s.keys.fuses s.keys.lcFail else s.lcState
    tap .tapReset { s.boot.tap with ir := 1, out := [] } ∧
    tap .idcode { s.boot.tap with ir := 1, out := (List.range 32).map (fun i => (0x1D64076B#32).getLsbD i) } ∧
    tap (.samplePreload captured shifted) { ir := 2, out := seen, boundary := cells } ∧
    boundaryCells.length = 254 ∧
    (∀ i c, captured.length = 254 → boundaryCells[i]? = some c →
      (c.kind = .input → seen[253 - i]? = captured[i]?) ∧ (c.kind = .enable → seen[253 - i]? = some (s.devicePin c.pin != .z)) ∧
      (c.kind = .data → s.devicePin c.pin ≠ .signal → seen[253 - i]? = some (s.devicePin c.pin == .high))) ∧
    tap (.bypass shifted) { s.boot.tap with ir := 0xFF, out := passed } ∧
    (s.boot.low = true →
      tap (.extest captured shifted) { ir := 0, out := seen, boundary := cells } ∧
      tap (.clamp shifted) { s.boot.tap with ir := 3, out := passed } ∧ tap (.highz shifted) { s.boot.tap with ir := 4, out := passed } ∧
      (Gives (.extest captured shifted) s fun t => t.pinDrive = .boundary) ∧ (Gives (.clamp shifted) s fun t => t.pinDrive = .boundary) ∧
      Gives (.highz shifted) s fun t => t.pinDrive = .highZ) ∧
    (s.boot.low = false → ∀ c ∈ [Instr.extest captured shifted, .clamp shifted, .highz shifted],
      tap c { s.boot.tap with ir := 0xFF, out := passed } ∧ Gives c s fun t => t.pinDrive = .device) ∧
    ∀ opcode : BitVec 8,
      (opcode.toNat < 5 ∨ opcode.toNat = 0xFF → exec (.privateScan opcode shifted) s = .next s) ∧
      (5 ≤ opcode.toNat → opcode.toNat < 0x80 → tap (.privateScan opcode shifted) { s.boot.tap with ir := 0xFF, out := passed }) ∧
      (0x80 ≤ opcode.toNat → opcode.toNat ≠ 0xFF → st ≠ lcBlank → st ≠ lcService →
        tap (.privateScan opcode shifted) { s.boot.tap with ir := 0xFF, out := passed }) ∧
      (0x80 ≤ opcode.toNat → opcode.toNat ≠ 0xFF → st = lcBlank ∨ st = lcService → Gives (.privateScan opcode shifted) s fun t =>
        t.boot.tap.ir = opcode.toNat ∧ t.boot.tap.boundary = s.boot.tap.boundary ∧ t.boot.tap.out.length = shifted.length ∧
        t = { s with boot := { s.boot with tap := t.boot.tap }, free := t.free })

/-- A step with a command at the front of the queue is that command run with the queue's rest; with an empty queue it is one tick, after which the
queue is still empty (the tick is the model's choice: log entries 2 and 4). -/
def Obligations.StepRunsFront : Prop :=
  ∀ (s : State),
    (∀ (c : Instr) (r : List Instr), step { s with pending := c :: r } = exec c { s with pending := r }) ∧
    (s.pending = [] → step s = .next s.tick ∧ s.tick.pending = [])

/-- After reset the queue is empty, device time is 0, logical tile L is held by physical tile 17 × (L div 16) + (L mod 16), the physical tile in
column 16 of each row holds none and is FREE, every thread is IDLE and of class 3, every line counts as never-written, and each register named here
reads the reset value of its table, as does each tile's. -/
def Obligations.ResetValues : Prop :=
  let s := State.reset
  s.pending = [] ∧ s.time = 0 ∧ s.ready = false ∧
  (∀ l < 256, s.physOf l = 17 * (l / 16) + l % 16 ∧ s.logicalOf (s.physOf l) = some l) ∧
  (∀ r < 16, s.logicalOf (17 * r + 16) = none ∧ s.rd (Reg.PHYS_STATUS (17 * r + 16)) = 1) ∧
  (∀ (clay : Bool) (ln : Nat), s.mem.written clay ln = false ∧ s.mem.poison clay ln = false) ∧
  (∀ (l : Fin 256) (i : Fin 4),
    (s.ltile l).tstate i = tIdle ∧ (s.ltile l).fld (Reg.T_CONFIG i) 13 12 = 3 ∧ (s.ltile l).fld (Reg.T_CONFIG i) 10 0 = 0 ∧
    (s.ltile l).rd Reg.EV_CFG = 8 ∧ (s.ltile l).rd (Reg.S_REG i 0) = 0) ∧
  (∀ p ∈ [(Reg.HB_ID, 0x5D647EA1#32), (Reg.HB_CONTROL, 0x100#32), (Reg.WIN_CTRL, 0x2#32), (Reg.CLAP_CTRL, 0x7F000010#32), (Reg.NV_PROTECT, 0x1#32),
      (Reg.PWR_CTRL, 0x12#32), (Reg.PWR_STATUS, 0x2#32), (Reg.POWER_CAP, 2500#32), (Reg.FE_CTRL, 0x1#32), (Reg.CU_CONFIG, 0x00085050#32),
      (Reg.NET_STATUS, 0x1#32), (Reg.PWR_CFG, 0x1C#32), (Reg.PWR_ACT, 0x3000#32), (Reg.DROOP_CFG, 0x40#32), (Reg.LINK_ID, 0x23#32),
      (Reg.ROUTE_CFG, 100#32), (Reg.PEAL_CFG, 0x0007D031#32), (Reg.PEAL_ROWS, 0xFFFF#32), (Reg.SCRUB_CFG, 0x00080031#32), (Reg.RET_CFG, 20#32),
      (Reg.POOL_CFG, 0x10#32)], s.rd p.1 = p.2) ∧
  (∀ g < 4, s.rd (Reg.FE_CLK g) = 0x2850 ∧ s.rd (Reg.PREROLL_CFG g) = 0x00F00082) ∧ (∀ c < 64, s.rd (Reg.ALIGN c) = 0x4000 ∧ s.rd (Reg.CH_CFG0 c) = 7) ∧
  (∀ f < 8, s.rd (Reg.FINE_CFG0 f) = 0x700) ∧ (∀ p < 8, s.rd (Reg.LINK_CFG p) = 0x16) ∧ ∀ l < 256, s.rd (Reg.TILE_F l) = 0x000FA000

/-- The state after reset is sound: the memories, the registers and the tiles are in canonical form. -/
def Obligations.ResetSound : Prop := State.reset.sound

/-- Whatever the state, a step answers a next state; from a sound state that state is sound, and from every state the fuse bits programmed before are
programmed after it and of the queue only its front is gone. -/
def Obligations.StepKeepsSound : Prop :=
  ∀ (s : State), ∃ t, step s = .next t ∧ (s.sound → t.sound) ∧ s.fusesKept t ∧ t.pending = s.pending.tail
end

