-- ==== Sys2Proof/Laws/Bits.lean ====
section
/-! SUPPORT. Bits and fields of register words after a write of a bit or of a field. -/

namespace Sys2Proof.Machine

/-- Each bit of a word whose field [hi:lo] is replaced. -/
theorem getLsbD_wSetFld (w : Word) (hi lo v i : Nat) (hl : lo ≤ hi) :
    (wSetFld w hi lo v).getLsbD i =
      if lo ≤ i ∧ i ≤ hi ∧ i < 32 then v.testBit (i - lo) else w.getLsbD i := by
  unfold wSetFld
  simp only [BitVec.getLsbD_or, BitVec.getLsbD_and, BitVec.getLsbD_not, BitVec.getLsbD_ofNat, Nat.testBit_shiftLeft,
    Nat.testBit_two_pow_sub_one, Nat.testBit_mod_two_pow]
  by_cases h32 : i < 32
  · by_cases h1 : lo ≤ i
    · by_cases h2 : i ≤ hi
      · have : i - lo < hi + 1 - lo := by omega
        simp [h32, h1, h2, this]
      · have : ¬ i - lo < hi + 1 - lo := by omega
        simp [h32, h1, h2, this]
    · simp [h32, h1]
  · have := BitVec.getLsbD_of_ge w i (by omega)
    simp [h32, this]

/-- Each bit of a word one bit of which is replaced. -/
theorem getLsbD_wSetBit (w : Word) (n : Nat) (b : Bool) (i : Nat) :
    (wSetBit w n b).getLsbD i = if i = n ∧ n < 32 then b else w.getLsbD i := by
  unfold wSetBit
  rw [getLsbD_wSetFld _ _ _ _ _ (le_refl n)]
  by_cases h : i = n
  · subst h
    by_cases h32 : i < 32
    · cases b <;> simp [h32]
    · simp [h32]
  · have : ¬ (n ≤ i ∧ i ≤ n ∧ i < 32) := by omega
    rw [if_neg this, if_neg (by simp [h])]

theorem wbit_wSetBit (w : Word) (n : Nat) (b : Bool) (i : Nat) : wbit (wSetBit w n b) i = if i = n ∧ n < 32 then b else wbit w i :=
  getLsbD_wSetBit w n b i

@[simp] theorem wbit_wSetBit_same (w : Word) (n : Nat) (b : Bool) (h : n < 32) : wbit (wSetBit w n b) n = b := by
  rw [wbit_wSetBit, if_pos ⟨rfl, h⟩]

theorem wbit_wSetBit_ne (w : Word) (n : Nat) (b : Bool) (i : Nat) (h : i ≠ n) : wbit (wSetBit w n b) i = wbit w i := by
  rw [wbit_wSetBit, if_neg (by simp [h])]

/-- A bit outside a field stays when the field is replaced. -/
theorem wbit_wSetFld_ne (w : Word) (hi lo v i : Nat) (hl : lo ≤ hi) (h : i < lo ∨ hi < i) : wbit (wSetFld w hi lo v) i = wbit w i := by
  unfold wbit
  rw [getLsbD_wSetFld _ _ _ _ _ hl, if_neg (by omega)]

/-- Each bit of a field. -/
theorem testBit_wfld (w : Word) (hi lo i : Nat) : (wfld w hi lo).testBit i = (decide (i < hi + 1 - lo) && w.getLsbD (lo + i)) := by
  unfold wfld
  rw [Nat.testBit_mod_two_pow, Nat.testBit_shiftRight]
  rfl

/-- A field reads as what was written into it. -/
theorem wfld_wSetFld_same (w : Word) (hi lo v : Nat) (hl : lo ≤ hi) (h : hi < 32) : wfld (wSetFld w hi lo v) hi lo = v % 2 ^ (hi + 1 - lo) := by
  apply Nat.eq_of_testBit_eq
  intro i
  rw [testBit_wfld, getLsbD_wSetFld _ _ _ _ _ hl, Nat.testBit_mod_two_pow]
  by_cases hi' : i < hi + 1 - lo
  · rw [if_pos (by omega)]; simp
  · simp [hi']

/-- A field apart from the one replaced stays. -/
theorem wfld_wSetFld_ne (w : Word) (hi lo v hi' lo' : Nat) (hl : lo ≤ hi) (h : hi' < lo ∨ hi < lo') :
    wfld (wSetFld w hi lo v) hi' lo' = wfld w hi' lo' := by
  apply Nat.eq_of_testBit_eq
  intro i
  rw [testBit_wfld, testBit_wfld, getLsbD_wSetFld _ _ _ _ _ hl]
  by_cases hi' : i < hi' + 1 - lo'
  · rw [if_neg (by omega)]
  · simp [hi']

/-- A field apart from the bit replaced stays. -/
theorem wfld_wSetBit_ne (w : Word) (n : Nat) (b : Bool) (hi lo : Nat) (h : hi < n ∨ n < lo) : wfld (wSetBit w n b) hi lo = wfld w hi lo :=
  wfld_wSetFld_ne _ _ _ _ _ _ (le_refl n) (by omega)

theorem wfld_lt (w : Word) (hi lo : Nat) : wfld w hi lo < 2 ^ (hi + 1 - lo) := Nat.mod_lt _ (Nat.two_pow_pos _)

/-- A bit that is set stays set when a bit is set. -/
theorem wSetBit_true_mono (w : Word) (n i : Nat) (h : w.getLsbD i = true) : (wSetBit w n true).getLsbD i = true := by
  rw [getLsbD_wSetBit]
  split
  · rfl
  · exact h

/-- A fuse bit that is programmed stays programmed when the next of its field is. -/
theorem fuseNext_mono (w : Word) (lo i : Nat) (h : w.getLsbD i = true) : (fuseNext w lo).getLsbD i = true := by
  unfold fuseNext
  split
  · exact wSetBit_true_mono _ _ _ h
  · exact h

end Sys2Proof.Machine
end

