-- ==== Sys2Proof/Laws/Crypto.lean ====
section
/-! SUPPORT. Lengths in AES-256-GCM, and that what is sealed opens: decrypting inverts encrypting, and the tag of a sealed record verifies. -/

namespace Sys2Proof.Machine

/-! ### Lengths -/

theorem xorBytes_length (a b : List Byte) : (xorBytes a b).length = min a.length b.length := by simp [xorBytes]

theorem toBytes_length (n v : Nat) : (toBytes n v).length = n := by
  induction n generalizing v with
  | zero => rfl
  | succ n ih => simp [toBytes, ih]

theorem aesKeys_length (tab : List Byte) (n i : Nat) (c : Byte) (w : List (List Byte)) : (aesKeys tab n i c w).length = n := by
  induction n generalizing i c w with
  | zero => rfl
  | succ n ih => simp only [aesKeys, List.length_cons, ih]

theorem getD_length {w : List (List Byte)} {k i : Nat} (h : ∀ x ∈ w, x.length = k) (hi : i < w.length) : (w.getD i []).length = k := by
  rw [List.getD_eq_getElem _ _ hi]; exact h _ (List.getElem_mem hi)

/-- Every word of the key schedule has four bytes. -/
theorem aesKeys_word (tab : List Byte) (n i : Nat) (c : Byte) (w : List (List Byte)) (hw : ∀ x ∈ w, x.length = 4) (h8 : w.length = 8) :
    ∀ x ∈ aesKeys tab n i c w, x.length = 4 := by
  induction n generalizing i c w with
  | zero => intro x hx; cases hx
  | succ n ih =>
    have h0 := getD_length hw (show 0 < w.length by omega)
    have h7 := getD_length hw (show 7 < w.length by omega)
    intro x hx
    simp only [aesKeys, List.mem_cons] at hx
    have hx0 : ∀ t : List Byte, t.length = 4 → (xorBytes (w.getD 0 []) t).length = 4 := fun t ht => by rw [xorBytes_length, h0, ht]; rfl
    have ht : (if i % 8 = 0 then
          ((((w.getD 7 []).drop 1 ++ (w.getD 7 []).take 1).map (aesS tab)).zipIdx.map (fun p => if p.2 = 0 then p.1 ^^^ c else p.1))
        else if i % 8 = 4 then (w.getD 7 []).map (aesS tab) else w.getD 7 []).length = 4 := by
      split
      · simp only [List.length_map, List.length_zipIdx, List.length_append, List.length_drop, List.length_take, h7]; rfl
      · split <;> simp only [List.length_map, h7]
    rcases hx with rfl | hx
    · exact hx0 _ ht
    · refine ih _ _ _ ?_ ?_ x hx
      · intro y hy
        rcases List.mem_append.1 hy with hy | hy
        · exact hw y (List.mem_of_mem_drop hy)
        · rw [List.mem_singleton.1 hy]; exact hx0 _ ht
      · simp [h8]

theorem flatten_length {l : List (List Byte)} {k : Nat} (h : ∀ x ∈ l, x.length = k) : l.flatten.length = k * l.length := by
  induction l with
  | nil => simp
  | cons a l ih =>
    rw [List.flatten_cons, List.length_append, h a (List.mem_cons_self ..), ih (fun x hx => h x (List.mem_cons_of_mem _ hx)), List.length_cons, Nat.mul_succ]
    omega

/-- The round keys of a key of 32 bytes are 15 blocks. -/
theorem aesRoundKeys_block (tab key : List Byte) (hk : key.length = 32) : ∀ x ∈ aesRoundKeys tab key, x.length = 16 := by
  have w4 : ∀ x ∈ (List.range 8).map (fun i => (key.drop (4 * i)).take 4), x.length = 4 := by
    intro x hx
    obtain ⟨i, hi, rfl⟩ := List.mem_map.1 hx
    rw [List.mem_range] at hi
    simp only [List.length_take, List.length_drop, hk]; omega
  intro x hx
  simp only [aesRoundKeys] at hx
  obtain ⟨r, hr, rfl⟩ := List.mem_map.1 hx
  rw [List.mem_range] at hr
  rw [flatten_length (k := 4)]
  · simp only [List.length_take, List.length_drop, List.length_append, List.length_map, List.length_range, aesKeys_length]; omega
  · intro y hy
    rcases List.mem_append.1 (List.mem_of_mem_drop (List.mem_of_mem_take hy)) with hy | hy
    · exact w4 y hy
    · exact aesKeys_word tab 52 8 1 _ w4 (by simp) y hy

theorem aesRounds_block (tab : List Byte) (ks : List (List Byte)) (b : List Byte) (hk : ∀ x ∈ ks, x.length = 16) (hb : b.length = 16) :
    (aesRounds tab ks b).length = 16 := by
  fun_induction aesRounds tab ks b with
  | case1 b => exact hb
  | case2 k b => rw [xorBytes_length, hk k (List.mem_cons_self ..)]; simp [aesShift]
  | case3 k ks b _ ih =>
    exact ih (fun x hx => hk x (List.mem_cons_of_mem _ hx)) (by rw [xorBytes_length, hk k (List.mem_cons_self ..)]; simp [aesMix])

theorem aesBlock_length (tab key b : List Byte) (hk : key.length = 32) (hb : b.length = 16) : (aesBlock tab (aesRoundKeys tab key) b).length = 16 := by
  have h := aesRoundKeys_block tab key hk
  unfold aesBlock
  split
  · exact hb
  · next k ks e =>
    rw [e] at h
    exact aesRounds_block tab ks _ (fun x hx => h x (List.mem_cons_of_mem _ hx)) (by rw [xorBytes_length, h k (List.mem_cons_self ..), hb]; rfl)

theorem beBytes_length (n v : Nat) : (beBytes n v).length = n := by simp [beBytes, toBytes_length]

theorem gcmStream_length (tab key nonce : List Byte) (hk : key.length = 32) (hn : nonce.length = 12) (n i : Nat) :
    (gcmStream tab (aesRoundKeys tab key) nonce n i).length = 16 * n := by
  induction n generalizing i with
  | zero => rfl
  | succ n ih => rw [gcmStream, List.length_append, aesBlock_length _ _ _ hk (by simp [beBytes_length, hn]), ih]; omega

/-- A tag under a key of 32 bytes has 16 bytes. -/
theorem gcmTag_length (key nonce aad cipher : List Byte) (hk : key.length = 32) (hn : nonce.length = 12) : (gcmTag key nonce aad cipher).length = 16 := by
  simp only [gcmTag]
  rw [xorBytes_length, beBytes_length, aesBlock_length _ _ _ hk (by simp [beBytes_length, hn])]; rfl

/-! ### Sealing and opening -/

theorem xorBytes_xorBytes (a b : List Byte) (h : a.length ≤ b.length) : xorBytes (xorBytes a b) b = a := by
  induction a generalizing b with
  | nil => rfl
  | cons x a ih =>
    cases b with
    | nil => simp at h
    | cons y b =>
      have e : xorBytes (xorBytes (x :: a) (y :: b)) (y :: b) = (x ^^^ y ^^^ y) :: xorBytes (xorBytes a b) b := rfl
      rw [e, ih b (by simpa using h), BitVec.xor_assoc, BitVec.xor_self, BitVec.xor_zero]

theorem gcmCrypt_length (key nonce bs : List Byte) (o : Nat) (hk : key.length = 32) (hn : nonce.length = 12) : (gcmCrypt key nonce o bs).length = bs.length := by
  rw [gcmCrypt, xorBytes_length, gcmStream_length _ _ _ hk hn]; omega

/-- Decrypting inverts encrypting. -/
theorem gcmCrypt_gcmCrypt (key nonce bs : List Byte) (o : Nat) (hk : key.length = 32) (hn : nonce.length = 12) :
    gcmCrypt key nonce o (gcmCrypt key nonce o bs) = bs := by
  have hl := gcmCrypt_length key nonce bs o hk hn
  conv_lhs => rw [gcmCrypt]
  rw [hl, gcmCrypt, xorBytes_xorBytes]
  rw [gcmStream_length _ _ _ hk hn]; omega

/-- A record that was sealed opens under the same key, with the row's body (R302). -/
theorem openRecord_sealRecord (key nonce row : List Byte) (format group seq : Nat) (hk : key.length = 32) (hn : nonce.length = 12) (hr : row.length = 1024) :
    openRecord key (sealRecord key nonce row format group seq) = some ((row.drop 8).take 16 ++ row.drop 64) := by
  let h := row.take 4 ++ toBytes 2 group ++ toBytes 2 format ++ toBytes 4 seq ++ toBytes 4 0
  let p := (row.drop 8).take 16 ++ row.drop 64
  have hh : h.length = 16 := by simp [h, toBytes_length, hr]
  have hp : p.length = 976 := by simp [p, hr]
  have hc : (gcmCrypt key nonce 0 p).length = 976 := by rw [gcmCrypt_length _ _ _ _ hk hn, hp]
  have e : sealRecord key nonce row format group seq = h ++ (nonce ++ (toBytes 4 0 ++ (gcmCrypt key nonce 0 p ++ gcmTag key nonce h (gcmCrypt key nonce 0 p)))) := by
    simp only [sealRecord, gcmSeal, List.append_assoc, h, p]
  have t16 : (gcmTag key nonce h (gcmCrypt key nonce 0 p)).length ≤ 16 := by
    simp only [gcmTag]; rw [xorBytes_length, beBytes_length]; exact Nat.min_le_left _ _
  rw [e, openRecord]
  have d1 : ((h ++ (nonce ++ (toBytes 4 0 ++ (gcmCrypt key nonce 0 p ++ gcmTag key nonce h (gcmCrypt key nonce 0 p))))).drop 16).take 12 = nonce := by
    rw [List.drop_append_of_le_length (by omega), List.drop_of_length_le (by omega), List.nil_append, List.take_append_of_le_length (by omega),
      List.take_of_length_le (by omega)]
  have d2 : (h ++ (nonce ++ (toBytes 4 0 ++ (gcmCrypt key nonce 0 p ++ gcmTag key nonce h (gcmCrypt key nonce 0 p))))).take 16 = h := by
    rw [List.take_append_of_le_length (by omega), List.take_of_length_le (by omega)]
  have split32 : h ++ (nonce ++ (toBytes 4 0 ++ (gcmCrypt key nonce 0 p ++ gcmTag key nonce h (gcmCrypt key nonce 0 p)))) =
      (h ++ nonce ++ toBytes 4 0) ++ (gcmCrypt key nonce 0 p ++ gcmTag key nonce h (gcmCrypt key nonce 0 p)) := by simp only [List.append_assoc]
  have l32 : (h ++ nonce ++ toBytes 4 0).length = 32 := by simp only [List.length_append, hh, hn, toBytes_length]
  have d3 : ((h ++ (nonce ++ (toBytes 4 0 ++ (gcmCrypt key nonce 0 p ++ gcmTag key nonce h (gcmCrypt key nonce 0 p))))).drop 32).take 976 =
      gcmCrypt key nonce 0 p := by
    rw [split32, List.drop_append_of_le_length (by omega), List.drop_of_length_le (by omega), List.nil_append, List.take_append_of_le_length (by omega),
      List.take_of_length_le (by omega)]
  have split1008 : (h ++ nonce ++ toBytes 4 0) ++ (gcmCrypt key nonce 0 p ++ gcmTag key nonce h (gcmCrypt key nonce 0 p)) =
      ((h ++ nonce ++ toBytes 4 0) ++ gcmCrypt key nonce 0 p) ++ gcmTag key nonce h (gcmCrypt key nonce 0 p) := by simp only [List.append_assoc]
  have l1008 : ((h ++ nonce ++ toBytes 4 0) ++ gcmCrypt key nonce 0 p).length = 1008 := by rw [List.length_append, l32, hc]
  have d4 : ((h ++ (nonce ++ (toBytes 4 0 ++ (gcmCrypt key nonce 0 p ++ gcmTag key nonce h (gcmCrypt key nonce 0 p))))).drop 1008).take 16 =
      gcmTag key nonce h (gcmCrypt key nonce 0 p) := by
    rw [split32, split1008, List.drop_append_of_le_length (by omega), List.drop_of_length_le (by omega), List.nil_append, List.take_of_length_le t16]
  rw [d1, d2, d3, d4, gcmOpen, if_pos rfl, gcmCrypt_gcmCrypt _ _ _ _ hk hn]

end Sys2Proof.Machine
end

