-- ==== Sys2Proof/Laws/Sparse.lean ====
section
/-! SUPPORT. Sparse maps: a read after a write, and the canonical form that every operation over them keeps. -/

namespace Sys2Proof.Machine

/-- Dropping keys up to k changes no read above k. -/
theorem spGet_dropWhile {α : Type} (d : Nat → α) (m : Sparse α) (k j : Nat) (h : k < j) :
    spGet d (m.dropWhile (fun e => e.1 ≤ k)) j = spGet d m j := by
  induction m with
  | nil => rfl
  | cons e r ih =>
    by_cases hk : e.1 ≤ k
    · rw [List.dropWhile_cons_of_pos (by simpa using hk), ih]
      simp only [spGet]
      rw [if_neg (by omega), if_neg (by omega)]
    · rw [List.dropWhile_cons_of_neg (by simpa using hk)]

/-- Once the keys up to k are dropped, a key up to k reads as the default. -/
theorem spGet_dropWhile_le {α : Type} (d : Nat → α) (m : Sparse α) (k j : Nat) (h : j ≤ k) :
    spGet d (m.dropWhile (fun e => e.1 ≤ k)) j = d j := by
  induction m with
  | nil => rfl
  | cons e r ih =>
    by_cases hk : e.1 ≤ k
    · rw [List.dropWhile_cons_of_pos (by simpa using hk), ih]
    · rw [List.dropWhile_cons_of_neg (by simpa using hk)]
      simp only [spGet]
      rw [if_neg (by omega), if_pos (by omega)]

/-- A read after a write: the value written at its key, what stood before at every other. -/
theorem spGet_spSet {α : Type} [DecidableEq α] (d : Nat → α) (m : Sparse α) (k : Nat) (v : α) (j : Nat) :
    spGet d (spSet d m k v) j = if j = k then v else spGet d m j := by
  induction m with
  | nil =>
    simp only [spSet]
    by_cases hv : v = d k <;> by_cases hj : j = k <;> simp_all [spGet]
  | cons e r ih =>
    obtain ⟨a, w⟩ := e
    simp only [spSet]
    by_cases ha : k = a
    · subst ha
      rw [if_pos rfl]
      by_cases hv : v = d k
      · rw [if_pos hv]
        rcases Nat.lt_trichotomy j k with h | h | h
        · rw [spGet_dropWhile_le _ _ _ _ (by omega)]; simp only [spGet]; rw [if_neg (by omega), if_neg (by omega), if_pos h]
        · subst h; rw [spGet_dropWhile_le _ _ _ _ (by omega)]; simp [hv]
        · rw [spGet_dropWhile _ _ _ _ h]; simp only [spGet]; rw [if_neg (by omega), if_neg (by omega), if_neg (by omega)]
      · rw [if_neg hv]
        simp only [spGet]
        by_cases hj : j = k <;> simp [hj]
    · rw [if_neg ha]
      by_cases hl : k < a
      · rw [if_pos hl]
        by_cases hv : v = d k
        · rw [if_pos hv]
          by_cases hj : j = k
          · subst hj; simp only [spGet]; rw [if_neg ha, if_pos hl, if_pos trivial, hv]
          · rw [if_neg hj]
        · rw [if_neg hv]
          by_cases hj : j = k
          · subst hj; simp [spGet]
          · rw [if_neg hj]
            by_cases h : j < k
            · simp only [spGet]; rw [if_neg hj, if_pos h, if_neg (by omega), if_pos (by omega)]
            · conv_lhs => unfold spGet
              rw [if_neg hj, if_neg h]
      · rw [if_neg hl]
        simp only [spGet]
        by_cases h1 : j = a
        · rw [if_pos h1, if_pos h1, if_neg (by omega)]
        · rw [if_neg h1, if_neg h1]
          by_cases h2 : j < a
          · rw [if_pos h2, if_pos h2, if_neg (by omega)]
          · rw [if_neg h2, if_neg h2, ih]

@[simp] theorem spGet_spSet_same {α : Type} [DecidableEq α] (d : Nat → α) (m : Sparse α) (k : Nat) (v : α) :
    spGet d (spSet d m k v) k = v := by rw [spGet_spSet, if_pos rfl]

theorem spGet_spSet_ne {α : Type} [DecidableEq α] (d : Nat → α) (m : Sparse α) (k : Nat) (v : α) (j : Nat) (h : j ≠ k) :
    spGet d (spSet d m k v) j = spGet d m j := by rw [spGet_spSet, if_neg h]

@[simp] theorem spGet_nil {α : Type} (d : Nat → α) (k : Nat) : spGet d [] k = d k := rfl

/-! ### The canonical form -/

/-- The canonical form, said with the order of the keys. -/
theorem spWf_iff {α : Type} [DecidableEq α] (d : Nat → α) (m : Sparse α) :
    spWf d m = true ↔ (m.map (·.1)).Pairwise (· < ·) ∧ ∀ e ∈ m, e.2 ≠ d e.1 := by
  induction m with
  | nil => simp [spWf]
  | cons e r ih =>
    obtain ⟨a, w⟩ := e
    cases r with
    | nil => simp [spWf]
    | cons e' r' =>
      obtain ⟨b, v⟩ := e'
      simp only [spWf, Bool.and_eq_true, decide_eq_true_eq, ih, List.map_cons, List.pairwise_cons, List.mem_cons, List.mem_map]
      constructor
      · rintro ⟨⟨h1, h2⟩, ⟨h3, h4⟩, h5⟩
        refine ⟨⟨?_, h3, h4⟩, ?_⟩
        · rintro x (rfl | ⟨y, hy, rfl⟩)
          · exact h2
          · exact lt_trans h2 (h3 _ ⟨y, hy, rfl⟩)
        · rintro x (rfl | h)
          · exact h1
          · exact h5 _ h
      · rintro ⟨⟨h1, h3, h4⟩, h5⟩
        exact ⟨⟨h5 _ (.inl rfl), h1 _ (.inl rfl)⟩, ⟨h3, h4⟩, fun e he => h5 e (.inr he)⟩

/-- A part of a map in canonical form is in canonical form. -/
theorem spWf_sublist {α : Type} [DecidableEq α] (d : Nat → α) {m n : Sparse α} (h : n.Sublist m) (w : spWf d m = true) : spWf d n = true := by
  rw [spWf_iff] at *
  exact ⟨w.1.sublist (h.map _), fun e he => w.2 e (h.subset he)⟩

/-- The canonical form of a map whose first key is a. -/
theorem spWf_cons {α : Type} [DecidableEq α] (d : Nat → α) (a : Nat) (w : α) (r : Sparse α) :
    spWf d ((a, w) :: r) = true ↔ w ≠ d a ∧ (∀ e ∈ r, a < e.1) ∧ spWf d r = true := by
  simp only [spWf_iff, List.map_cons, List.pairwise_cons, List.mem_map, List.mem_cons]
  constructor
  · rintro ⟨⟨h1, h2⟩, h3⟩
    exact ⟨h3 _ (.inl rfl), fun e he => h1 _ ⟨e, he, rfl⟩, h2, fun e he => h3 e (.inr he)⟩
  · rintro ⟨h1, h2, h3, h4⟩
    refine ⟨⟨?_, h3⟩, ?_⟩
    · rintro _ ⟨e, he, rfl⟩; exact h2 e he
    · rintro e (rfl | he)
      · exact h1
      · exact h4 e he

/-- The keys of a map after a write are its keys before and the one written. -/
theorem mem_spSet {α : Type} [DecidableEq α] (d : Nat → α) (m : Sparse α) (k : Nat) (v : α) (e : Nat × α) (h : e ∈ spSet d m k v) :
    e ∈ m ∨ e = (k, v) := by
  induction m with
  | nil =>
    simp only [spSet] at h
    split at h <;> simp_all
  | cons x r ih =>
    obtain ⟨a, w⟩ := x
    simp only [spSet] at h
    split at h
    · split at h
      · exact .inl (List.mem_cons_of_mem _ ((List.dropWhile_sublist _).subset h))
      · rcases List.mem_cons.1 h with h | h
        · exact .inr h
        · exact .inl (List.mem_cons_of_mem _ h)
    · split at h
      · split at h
        · exact .inl h
        · rcases List.mem_cons.1 h with h | h
          · exact .inr h
          · exact .inl h
      · rcases List.mem_cons.1 h with h | h
        · exact .inl (h ▸ List.mem_cons_self)
        · rcases ih h with h | h
          · exact .inl (List.mem_cons_of_mem _ h)
          · exact .inr h

/-- A write keeps the canonical form. -/
theorem spWf_spSet {α : Type} [DecidableEq α] (d : Nat → α) (m : Sparse α) (k : Nat) (v : α) (h : spWf d m = true) :
    spWf d (spSet d m k v) = true := by
  induction m with
  | nil =>
    simp only [spSet]
    split
    · rfl
    · simpa [spWf] using ‹¬ v = d k›
  | cons x r ih =>
    obtain ⟨a, w⟩ := x
    obtain ⟨h1, h2, h3⟩ := (spWf_cons d a w r).1 h
    simp only [spSet]
    split
    · split
      · exact spWf_sublist d (List.dropWhile_sublist _) h3
      · rename_i hk hv
        exact (spWf_cons d k v r).2 ⟨hv, fun e he => hk ▸ h2 e he, h3⟩
    · split
      · split
        · exact h
        · rename_i hk hl hv
          refine (spWf_cons d k v _).2 ⟨hv, ?_, h⟩
          intro e he
          rcases List.mem_cons.1 he with rfl | he
          · exact hl
          · exact lt_trans hl (h2 e he)
      · rename_i hk hl
        refine (spWf_cons d a w _).2 ⟨h1, ?_, ih h3⟩
        intro e he
        rcases mem_spSet d r k v e he with he | rfl
        · exact h2 e he
        · simp only; omega

/-- A filter keeps the canonical form. -/
theorem spWf_filter {α : Type} [DecidableEq α] (d : Nat → α) (m : Sparse α) (p : Nat × α → Bool) (h : spWf d m = true) :
    spWf d (m.filter p) = true := spWf_sublist d List.filter_sublist h

/-- Two maps in canonical form that read alike everywhere are equal: equal contents are equal data. -/
theorem spWf_ext {α : Type} [DecidableEq α] (d : Nat → α) (m n : Sparse α) (hm : spWf d m = true) (hn : spWf d n = true)
    (h : ∀ k, spGet d m k = spGet d n k) : m = n := by
  induction m generalizing n with
  | nil =>
    cases n with
    | nil => rfl
    | cons e r =>
      obtain ⟨a, w⟩ := e
      have := h a
      simp only [spGet, if_true] at this
      exact absurd this.symm ((spWf_cons d a w r).1 hn).1
  | cons e r ih =>
    obtain ⟨a, w⟩ := e
    obtain ⟨h1, h2, h3⟩ := (spWf_cons d a w r).1 hm
    cases n with
    | nil =>
      have := h a
      simp only [spGet, if_true] at this
      exact absurd this h1
    | cons e' r' =>
      obtain ⟨b, v⟩ := e'
      obtain ⟨g1, g2, g3⟩ := (spWf_cons d b v r').1 hn
      have low : ∀ (q : Sparse α) (x : Nat), (∀ e ∈ q, x < e.1) → spGet d q x = d x := by
        intro q x hq
        cases q with
        | nil => rfl
        | cons e q =>
          obtain ⟨y, z⟩ := e
          have := hq (y, z) List.mem_cons_self
          simp only at this
          simp only [spGet]; rw [if_neg (by omega), if_pos this]
      rcases Nat.lt_trichotomy a b with hab | hab | hab
      · have := h a
        simp only [spGet, if_true] at this
        rw [if_neg (by omega), if_pos hab] at this
        exact absurd this h1
      · subst hab
        have hv : w = v := by simpa [spGet] using h a
        subst hv
        congr 1
        refine ih r' h3 g3 fun k => ?_
        have := h k
        simp only [spGet] at this
        by_cases hk : k = a
        · subst hk; rw [low r k h2, low r' k g2]
        · rw [if_neg hk, if_neg hk] at this
          by_cases hl : k < a
          · rw [low r k (fun e he => lt_trans hl (h2 e he)), low r' k (fun e he => lt_trans hl (g2 e he))]
          · rw [if_neg hl, if_neg hl] at this; exact this
      · have := h b
        simp only [spGet, if_true] at this
        rw [if_neg (by omega), if_pos hab] at this
        exact absurd this.symm g1

end Sys2Proof.Machine
end

