-- ==== Sys2Proof/Laws/Memory.lean ====
section
/-! SUPPORT. Memory: every operation keeps the canonical form, and what a store leaves at every address. -/

namespace Sys2Proof.Machine

/-! ### The canonical form -/

theorem Memory.wf_iff (m : Memory) : m.wf = true ↔
    spWf (fun _ => (0 : Byte)) m.sram = true ∧ spWf (fun _ => (0 : Byte)) m.clay = true ∧
    spWf (fun _ => false) m.sramWr = true ∧ spWf (fun _ => false) m.clayWr = true ∧
    spWf (fun _ => false) m.sramPo = true ∧ spWf (fun _ => false) m.clayPo = true ∧
    spWf (fun _ => (0 : Nat)) m.sramErr = true ∧ spWf (fun _ => (0 : Nat)) m.clayErr = true := by
  simp only [Memory.wf, Bool.and_eq_true, and_assoc]

theorem Memory.reset_wf : Memory.reset.wf = true := rfl

theorem Memory.setByte_wf (m : Memory) (c : Bool) (k : Nat) (b : Byte) (h : m.wf = true) : (m.setByte c k b).wf = true := by
  rw [Memory.wf_iff] at *
  cases c <;> simp only [Memory.setByte, if_true, if_false, Bool.false_eq_true]
  · exact ⟨spWf_spSet _ _ _ _ h.1, h.2⟩
  · exact ⟨h.1, spWf_spSet _ _ _ _ h.2.1, h.2.2⟩

theorem Memory.setWritten_wf (m : Memory) (c : Bool) (k : Nat) (b : Bool) (h : m.wf = true) : (m.setWritten c k b).wf = true := by
  rw [Memory.wf_iff] at *
  obtain ⟨h1, h2, h3, h4, h5⟩ := h
  cases c <;> simp only [Memory.setWritten, if_true, if_false, Bool.false_eq_true]
  · exact ⟨h1, h2, spWf_spSet _ _ _ _ h3, h4, h5⟩
  · exact ⟨h1, h2, h3, spWf_spSet _ _ _ _ h4, h5⟩

theorem Memory.setPoison_wf (m : Memory) (c : Bool) (k : Nat) (b : Bool) (h : m.wf = true) : (m.setPoison c k b).wf = true := by
  rw [Memory.wf_iff] at *
  obtain ⟨h1, h2, h3, h4, h5, h6, h7⟩ := h
  cases c <;> simp only [Memory.setPoison, if_true, if_false, Bool.false_eq_true]
  · exact ⟨h1, h2, h3, h4, spWf_spSet _ _ _ _ h5, h6, h7⟩
  · exact ⟨h1, h2, h3, h4, h5, spWf_spSet _ _ _ _ h6, h7⟩

theorem Memory.setErr_wf (m : Memory) (c : Bool) (k e : Nat) (h : m.wf = true) : (m.setErr c k e).wf = true := by
  rw [Memory.wf_iff] at *
  obtain ⟨h1, h2, h3, h4, h5, h6, h7, h8⟩ := h
  cases c <;> simp only [Memory.setErr, if_true, if_false, Bool.false_eq_true]
  · exact ⟨h1, h2, h3, h4, h5, h6, spWf_spSet _ _ _ _ h7, h8⟩
  · exact ⟨h1, h2, h3, h4, h5, h6, h7, spWf_spSet _ _ _ _ h8⟩

/-- A property that each turn of a fold keeps holds at its end. -/
theorem foldl_keeps {α β : Type} (P : α → Prop) (f : α → β → α) (l : List β) (a : α) (h : P a) (hf : ∀ a b, P a → P (f a b)) :
    P (l.foldl f a) := by
  induction l generalizing a with
  | nil => exact h
  | cons b r ih => exact ih _ (hf _ _ h)

theorem Memory.blankLine_wf (m : Memory) (c : Bool) (ln : Nat) (h : m.wf = true) : (m.blankLine c ln).wf = true :=
  foldl_keeps (fun m : Memory => m.wf = true) _ _ _
    (foldl_keeps (fun m : Memory => m.wf = true) _ _ _ h fun _ _ h => Memory.setByte_wf _ _ _ _ h) fun _ _ h => Memory.setErr_wf _ _ _ _ h

theorem Memory.store_wf (m : Memory) (c : Bool) (k : Nat) (bs : List Byte) (h : m.wf = true) : (m.store c k bs).wf = true := by
  unfold Memory.store
  refine foldl_keeps (fun m : Memory => m.wf = true) _ _ _ ?_ fun _ _ h => Memory.setByte_wf _ _ _ _ h
  refine foldl_keeps (fun m : Memory => m.wf = true) _ _ _ ?_ fun m w h => ?_
  · refine foldl_keeps (fun m : Memory => m.wf = true) _ _ _ ?_ fun m w h => ?_
    · refine foldl_keeps (fun m : Memory => m.wf = true) _ _ _ h fun m w h => ?_
      split
      · exact h
      · exact Memory.setWritten_wf _ _ _ _ (Memory.blankLine_wf _ _ _ h)
    · 
      split
      · exact Memory.setPoison_wf _ _ _ _ h
      · exact h
  · 
    split
    · exact Memory.setErr_wf _ _ _ _ h
    · exact h

theorem Memory.clearTile_wf (m : Memory) (c : Bool) (p : Nat) (h : m.wf = true) : (m.clearTile c p).wf = true := by
  rw [Memory.wf_iff] at *
  obtain ⟨h1, h2, h3, h4, h5, h6, h7, h8⟩ := h
  cases c <;> simp only [Memory.clearTile, if_true, if_false, Bool.false_eq_true]
  · exact ⟨spWf_filter _ _ _ h1, h2, spWf_filter _ _ _ h3, h4, spWf_filter _ _ _ h5, h6, spWf_filter _ _ _ h7, h8⟩
  · exact ⟨h1, spWf_filter _ _ _ h2, h3, spWf_filter _ _ _ h4, h5, spWf_filter _ _ _ h6, h7, spWf_filter _ _ _ h8⟩

theorem spSetAll_wf {α : Type} [DecidableEq α] (d : Nat → α) (m : Sparse α) (kvs : List (Nat × α)) (h : spWf d m = true) :
    spWf d (spSetAll d m kvs) = true :=
  foldl_keeps (fun m => spWf d m = true) _ _ _ h fun _ _ h => spWf_spSet _ _ _ _ h

theorem spMove_wf {α : Type} [DecidableEq α] (d : Nat → α) (m : Sparse α) (lo new n : Nat) (h : spWf d m = true) :
    spWf d (spMove d m lo new n) = true := spSetAll_wf _ _ _ (spWf_filter _ _ _ h)

theorem spCopy_wf {α : Type} [DecidableEq α] (d : Nat → α) (src m : Sparse α) (lo new n : Nat) (ok : Nat → Bool)
    (h : spWf d m = true) : spWf d (spCopy d src m lo new n ok) = true := spSetAll_wf _ _ _ (spWf_filter _ _ _ h)

theorem Memory.copyTile_wf (m : Memory) (a b : Nat) (h : m.wf = true) : (m.copyTile a b).wf = true := by
  rw [Memory.wf_iff] at *
  obtain ⟨h1, h2, h3, h4, h5, h6, h7, h8⟩ := h
  exact ⟨spMove_wf _ _ _ _ _ h1, spMove_wf _ _ _ _ _ h2, spMove_wf _ _ _ _ _ h3, spMove_wf _ _ _ _ _ h4,
    spMove_wf _ _ _ _ _ h5, spMove_wf _ _ _ _ _ h6, spMove_wf _ _ _ _ _ h7, spMove_wf _ _ _ _ _ h8⟩

theorem Memory.toShadow_wf (m : Memory) (p o : Nat) (ok : Nat → Bool) (h : m.wf = true) : (m.toShadow p o ok).wf = true := by
  rw [Memory.wf_iff] at *
  obtain ⟨h1, h2, h3, h4, h5, h6, h7, h8⟩ := h
  exact ⟨h1, spCopy_wf _ _ _ _ _ _ _ h2, h3, spCopy_wf _ _ _ _ _ _ _ h4, h5, spCopy_wf _ _ _ _ _ _ _ h6, h7, spCopy_wf _ _ _ _ _ _ _ h8⟩

theorem Memory.fromShadow_wf (m : Memory) (p o : Nat) (ok : Nat → Bool) (h : m.wf = true) : (m.fromShadow p o ok).wf = true := by
  rw [Memory.wf_iff] at *
  obtain ⟨h1, h2, h3, h4, h5, h6, h7, h8⟩ := h
  exact ⟨spCopy_wf _ _ _ _ _ _ _ h1, h2, spCopy_wf _ _ _ _ _ _ _ h3, h4, spCopy_wf _ _ _ _ _ _ _ h5, h6, spCopy_wf _ _ _ _ _ _ _ h7, h8⟩

/-! ### Reads after writes -/

theorem Memory.byte_setByte (m : Memory) (c : Bool) (k : Nat) (b : Byte) (c' : Bool) (j : Nat) :
    (m.setByte c k b).byte c' j = if c' = c ∧ j = k then b else m.byte c' j := by
  cases c <;> cases c' <;> simp [Memory.setByte, Memory.byte, spGet_spSet]

@[simp] theorem Memory.byte_setErr (m : Memory) (c : Bool) (k e : Nat) (c' : Bool) (j : Nat) : (m.setErr c k e).byte c' j = m.byte c' j := by
  cases c <;> cases c' <;> rfl

@[simp] theorem Memory.byte_setWritten (m : Memory) (c : Bool) (k : Nat) (b c' : Bool) (j : Nat) : (m.setWritten c k b).byte c' j = m.byte c' j := by
  cases c <;> cases c' <;> rfl

@[simp] theorem Memory.byte_setPoison (m : Memory) (c : Bool) (k : Nat) (b c' : Bool) (j : Nat) : (m.setPoison c k b).byte c' j = m.byte c' j := by
  cases c <;> cases c' <;> rfl

theorem Memory.written_setWritten (m : Memory) (c : Bool) (k : Nat) (b c' : Bool) (j : Nat) :
    (m.setWritten c k b).written c' j = if c' = c ∧ j = k then b else m.written c' j := by
  cases c <;> cases c' <;> simp [Memory.setWritten, Memory.written, spGet_spSet]

@[simp] theorem Memory.written_setByte (m : Memory) (c : Bool) (k : Nat) (b : Byte) (c' : Bool) (j : Nat) :
    (m.setByte c k b).written c' j = m.written c' j := by cases c <;> cases c' <;> rfl

@[simp] theorem Memory.written_setErr (m : Memory) (c : Bool) (k e : Nat) (c' : Bool) (j : Nat) :
    (m.setErr c k e).written c' j = m.written c' j := by cases c <;> cases c' <;> rfl

@[simp] theorem Memory.written_setPoison (m : Memory) (c : Bool) (k : Nat) (b c' : Bool) (j : Nat) :
    (m.setPoison c k b).written c' j = m.written c' j := by cases c <;> cases c' <;> rfl

theorem Memory.poison_setPoison (m : Memory) (c : Bool) (k : Nat) (b c' : Bool) (j : Nat) :
    (m.setPoison c k b).poison c' j = if c' = c ∧ j = k then b else m.poison c' j := by
  cases c <;> cases c' <;> simp [Memory.setPoison, Memory.poison, spGet_spSet]

@[simp] theorem Memory.poison_setByte (m : Memory) (c : Bool) (k : Nat) (b : Byte) (c' : Bool) (j : Nat) :
    (m.setByte c k b).poison c' j = m.poison c' j := by cases c <;> cases c' <;> rfl

@[simp] theorem Memory.poison_setErr (m : Memory) (c : Bool) (k e : Nat) (c' : Bool) (j : Nat) :
    (m.setErr c k e).poison c' j = m.poison c' j := by cases c <;> cases c' <;> rfl

@[simp] theorem Memory.poison_setWritten (m : Memory) (c : Bool) (k : Nat) (b c' : Bool) (j : Nat) :
    (m.setWritten c k b).poison c' j = m.poison c' j := by cases c <;> cases c' <;> rfl

/-- A reading that no turn of a fold changes is what it was. -/
theorem foldl_same {α β γ : Type} (g : α → γ) (f : α → β → α) (l : List β) (a : α) (hf : ∀ a b, g (f a b) = g a) : g (l.foldl f a) = g a := by
  induction l generalizing a with
  | nil => rfl
  | cons b r ih => exact (ih _).trans (hf _ _)

/-- Zero at the first n keys from k. -/
theorem Memory.byte_zeros (m : Memory) (c : Bool) (k n : Nat) (c' : Bool) (j : Nat) :
    ((List.range n).foldl (fun m i => m.setByte c (k + i) 0) m).byte c' j = if c' = c ∧ k ≤ j ∧ j < k + n then 0 else m.byte c' j := by
  induction n with
  | zero => simp [show ¬ (k ≤ j ∧ j < k) from by omega]
  | succ n ih =>
    rw [List.range_succ, List.foldl_append]
    simp only [List.foldl_cons, List.foldl_nil, Memory.byte_setByte, ih]
    by_cases hc : c' = c
    · subst hc
      by_cases h1 : j = k + n
      · simp [h1]
      · by_cases h2 : k ≤ j ∧ j < k + n
        · rw [if_neg (by simp [h1]), if_pos ⟨rfl, h2⟩, if_pos ⟨rfl, h2.1, by omega⟩]
        · rw [if_neg (by simp [h1]), if_neg (by simpa using h2), if_neg (by simp; omega)]
    · simp [hc]

@[simp] theorem Memory.written_zeros (m : Memory) (c : Bool) (k : Nat) (l : List Nat) (c' : Bool) (j : Nat) :
    (l.foldl (fun m i => m.setByte c (k + i) 0) m).written c' j = m.written c' j :=
  foldl_same (fun m : Memory => m.written c' j) _ _ _ fun _ _ => Memory.written_setByte _ _ _ _ _ _

theorem Memory.byte_blankLine (m : Memory) (c : Bool) (ln : Nat) (c' : Bool) (j : Nat) :
    (m.blankLine c ln).byte c' j = if c' = c ∧ j / 64 = ln then 0 else m.byte c' j := by
  unfold Memory.blankLine
  rw [foldl_same (fun m : Memory => m.byte c' j) _ _ _ fun _ _ => Memory.byte_setErr _ _ _ _ _ _, Memory.byte_zeros]
  have : (64 * ln ≤ j ∧ j < 64 * ln + 64) ↔ j / 64 = ln := by omega
  simp only [this]

@[simp] theorem Memory.written_blankLine (m : Memory) (c : Bool) (ln : Nat) (c' : Bool) (j : Nat) :
    (m.blankLine c ln).written c' j = m.written c' j := by
  unfold Memory.blankLine
  rw [foldl_same (fun m : Memory => m.written c' j) _ _ _ fun _ _ => Memory.written_setErr _ _ _ _ _ _, Memory.written_zeros]

/-- The lines that a range touches. -/
theorem mem_linesOf (k n ln : Nat) : ln ∈ linesOf k n ↔ 0 < n ∧ k / 64 ≤ ln ∧ ln ≤ (k + n - 1) / 64 := by
  unfold linesOf
  split
  · simp_all
  · rename_i h
    simp only [List.mem_map, List.mem_range]
    constructor
    · rintro ⟨i, hi, rfl⟩
      have : k / 64 ≤ (k + n - 1) / 64 := Nat.div_le_div_right (by omega)
      omega
    · rintro ⟨_, h1, h2⟩
      exact ⟨ln - k / 64, by omega, by omega⟩

/-- The first stage of a store: touched lines become written, and those that were not are zero. -/
theorem Memory.open_lines (c : Bool) (ls : List Nat) (m : Memory) :
    let m' := ls.foldl (fun m ln => if m.written c ln then m else (m.blankLine c ln).setWritten c ln true) m
    (∀ c' j, m'.written c' j = (m.written c' j || (c' == c && ls.contains j))) ∧
    (∀ c' j, m'.byte c' j = if c' = c ∧ j / 64 ∈ ls ∧ m.written c (j / 64) = false then 0 else m.byte c' j) := by
  induction ls generalizing m with
  | nil => simp
  | cons a r ih =>
    simp only [List.foldl_cons]
    by_cases ha : m.written c a = true
    · simp only [ha, if_true]
      obtain ⟨h1, h2⟩ := ih m
      refine ⟨fun c' j => ?_, fun c' j => ?_⟩
      · rw [h1]
        by_cases hc : c' = c
        · subst hc
          by_cases hj : j = a
          · subst hj; simp [ha]
          · simp [hj]
        · simp [beq_eq_false_iff_ne.2 hc]
      · rw [h2]
        by_cases hj : j / 64 = a
        · simp [hj, ha]
        · simp [hj]
    · simp only [Bool.not_eq_true] at ha
      simp only [ha, Bool.false_eq_true, if_false]
      obtain ⟨h1, h2⟩ := ih ((m.blankLine c a).setWritten c a true)
      refine ⟨fun c' j => ?_, fun c' j => ?_⟩
      · rw [h1, Memory.written_setWritten, Memory.written_blankLine]
        by_cases hc : c' = c
        · subst hc
          by_cases hj : j = a
          · subst hj; simp
          · simp [hj]
        · simp [beq_eq_false_iff_ne.2 hc, hc]
      · rw [h2, Memory.byte_setWritten, Memory.byte_blankLine, Memory.written_setWritten, Memory.written_blankLine]
        by_cases hc : c' = c
        · subst hc
          by_cases hj : j / 64 = a
          · simp [hj, ha]
          · simp [hj]
        · simp [hc]

/-- The last stage of a store: each byte at its key. -/
theorem Memory.byte_put (m : Memory) (c : Bool) (bs : List Byte) (k i0 : Nat) (c' : Bool) (j : Nat) :
    (((List.range' i0 bs.length).zip bs).foldl (fun m ib => m.setByte c (k + ib.1) ib.2) m).byte c' j =
      if c' = c ∧ k + i0 ≤ j ∧ j < k + i0 + bs.length then bs.getD (j - (k + i0)) 0 else m.byte c' j := by
  induction bs generalizing m i0 with
  | nil => simp [show ¬ (k + i0 ≤ j ∧ j < k + i0) from by omega]
  | cons b r ih =>
    simp only [List.length_cons, List.range'_succ, List.zip_cons_cons, List.foldl_cons]
    rw [ih, Memory.byte_setByte]
    by_cases hc : c' = c
    · subst hc
      rcases Nat.lt_trichotomy j (k + i0) with h | h | h
      · rw [if_neg (by simp; omega), if_neg (by simp; omega), if_neg (by simp; omega)]
      · subst h; rw [if_neg (by simp), if_pos ⟨rfl, rfl⟩, if_pos ⟨rfl, by omega, by omega⟩]; simp
      · by_cases h2 : j < k + i0 + (r.length + 1)
        · rw [if_pos ⟨rfl, by omega, by omega⟩, if_pos ⟨rfl, by omega, by omega⟩,
            show j - (k + i0) = j - (k + (i0 + 1)) + 1 from by omega, List.getD_cons_succ]
        · rw [if_neg (by simp; omega), if_neg (by simp; omega), if_neg (by simp; omega)]
    · simp [hc]

/-- What a store leaves: its bytes at their keys; the rest of a touched line that had never been written is zero; all else as it was (R73). -/
theorem Memory.byte_store (m : Memory) (c : Bool) (k : Nat) (bs : List Byte) (c' : Bool) (j : Nat) :
    (m.store c k bs).byte c' j =
      if c' = c ∧ k ≤ j ∧ j < k + bs.length then bs.getD (j - k) 0
      else if c' = c ∧ j / 64 ∈ linesOf k bs.length ∧ m.written c (j / 64) = false then 0
      else m.byte c' j := by
  unfold Memory.store
  dsimp only
  rw [show List.range bs.length = List.range' 0 bs.length from List.range_eq_range', Memory.byte_put]
  simp only [Nat.add_zero]
  congr 1
  rw [foldl_same (fun m : Memory => m.byte c' j), foldl_same (fun m : Memory => m.byte c' j)]
  · exact (Memory.open_lines c (linesOf k bs.length) m).2 c' j
  · intro a b; split <;> simp
  · intro a b; split <;> simp

/-- The lines that are written after a store. -/
theorem Memory.written_store (m : Memory) (c : Bool) (k : Nat) (bs : List Byte) (c' : Bool) (j : Nat) :
    (m.store c k bs).written c' j = (m.written c' j || (c' == c && (linesOf k bs.length).contains j)) := by
  unfold Memory.store
  dsimp only
  rw [foldl_same (fun m : Memory => m.written c' j), foldl_same (fun m : Memory => m.written c' j), foldl_same (fun m : Memory => m.written c' j)]
  · exact (Memory.open_lines c (linesOf k bs.length) m).1 c' j
  · intro a b; split <;> simp
  · intro a b; split <;> simp
  · intro a b; simp

/-- What a byte reads as: a line that has never been written reads zero. -/
theorem Memory.seen_store (m : Memory) (c : Bool) (k : Nat) (bs : List Byte) (c' : Bool) (j : Nat) :
    (m.store c k bs).seen c' j = if c' = c ∧ k ≤ j ∧ j < k + bs.length then bs.getD (j - k) 0 else m.seen c' j := by
  unfold Memory.seen
  rw [Memory.byte_store, Memory.written_store]
  by_cases hc : c' = c
  · subst hc
    by_cases hl : j / 64 ∈ linesOf k bs.length
    · simp only [List.contains_iff_mem.2 hl, beq_self_eq_true, Bool.and_self, Bool.or_true, if_true, hl, true_and]
      split
      · rfl
      · cases m.written c' (j / 64) <;> simp
    · have hn : ¬ (k ≤ j ∧ j < k + bs.length) := by
        intro h; apply hl; rw [mem_linesOf]
        exact ⟨by omega, Nat.div_le_div_right h.1, Nat.div_le_div_right (by omega)⟩
      simp [hn, hl]
  · simp [hc]

end Sys2Proof.Machine
end

