-- ==== Sys2Proof/Laws/State.lean ====
section
/-! SUPPORT. What each named update of the state leaves as it was: one lemma per field per update, and one per named reading. -/

namespace Sys2Proof.Machine

/-! ### wr -/

@[simp] theorem State.wr_pending (s : State) (k : Nat) (v : Word) : (s.wr k v).pending = s.pending := rfl
@[simp] theorem State.wr_time (s : State) (k : Nat) (v : Word) : (s.wr k v).time = s.time := rfl
@[simp] theorem State.wr_chipId (s : State) (k : Nat) (v : Word) : (s.wr k v).chipId = s.chipId := rfl
@[simp] theorem State.wr_tiles (s : State) (k : Nat) (v : Word) : (s.wr k v).tiles = s.tiles := rfl
@[simp] theorem State.wr_mem (s : State) (k : Nat) (v : Word) : (s.wr k v).mem = s.mem := rfl
@[simp] theorem State.wr_fab (s : State) (k : Nat) (v : Word) : (s.wr k v).fab = s.fab := rfl
@[simp] theorem State.wr_clap (s : State) (k : Nat) (v : Word) : (s.wr k v).clap = s.clap := rfl
@[simp] theorem State.wr_integ (s : State) (k : Nat) (v : Word) : (s.wr k v).integ = s.integ := rfl
@[simp] theorem State.wr_cu (s : State) (k : Nat) (v : Word) : (s.wr k v).cu = s.cu := rfl
@[simp] theorem State.wr_pwr (s : State) (k : Nat) (v : Word) : (s.wr k v).pwr = s.pwr := rfl
@[simp] theorem State.wr_shadow (s : State) (k : Nat) (v : Word) : (s.wr k v).shadow = s.shadow := rfl
@[simp] theorem State.wr_sync (s : State) (k : Nat) (v : Word) : (s.wr k v).sync = s.sync := rfl
@[simp] theorem State.wr_boot (s : State) (k : Nat) (v : Word) : (s.wr k v).boot = s.boot := rfl
@[simp] theorem State.wr_pins (s : State) (k : Nat) (v : Word) : (s.wr k v).pins = s.pins := rfl
@[simp] theorem State.wr_nv (s : State) (k : Nat) (v : Word) : (s.wr k v).nv = s.nv := rfl
@[simp] theorem State.wr_peal (s : State) (k : Nat) (v : Word) : (s.wr k v).peal = s.peal := rfl
@[simp] theorem State.wr_keys (s : State) (k : Nat) (v : Word) : (s.wr k v).keys = s.keys := rfl
@[simp] theorem State.wr_mgmt (s : State) (k : Nat) (v : Word) : (s.wr k v).mgmt = s.mgmt := rfl
@[simp] theorem State.wr_fe (s : State) (k : Nat) (v : Word) : (s.wr k v).fe = s.fe := rfl
@[simp] theorem State.wr_ports (s : State) (k : Nat) (v : Word) : (s.wr k v).ports = s.ports := rfl
@[simp] theorem State.wr_host (s : State) (k : Nat) (v : Word) : (s.wr k v).host = s.host := rfl
@[simp] theorem State.wr_links (s : State) (k : Nat) (v : Word) : (s.wr k v).links = s.links := rfl
@[simp] theorem State.wr_readData (s : State) (k : Nat) (v : Word) : (s.wr k v).readData = s.readData := rfl
@[simp] theorem State.wr_lastStatus (s : State) (k : Nat) (v : Word) : (s.wr k v).lastStatus = s.lastStatus := rfl
@[simp] theorem State.wr_free (s : State) (k : Nat) (v : Word) : (s.wr k v).free = s.free := rfl
@[simp] theorem State.wr_tile (s : State) (k : Nat) (v : Word) (p : Nat) : (s.wr k v).tile p = s.tile p := rfl
@[simp] theorem State.wr_now (s : State) (k : Nat) (v : Word) : (s.wr k v).now = s.now := rfl
@[simp] theorem State.wr_now32 (s : State) (k : Nat) (v : Word) : (s.wr k v).now32 = s.now32 := rfl
@[simp] theorem State.wr_run (s : State) (k : Nat) (v : Word) (e : Nat) : (s.wr k v).run e = s.run e := rfl

/-! ### upd -/

@[simp] theorem State.upd_pending (s : State) (k : Nat) (f : Word → Word) : (s.upd k f).pending = s.pending := rfl
@[simp] theorem State.upd_time (s : State) (k : Nat) (f : Word → Word) : (s.upd k f).time = s.time := rfl
@[simp] theorem State.upd_chipId (s : State) (k : Nat) (f : Word → Word) : (s.upd k f).chipId = s.chipId := rfl
@[simp] theorem State.upd_tiles (s : State) (k : Nat) (f : Word → Word) : (s.upd k f).tiles = s.tiles := rfl
@[simp] theorem State.upd_mem (s : State) (k : Nat) (f : Word → Word) : (s.upd k f).mem = s.mem := rfl
@[simp] theorem State.upd_fab (s : State) (k : Nat) (f : Word → Word) : (s.upd k f).fab = s.fab := rfl
@[simp] theorem State.upd_clap (s : State) (k : Nat) (f : Word → Word) : (s.upd k f).clap = s.clap := rfl
@[simp] theorem State.upd_integ (s : State) (k : Nat) (f : Word → Word) : (s.upd k f).integ = s.integ := rfl
@[simp] theorem State.upd_cu (s : State) (k : Nat) (f : Word → Word) : (s.upd k f).cu = s.cu := rfl
@[simp] theorem State.upd_pwr (s : State) (k : Nat) (f : Word → Word) : (s.upd k f).pwr = s.pwr := rfl
@[simp] theorem State.upd_shadow (s : State) (k : Nat) (f : Word → Word) : (s.upd k f).shadow = s.shadow := rfl
@[simp] theorem State.upd_sync (s : State) (k : Nat) (f : Word → Word) : (s.upd k f).sync = s.sync := rfl
@[simp] theorem State.upd_boot (s : State) (k : Nat) (f : Word → Word) : (s.upd k f).boot = s.boot := rfl
@[simp] theorem State.upd_pins (s : State) (k : Nat) (f : Word → Word) : (s.upd k f).pins = s.pins := rfl
@[simp] theorem State.upd_nv (s : State) (k : Nat) (f : Word → Word) : (s.upd k f).nv = s.nv := rfl
@[simp] theorem State.upd_peal (s : State) (k : Nat) (f : Word → Word) : (s.upd k f).peal = s.peal := rfl
@[simp] theorem State.upd_keys (s : State) (k : Nat) (f : Word → Word) : (s.upd k f).keys = s.keys := rfl
@[simp] theorem State.upd_mgmt (s : State) (k : Nat) (f : Word → Word) : (s.upd k f).mgmt = s.mgmt := rfl
@[simp] theorem State.upd_fe (s : State) (k : Nat) (f : Word → Word) : (s.upd k f).fe = s.fe := rfl
@[simp] theorem State.upd_ports (s : State) (k : Nat) (f : Word → Word) : (s.upd k f).ports = s.ports := rfl
@[simp] theorem State.upd_host (s : State) (k : Nat) (f : Word → Word) : (s.upd k f).host = s.host := rfl
@[simp] theorem State.upd_links (s : State) (k : Nat) (f : Word → Word) : (s.upd k f).links = s.links := rfl
@[simp] theorem State.upd_readData (s : State) (k : Nat) (f : Word → Word) : (s.upd k f).readData = s.readData := rfl
@[simp] theorem State.upd_lastStatus (s : State) (k : Nat) (f : Word → Word) : (s.upd k f).lastStatus = s.lastStatus := rfl
@[simp] theorem State.upd_free (s : State) (k : Nat) (f : Word → Word) : (s.upd k f).free = s.free := rfl
@[simp] theorem State.upd_tile (s : State) (k : Nat) (f : Word → Word) (p : Nat) : (s.upd k f).tile p = s.tile p := rfl
@[simp] theorem State.upd_now (s : State) (k : Nat) (f : Word → Word) : (s.upd k f).now = s.now := rfl
@[simp] theorem State.upd_now32 (s : State) (k : Nat) (f : Word → Word) : (s.upd k f).now32 = s.now32 := rfl
@[simp] theorem State.upd_run (s : State) (k : Nat) (f : Word → Word) (e : Nat) : (s.upd k f).run e = s.run e := rfl

/-! ### setFld -/

@[simp] theorem State.setFld_pending (s : State) (k hi lo v : Nat) : (s.setFld k hi lo v).pending = s.pending := rfl
@[simp] theorem State.setFld_time (s : State) (k hi lo v : Nat) : (s.setFld k hi lo v).time = s.time := rfl
@[simp] theorem State.setFld_chipId (s : State) (k hi lo v : Nat) : (s.setFld k hi lo v).chipId = s.chipId := rfl
@[simp] theorem State.setFld_tiles (s : State) (k hi lo v : Nat) : (s.setFld k hi lo v).tiles = s.tiles := rfl
@[simp] theorem State.setFld_mem (s : State) (k hi lo v : Nat) : (s.setFld k hi lo v).mem = s.mem := rfl
@[simp] theorem State.setFld_fab (s : State) (k hi lo v : Nat) : (s.setFld k hi lo v).fab = s.fab := rfl
@[simp] theorem State.setFld_clap (s : State) (k hi lo v : Nat) : (s.setFld k hi lo v).clap = s.clap := rfl
@[simp] theorem State.setFld_integ (s : State) (k hi lo v : Nat) : (s.setFld k hi lo v).integ = s.integ := rfl
@[simp] theorem State.setFld_cu (s : State) (k hi lo v : Nat) : (s.setFld k hi lo v).cu = s.cu := rfl
@[simp] theorem State.setFld_pwr (s : State) (k hi lo v : Nat) : (s.setFld k hi lo v).pwr = s.pwr := rfl
@[simp] theorem State.setFld_shadow (s : State) (k hi lo v : Nat) : (s.setFld k hi lo v).shadow = s.shadow := rfl
@[simp] theorem State.setFld_sync (s : State) (k hi lo v : Nat) : (s.setFld k hi lo v).sync = s.sync := rfl
@[simp] theorem State.setFld_boot (s : State) (k hi lo v : Nat) : (s.setFld k hi lo v).boot = s.boot := rfl
@[simp] theorem State.setFld_pins (s : State) (k hi lo v : Nat) : (s.setFld k hi lo v).pins = s.pins := rfl
@[simp] theorem State.setFld_nv (s : State) (k hi lo v : Nat) : (s.setFld k hi lo v).nv = s.nv := rfl
@[simp] theorem State.setFld_peal (s : State) (k hi lo v : Nat) : (s.setFld k hi lo v).peal = s.peal := rfl
@[simp] theorem State.setFld_keys (s : State) (k hi lo v : Nat) : (s.setFld k hi lo v).keys = s.keys := rfl
@[simp] theorem State.setFld_mgmt (s : State) (k hi lo v : Nat) : (s.setFld k hi lo v).mgmt = s.mgmt := rfl
@[simp] theorem State.setFld_fe (s : State) (k hi lo v : Nat) : (s.setFld k hi lo v).fe = s.fe := rfl
@[simp] theorem State.setFld_ports (s : State) (k hi lo v : Nat) : (s.setFld k hi lo v).ports = s.ports := rfl
@[simp] theorem State.setFld_host (s : State) (k hi lo v : Nat) : (s.setFld k hi lo v).host = s.host := rfl
@[simp] theorem State.setFld_links (s : State) (k hi lo v : Nat) : (s.setFld k hi lo v).links = s.links := rfl
@[simp] theorem State.setFld_readData (s : State) (k hi lo v : Nat) : (s.setFld k hi lo v).readData = s.readData := rfl
@[simp] theorem State.setFld_lastStatus (s : State) (k hi lo v : Nat) : (s.setFld k hi lo v).lastStatus = s.lastStatus := rfl
@[simp] theorem State.setFld_free (s : State) (k hi lo v : Nat) : (s.setFld k hi lo v).free = s.free := rfl
@[simp] theorem State.setFld_tile (s : State) (k hi lo v : Nat) (p : Nat) : (s.setFld k hi lo v).tile p = s.tile p := rfl
@[simp] theorem State.setFld_now (s : State) (k hi lo v : Nat) : (s.setFld k hi lo v).now = s.now := rfl
@[simp] theorem State.setFld_now32 (s : State) (k hi lo v : Nat) : (s.setFld k hi lo v).now32 = s.now32 := rfl
@[simp] theorem State.setFld_run (s : State) (k hi lo v : Nat) (e : Nat) : (s.setFld k hi lo v).run e = s.run e := rfl

/-! ### setBit -/

@[simp] theorem State.setBit_pending (s : State) (k n : Nat) (b : Bool) : (s.setBit k n b).pending = s.pending := rfl
@[simp] theorem State.setBit_time (s : State) (k n : Nat) (b : Bool) : (s.setBit k n b).time = s.time := rfl
@[simp] theorem State.setBit_chipId (s : State) (k n : Nat) (b : Bool) : (s.setBit k n b).chipId = s.chipId := rfl
@[simp] theorem State.setBit_tiles (s : State) (k n : Nat) (b : Bool) : (s.setBit k n b).tiles = s.tiles := rfl
@[simp] theorem State.setBit_mem (s : State) (k n : Nat) (b : Bool) : (s.setBit k n b).mem = s.mem := rfl
@[simp] theorem State.setBit_fab (s : State) (k n : Nat) (b : Bool) : (s.setBit k n b).fab = s.fab := rfl
@[simp] theorem State.setBit_clap (s : State) (k n : Nat) (b : Bool) : (s.setBit k n b).clap = s.clap := rfl
@[simp] theorem State.setBit_integ (s : State) (k n : Nat) (b : Bool) : (s.setBit k n b).integ = s.integ := rfl
@[simp] theorem State.setBit_cu (s : State) (k n : Nat) (b : Bool) : (s.setBit k n b).cu = s.cu := rfl
@[simp] theorem State.setBit_pwr (s : State) (k n : Nat) (b : Bool) : (s.setBit k n b).pwr = s.pwr := rfl
@[simp] theorem State.setBit_shadow (s : State) (k n : Nat) (b : Bool) : (s.setBit k n b).shadow = s.shadow := rfl
@[simp] theorem State.setBit_sync (s : State) (k n : Nat) (b : Bool) : (s.setBit k n b).sync = s.sync := rfl
@[simp] theorem State.setBit_boot (s : State) (k n : Nat) (b : Bool) : (s.setBit k n b).boot = s.boot := rfl
@[simp] theorem State.setBit_pins (s : State) (k n : Nat) (b : Bool) : (s.setBit k n b).pins = s.pins := rfl
@[simp] theorem State.setBit_nv (s : State) (k n : Nat) (b : Bool) : (s.setBit k n b).nv = s.nv := rfl
@[simp] theorem State.setBit_peal (s : State) (k n : Nat) (b : Bool) : (s.setBit k n b).peal = s.peal := rfl
@[simp] theorem State.setBit_keys (s : State) (k n : Nat) (b : Bool) : (s.setBit k n b).keys = s.keys := rfl
@[simp] theorem State.setBit_mgmt (s : State) (k n : Nat) (b : Bool) : (s.setBit k n b).mgmt = s.mgmt := rfl
@[simp] theorem State.setBit_fe (s : State) (k n : Nat) (b : Bool) : (s.setBit k n b).fe = s.fe := rfl
@[simp] theorem State.setBit_ports (s : State) (k n : Nat) (b : Bool) : (s.setBit k n b).ports = s.ports := rfl
@[simp] theorem State.setBit_host (s : State) (k n : Nat) (b : Bool) : (s.setBit k n b).host = s.host := rfl
@[simp] theorem State.setBit_links (s : State) (k n : Nat) (b : Bool) : (s.setBit k n b).links = s.links := rfl
@[simp] theorem State.setBit_readData (s : State) (k n : Nat) (b : Bool) : (s.setBit k n b).readData = s.readData := rfl
@[simp] theorem State.setBit_lastStatus (s : State) (k n : Nat) (b : Bool) : (s.setBit k n b).lastStatus = s.lastStatus := rfl
@[simp] theorem State.setBit_free (s : State) (k n : Nat) (b : Bool) : (s.setBit k n b).free = s.free := rfl
@[simp] theorem State.setBit_tile (s : State) (k n : Nat) (b : Bool) (p : Nat) : (s.setBit k n b).tile p = s.tile p := rfl
@[simp] theorem State.setBit_now (s : State) (k n : Nat) (b : Bool) : (s.setBit k n b).now = s.now := rfl
@[simp] theorem State.setBit_now32 (s : State) (k n : Nat) (b : Bool) : (s.setBit k n b).now32 = s.now32 := rfl
@[simp] theorem State.setBit_run (s : State) (k n : Nat) (b : Bool) (e : Nat) : (s.setBit k n b).run e = s.run e := rfl

/-! ### count -/

@[simp] theorem State.count_pending (s : State) (k : Nat) : (s.count k).pending = s.pending := rfl
@[simp] theorem State.count_time (s : State) (k : Nat) : (s.count k).time = s.time := rfl
@[simp] theorem State.count_chipId (s : State) (k : Nat) : (s.count k).chipId = s.chipId := rfl
@[simp] theorem State.count_tiles (s : State) (k : Nat) : (s.count k).tiles = s.tiles := rfl
@[simp] theorem State.count_mem (s : State) (k : Nat) : (s.count k).mem = s.mem := rfl
@[simp] theorem State.count_fab (s : State) (k : Nat) : (s.count k).fab = s.fab := rfl
@[simp] theorem State.count_clap (s : State) (k : Nat) : (s.count k).clap = s.clap := rfl
@[simp] theorem State.count_integ (s : State) (k : Nat) : (s.count k).integ = s.integ := rfl
@[simp] theorem State.count_cu (s : State) (k : Nat) : (s.count k).cu = s.cu := rfl
@[simp] theorem State.count_pwr (s : State) (k : Nat) : (s.count k).pwr = s.pwr := rfl
@[simp] theorem State.count_shadow (s : State) (k : Nat) : (s.count k).shadow = s.shadow := rfl
@[simp] theorem State.count_sync (s : State) (k : Nat) : (s.count k).sync = s.sync := rfl
@[simp] theorem State.count_boot (s : State) (k : Nat) : (s.count k).boot = s.boot := rfl
@[simp] theorem State.count_pins (s : State) (k : Nat) : (s.count k).pins = s.pins := rfl
@[simp] theorem State.count_nv (s : State) (k : Nat) : (s.count k).nv = s.nv := rfl
@[simp] theorem State.count_peal (s : State) (k : Nat) : (s.count k).peal = s.peal := rfl
@[simp] theorem State.count_keys (s : State) (k : Nat) : (s.count k).keys = s.keys := rfl
@[simp] theorem State.count_mgmt (s : State) (k : Nat) : (s.count k).mgmt = s.mgmt := rfl
@[simp] theorem State.count_fe (s : State) (k : Nat) : (s.count k).fe = s.fe := rfl
@[simp] theorem State.count_ports (s : State) (k : Nat) : (s.count k).ports = s.ports := rfl
@[simp] theorem State.count_host (s : State) (k : Nat) : (s.count k).host = s.host := rfl
@[simp] theorem State.count_links (s : State) (k : Nat) : (s.count k).links = s.links := rfl
@[simp] theorem State.count_readData (s : State) (k : Nat) : (s.count k).readData = s.readData := rfl
@[simp] theorem State.count_lastStatus (s : State) (k : Nat) : (s.count k).lastStatus = s.lastStatus := rfl
@[simp] theorem State.count_free (s : State) (k : Nat) : (s.count k).free = s.free := rfl
@[simp] theorem State.count_tile (s : State) (k : Nat) (p : Nat) : (s.count k).tile p = s.tile p := rfl
@[simp] theorem State.count_now (s : State) (k : Nat) : (s.count k).now = s.now := rfl
@[simp] theorem State.count_now32 (s : State) (k : Nat) : (s.count k).now32 = s.now32 := rfl
@[simp] theorem State.count_run (s : State) (k : Nat) (e : Nat) : (s.count k).run e = s.run e := rfl

/-! ### countBy -/

@[simp] theorem State.countBy_pending (s : State) (k n : Nat) : (s.countBy k n).pending = s.pending := rfl
@[simp] theorem State.countBy_time (s : State) (k n : Nat) : (s.countBy k n).time = s.time := rfl
@[simp] theorem State.countBy_chipId (s : State) (k n : Nat) : (s.countBy k n).chipId = s.chipId := rfl
@[simp] theorem State.countBy_tiles (s : State) (k n : Nat) : (s.countBy k n).tiles = s.tiles := rfl
@[simp] theorem State.countBy_mem (s : State) (k n : Nat) : (s.countBy k n).mem = s.mem := rfl
@[simp] theorem State.countBy_fab (s : State) (k n : Nat) : (s.countBy k n).fab = s.fab := rfl
@[simp] theorem State.countBy_clap (s : State) (k n : Nat) : (s.countBy k n).clap = s.clap := rfl
@[simp] theorem State.countBy_integ (s : State) (k n : Nat) : (s.countBy k n).integ = s.integ := rfl
@[simp] theorem State.countBy_cu (s : State) (k n : Nat) : (s.countBy k n).cu = s.cu := rfl
@[simp] theorem State.countBy_pwr (s : State) (k n : Nat) : (s.countBy k n).pwr = s.pwr := rfl
@[simp] theorem State.countBy_shadow (s : State) (k n : Nat) : (s.countBy k n).shadow = s.shadow := rfl
@[simp] theorem State.countBy_sync (s : State) (k n : Nat) : (s.countBy k n).sync = s.sync := rfl
@[simp] theorem State.countBy_boot (s : State) (k n : Nat) : (s.countBy k n).boot = s.boot := rfl
@[simp] theorem State.countBy_pins (s : State) (k n : Nat) : (s.countBy k n).pins = s.pins := rfl
@[simp] theorem State.countBy_nv (s : State) (k n : Nat) : (s.countBy k n).nv = s.nv := rfl
@[simp] theorem State.countBy_peal (s : State) (k n : Nat) : (s.countBy k n).peal = s.peal := rfl
@[simp] theorem State.countBy_keys (s : State) (k n : Nat) : (s.countBy k n).keys = s.keys := rfl
@[simp] theorem State.countBy_mgmt (s : State) (k n : Nat) : (s.countBy k n).mgmt = s.mgmt := rfl
@[simp] theorem State.countBy_fe (s : State) (k n : Nat) : (s.countBy k n).fe = s.fe := rfl
@[simp] theorem State.countBy_ports (s : State) (k n : Nat) : (s.countBy k n).ports = s.ports := rfl
@[simp] theorem State.countBy_host (s : State) (k n : Nat) : (s.countBy k n).host = s.host := rfl
@[simp] theorem State.countBy_links (s : State) (k n : Nat) : (s.countBy k n).links = s.links := rfl
@[simp] theorem State.countBy_readData (s : State) (k n : Nat) : (s.countBy k n).readData = s.readData := rfl
@[simp] theorem State.countBy_lastStatus (s : State) (k n : Nat) : (s.countBy k n).lastStatus = s.lastStatus := rfl
@[simp] theorem State.countBy_free (s : State) (k n : Nat) : (s.countBy k n).free = s.free := rfl
@[simp] theorem State.countBy_tile (s : State) (k n : Nat) (p : Nat) : (s.countBy k n).tile p = s.tile p := rfl
@[simp] theorem State.countBy_now (s : State) (k n : Nat) : (s.countBy k n).now = s.now := rfl
@[simp] theorem State.countBy_now32 (s : State) (k n : Nat) : (s.countBy k n).now32 = s.now32 := rfl
@[simp] theorem State.countBy_run (s : State) (k n : Nat) (e : Nat) : (s.countBy k n).run e = s.run e := rfl

/-! ### raiseInt -/

@[simp] theorem State.raiseInt_pending (s : State) (n : Nat) : (s.raiseInt n).pending = s.pending := rfl
@[simp] theorem State.raiseInt_time (s : State) (n : Nat) : (s.raiseInt n).time = s.time := rfl
@[simp] theorem State.raiseInt_chipId (s : State) (n : Nat) : (s.raiseInt n).chipId = s.chipId := rfl
@[simp] theorem State.raiseInt_tiles (s : State) (n : Nat) : (s.raiseInt n).tiles = s.tiles := rfl
@[simp] theorem State.raiseInt_mem (s : State) (n : Nat) : (s.raiseInt n).mem = s.mem := rfl
@[simp] theorem State.raiseInt_fab (s : State) (n : Nat) : (s.raiseInt n).fab = s.fab := rfl
@[simp] theorem State.raiseInt_clap (s : State) (n : Nat) : (s.raiseInt n).clap = s.clap := rfl
@[simp] theorem State.raiseInt_integ (s : State) (n : Nat) : (s.raiseInt n).integ = s.integ := rfl
@[simp] theorem State.raiseInt_cu (s : State) (n : Nat) : (s.raiseInt n).cu = s.cu := rfl
@[simp] theorem State.raiseInt_pwr (s : State) (n : Nat) : (s.raiseInt n).pwr = s.pwr := rfl
@[simp] theorem State.raiseInt_shadow (s : State) (n : Nat) : (s.raiseInt n).shadow = s.shadow := rfl
@[simp] theorem State.raiseInt_sync (s : State) (n : Nat) : (s.raiseInt n).sync = s.sync := rfl
@[simp] theorem State.raiseInt_boot (s : State) (n : Nat) : (s.raiseInt n).boot = s.boot := rfl
@[simp] theorem State.raiseInt_pins (s : State) (n : Nat) : (s.raiseInt n).pins = s.pins := rfl
@[simp] theorem State.raiseInt_nv (s : State) (n : Nat) : (s.raiseInt n).nv = s.nv := rfl
@[simp] theorem State.raiseInt_peal (s : State) (n : Nat) : (s.raiseInt n).peal = s.peal := rfl
@[simp] theorem State.raiseInt_keys (s : State) (n : Nat) : (s.raiseInt n).keys = s.keys := rfl
@[simp] theorem State.raiseInt_mgmt (s : State) (n : Nat) : (s.raiseInt n).mgmt = s.mgmt := rfl
@[simp] theorem State.raiseInt_fe (s : State) (n : Nat) : (s.raiseInt n).fe = s.fe := rfl
@[simp] theorem State.raiseInt_ports (s : State) (n : Nat) : (s.raiseInt n).ports = s.ports := rfl
@[simp] theorem State.raiseInt_host (s : State) (n : Nat) : (s.raiseInt n).host = s.host := rfl
@[simp] theorem State.raiseInt_links (s : State) (n : Nat) : (s.raiseInt n).links = s.links := rfl
@[simp] theorem State.raiseInt_readData (s : State) (n : Nat) : (s.raiseInt n).readData = s.readData := rfl
@[simp] theorem State.raiseInt_lastStatus (s : State) (n : Nat) : (s.raiseInt n).lastStatus = s.lastStatus := rfl
@[simp] theorem State.raiseInt_free (s : State) (n : Nat) : (s.raiseInt n).free = s.free := rfl
@[simp] theorem State.raiseInt_tile (s : State) (n : Nat) (p : Nat) : (s.raiseInt n).tile p = s.tile p := rfl
@[simp] theorem State.raiseInt_now (s : State) (n : Nat) : (s.raiseInt n).now = s.now := rfl
@[simp] theorem State.raiseInt_now32 (s : State) (n : Nat) : (s.raiseInt n).now32 = s.now32 := rfl
@[simp] theorem State.raiseInt_run (s : State) (n : Nat) (e : Nat) : (s.raiseInt n).run e = s.run e := rfl

/-! ### setStr -/

@[simp] theorem State.setStr_pending (s : State) (e v : Nat) : (s.setStr e v).pending = s.pending := rfl
@[simp] theorem State.setStr_time (s : State) (e v : Nat) : (s.setStr e v).time = s.time := rfl
@[simp] theorem State.setStr_chipId (s : State) (e v : Nat) : (s.setStr e v).chipId = s.chipId := rfl
@[simp] theorem State.setStr_tiles (s : State) (e v : Nat) : (s.setStr e v).tiles = s.tiles := rfl
@[simp] theorem State.setStr_mem (s : State) (e v : Nat) : (s.setStr e v).mem = s.mem := rfl
@[simp] theorem State.setStr_fab (s : State) (e v : Nat) : (s.setStr e v).fab = s.fab := rfl
@[simp] theorem State.setStr_clap (s : State) (e v : Nat) : (s.setStr e v).clap = s.clap := rfl
@[simp] theorem State.setStr_integ (s : State) (e v : Nat) : (s.setStr e v).integ = s.integ := rfl
@[simp] theorem State.setStr_cu (s : State) (e v : Nat) : (s.setStr e v).cu = s.cu := rfl
@[simp] theorem State.setStr_pwr (s : State) (e v : Nat) : (s.setStr e v).pwr = s.pwr := rfl
@[simp] theorem State.setStr_shadow (s : State) (e v : Nat) : (s.setStr e v).shadow = s.shadow := rfl
@[simp] theorem State.setStr_sync (s : State) (e v : Nat) : (s.setStr e v).sync = s.sync := rfl
@[simp] theorem State.setStr_boot (s : State) (e v : Nat) : (s.setStr e v).boot = s.boot := rfl
@[simp] theorem State.setStr_pins (s : State) (e v : Nat) : (s.setStr e v).pins = s.pins := rfl
@[simp] theorem State.setStr_nv (s : State) (e v : Nat) : (s.setStr e v).nv = s.nv := rfl
@[simp] theorem State.setStr_peal (s : State) (e v : Nat) : (s.setStr e v).peal = s.peal := rfl
@[simp] theorem State.setStr_keys (s : State) (e v : Nat) : (s.setStr e v).keys = s.keys := rfl
@[simp] theorem State.setStr_mgmt (s : State) (e v : Nat) : (s.setStr e v).mgmt = s.mgmt := rfl
@[simp] theorem State.setStr_fe (s : State) (e v : Nat) : (s.setStr e v).fe = s.fe := rfl
@[simp] theorem State.setStr_ports (s : State) (e v : Nat) : (s.setStr e v).ports = s.ports := rfl
@[simp] theorem State.setStr_host (s : State) (e v : Nat) : (s.setStr e v).host = s.host := rfl
@[simp] theorem State.setStr_links (s : State) (e v : Nat) : (s.setStr e v).links = s.links := rfl
@[simp] theorem State.setStr_readData (s : State) (e v : Nat) : (s.setStr e v).readData = s.readData := rfl
@[simp] theorem State.setStr_lastStatus (s : State) (e v : Nat) : (s.setStr e v).lastStatus = s.lastStatus := rfl
@[simp] theorem State.setStr_free (s : State) (e v : Nat) : (s.setStr e v).free = s.free := rfl
@[simp] theorem State.setStr_tile (s : State) (e v : Nat) (p : Nat) : (s.setStr e v).tile p = s.tile p := rfl
@[simp] theorem State.setStr_now (s : State) (e v : Nat) : (s.setStr e v).now = s.now := rfl
@[simp] theorem State.setStr_now32 (s : State) (e v : Nat) : (s.setStr e v).now32 = s.now32 := rfl
@[simp] theorem State.setStr_run (s : State) (e v : Nat) (e' : Nat) : (s.setStr e v).run e' = s.run e' := rfl

/-! ### setTile -/

@[simp] theorem State.setTile_pending (s : State) (p : Nat) (t : Tile) : (s.setTile p t).pending = s.pending := rfl
@[simp] theorem State.setTile_time (s : State) (p : Nat) (t : Tile) : (s.setTile p t).time = s.time := rfl
@[simp] theorem State.setTile_chipId (s : State) (p : Nat) (t : Tile) : (s.setTile p t).chipId = s.chipId := rfl
@[simp] theorem State.setTile_regs (s : State) (p : Nat) (t : Tile) : (s.setTile p t).regs = s.regs := rfl
@[simp] theorem State.setTile_mem (s : State) (p : Nat) (t : Tile) : (s.setTile p t).mem = s.mem := rfl
@[simp] theorem State.setTile_fab (s : State) (p : Nat) (t : Tile) : (s.setTile p t).fab = s.fab := rfl
@[simp] theorem State.setTile_clap (s : State) (p : Nat) (t : Tile) : (s.setTile p t).clap = s.clap := rfl
@[simp] theorem State.setTile_integ (s : State) (p : Nat) (t : Tile) : (s.setTile p t).integ = s.integ := rfl
@[simp] theorem State.setTile_cu (s : State) (p : Nat) (t : Tile) : (s.setTile p t).cu = s.cu := rfl
@[simp] theorem State.setTile_pwr (s : State) (p : Nat) (t : Tile) : (s.setTile p t).pwr = s.pwr := rfl
@[simp] theorem State.setTile_shadow (s : State) (p : Nat) (t : Tile) : (s.setTile p t).shadow = s.shadow := rfl
@[simp] theorem State.setTile_sync (s : State) (p : Nat) (t : Tile) : (s.setTile p t).sync = s.sync := rfl
@[simp] theorem State.setTile_boot (s : State) (p : Nat) (t : Tile) : (s.setTile p t).boot = s.boot := rfl
@[simp] theorem State.setTile_pins (s : State) (p : Nat) (t : Tile) : (s.setTile p t).pins = s.pins := rfl
@[simp] theorem State.setTile_nv (s : State) (p : Nat) (t : Tile) : (s.setTile p t).nv = s.nv := rfl
@[simp] theorem State.setTile_peal (s : State) (p : Nat) (t : Tile) : (s.setTile p t).peal = s.peal := rfl
@[simp] theorem State.setTile_keys (s : State) (p : Nat) (t : Tile) : (s.setTile p t).keys = s.keys := rfl
@[simp] theorem State.setTile_mgmt (s : State) (p : Nat) (t : Tile) : (s.setTile p t).mgmt = s.mgmt := rfl
@[simp] theorem State.setTile_fe (s : State) (p : Nat) (t : Tile) : (s.setTile p t).fe = s.fe := rfl
@[simp] theorem State.setTile_ports (s : State) (p : Nat) (t : Tile) : (s.setTile p t).ports = s.ports := rfl
@[simp] theorem State.setTile_host (s : State) (p : Nat) (t : Tile) : (s.setTile p t).host = s.host := rfl
@[simp] theorem State.setTile_links (s : State) (p : Nat) (t : Tile) : (s.setTile p t).links = s.links := rfl
@[simp] theorem State.setTile_readData (s : State) (p : Nat) (t : Tile) : (s.setTile p t).readData = s.readData := rfl
@[simp] theorem State.setTile_lastStatus (s : State) (p : Nat) (t : Tile) : (s.setTile p t).lastStatus = s.lastStatus := rfl
@[simp] theorem State.setTile_free (s : State) (p : Nat) (t : Tile) : (s.setTile p t).free = s.free := rfl
@[simp] theorem State.setTile_rd (s : State) (p : Nat) (t : Tile) (k : Nat) : (s.setTile p t).rd k = s.rd k := rfl
@[simp] theorem State.setTile_physOf (s : State) (p : Nat) (t : Tile) (l : Nat) : (s.setTile p t).physOf l = s.physOf l := rfl
@[simp] theorem State.setTile_mapState (s : State) (p : Nat) (t : Tile) (l : Nat) : (s.setTile p t).mapState l = s.mapState l := rfl
@[simp] theorem State.setTile_now (s : State) (p : Nat) (t : Tile) : (s.setTile p t).now = s.now := rfl
@[simp] theorem State.setTile_now32 (s : State) (p : Nat) (t : Tile) : (s.setTile p t).now32 = s.now32 := rfl
@[simp] theorem State.setTile_run (s : State) (p : Nat) (t : Tile) (e : Nat) : (s.setTile p t).run e = s.run e := rfl

/-! ### onTile -/

@[simp] theorem State.onTile_pending (s : State) (p : Nat) (f : Tile → Tile) : (s.onTile p f).pending = s.pending := rfl
@[simp] theorem State.onTile_time (s : State) (p : Nat) (f : Tile → Tile) : (s.onTile p f).time = s.time := rfl
@[simp] theorem State.onTile_chipId (s : State) (p : Nat) (f : Tile → Tile) : (s.onTile p f).chipId = s.chipId := rfl
@[simp] theorem State.onTile_regs (s : State) (p : Nat) (f : Tile → Tile) : (s.onTile p f).regs = s.regs := rfl
@[simp] theorem State.onTile_mem (s : State) (p : Nat) (f : Tile → Tile) : (s.onTile p f).mem = s.mem := rfl
@[simp] theorem State.onTile_fab (s : State) (p : Nat) (f : Tile → Tile) : (s.onTile p f).fab = s.fab := rfl
@[simp] theorem State.onTile_clap (s : State) (p : Nat) (f : Tile → Tile) : (s.onTile p f).clap = s.clap := rfl
@[simp] theorem State.onTile_integ (s : State) (p : Nat) (f : Tile → Tile) : (s.onTile p f).integ = s.integ := rfl
@[simp] theorem State.onTile_cu (s : State) (p : Nat) (f : Tile → Tile) : (s.onTile p f).cu = s.cu := rfl
@[simp] theorem State.onTile_pwr (s : State) (p : Nat) (f : Tile → Tile) : (s.onTile p f).pwr = s.pwr := rfl
@[simp] theorem State.onTile_shadow (s : State) (p : Nat) (f : Tile → Tile) : (s.onTile p f).shadow = s.shadow := rfl
@[simp] theorem State.onTile_sync (s : State) (p : Nat) (f : Tile → Tile) : (s.onTile p f).sync = s.sync := rfl
@[simp] theorem State.onTile_boot (s : State) (p : Nat) (f : Tile → Tile) : (s.onTile p f).boot = s.boot := rfl
@[simp] theorem State.onTile_pins (s : State) (p : Nat) (f : Tile → Tile) : (s.onTile p f).pins = s.pins := rfl
@[simp] theorem State.onTile_nv (s : State) (p : Nat) (f : Tile → Tile) : (s.onTile p f).nv = s.nv := rfl
@[simp] theorem State.onTile_peal (s : State) (p : Nat) (f : Tile → Tile) : (s.onTile p f).peal = s.peal := rfl
@[simp] theorem State.onTile_keys (s : State) (p : Nat) (f : Tile → Tile) : (s.onTile p f).keys = s.keys := rfl
@[simp] theorem State.onTile_mgmt (s : State) (p : Nat) (f : Tile → Tile) : (s.onTile p f).mgmt = s.mgmt := rfl
@[simp] theorem State.onTile_fe (s : State) (p : Nat) (f : Tile → Tile) : (s.onTile p f).fe = s.fe := rfl
@[simp] theorem State.onTile_ports (s : State) (p : Nat) (f : Tile → Tile) : (s.onTile p f).ports = s.ports := rfl
@[simp] theorem State.onTile_host (s : State) (p : Nat) (f : Tile → Tile) : (s.onTile p f).host = s.host := rfl
@[simp] theorem State.onTile_links (s : State) (p : Nat) (f : Tile → Tile) : (s.onTile p f).links = s.links := rfl
@[simp] theorem State.onTile_readData (s : State) (p : Nat) (f : Tile → Tile) : (s.onTile p f).readData = s.readData := rfl
@[simp] theorem State.onTile_lastStatus (s : State) (p : Nat) (f : Tile → Tile) : (s.onTile p f).lastStatus = s.lastStatus := rfl
@[simp] theorem State.onTile_free (s : State) (p : Nat) (f : Tile → Tile) : (s.onTile p f).free = s.free := rfl
@[simp] theorem State.onTile_rd (s : State) (p : Nat) (f : Tile → Tile) (k : Nat) : (s.onTile p f).rd k = s.rd k := rfl
@[simp] theorem State.onTile_physOf (s : State) (p : Nat) (f : Tile → Tile) (l : Nat) : (s.onTile p f).physOf l = s.physOf l := rfl
@[simp] theorem State.onTile_mapState (s : State) (p : Nat) (f : Tile → Tile) (l : Nat) : (s.onTile p f).mapState l = s.mapState l := rfl
@[simp] theorem State.onTile_now (s : State) (p : Nat) (f : Tile → Tile) : (s.onTile p f).now = s.now := rfl
@[simp] theorem State.onTile_now32 (s : State) (p : Nat) (f : Tile → Tile) : (s.onTile p f).now32 = s.now32 := rfl
@[simp] theorem State.onTile_run (s : State) (p : Nat) (f : Tile → Tile) (e : Nat) : (s.onTile p f).run e = s.run e := rfl

/-! ### onL -/

@[simp] theorem State.onL_pending (s : State) (l : Nat) (f : Tile → Tile) : (s.onL l f).pending = s.pending := rfl
@[simp] theorem State.onL_time (s : State) (l : Nat) (f : Tile → Tile) : (s.onL l f).time = s.time := rfl
@[simp] theorem State.onL_chipId (s : State) (l : Nat) (f : Tile → Tile) : (s.onL l f).chipId = s.chipId := rfl
@[simp] theorem State.onL_regs (s : State) (l : Nat) (f : Tile → Tile) : (s.onL l f).regs = s.regs := rfl
@[simp] theorem State.onL_mem (s : State) (l : Nat) (f : Tile → Tile) : (s.onL l f).mem = s.mem := rfl
@[simp] theorem State.onL_fab (s : State) (l : Nat) (f : Tile → Tile) : (s.onL l f).fab = s.fab := rfl
@[simp] theorem State.onL_clap (s : State) (l : Nat) (f : Tile → Tile) : (s.onL l f).clap = s.clap := rfl
@[simp] theorem State.onL_integ (s : State) (l : Nat) (f : Tile → Tile) : (s.onL l f).integ = s.integ := rfl
@[simp] theorem State.onL_cu (s : State) (l : Nat) (f : Tile → Tile) : (s.onL l f).cu = s.cu := rfl
@[simp] theorem State.onL_pwr (s : State) (l : Nat) (f : Tile → Tile) : (s.onL l f).pwr = s.pwr := rfl
@[simp] theorem State.onL_shadow (s : State) (l : Nat) (f : Tile → Tile) : (s.onL l f).shadow = s.shadow := rfl
@[simp] theorem State.onL_sync (s : State) (l : Nat) (f : Tile → Tile) : (s.onL l f).sync = s.sync := rfl
@[simp] theorem State.onL_boot (s : State) (l : Nat) (f : Tile → Tile) : (s.onL l f).boot = s.boot := rfl
@[simp] theorem State.onL_pins (s : State) (l : Nat) (f : Tile → Tile) : (s.onL l f).pins = s.pins := rfl
@[simp] theorem State.onL_nv (s : State) (l : Nat) (f : Tile → Tile) : (s.onL l f).nv = s.nv := rfl
@[simp] theorem State.onL_peal (s : State) (l : Nat) (f : Tile → Tile) : (s.onL l f).peal = s.peal := rfl
@[simp] theorem State.onL_keys (s : State) (l : Nat) (f : Tile → Tile) : (s.onL l f).keys = s.keys := rfl
@[simp] theorem State.onL_mgmt (s : State) (l : Nat) (f : Tile → Tile) : (s.onL l f).mgmt = s.mgmt := rfl
@[simp] theorem State.onL_fe (s : State) (l : Nat) (f : Tile → Tile) : (s.onL l f).fe = s.fe := rfl
@[simp] theorem State.onL_ports (s : State) (l : Nat) (f : Tile → Tile) : (s.onL l f).ports = s.ports := rfl
@[simp] theorem State.onL_host (s : State) (l : Nat) (f : Tile → Tile) : (s.onL l f).host = s.host := rfl
@[simp] theorem State.onL_links (s : State) (l : Nat) (f : Tile → Tile) : (s.onL l f).links = s.links := rfl
@[simp] theorem State.onL_readData (s : State) (l : Nat) (f : Tile → Tile) : (s.onL l f).readData = s.readData := rfl
@[simp] theorem State.onL_lastStatus (s : State) (l : Nat) (f : Tile → Tile) : (s.onL l f).lastStatus = s.lastStatus := rfl
@[simp] theorem State.onL_free (s : State) (l : Nat) (f : Tile → Tile) : (s.onL l f).free = s.free := rfl
@[simp] theorem State.onL_rd (s : State) (l : Nat) (f : Tile → Tile) (k : Nat) : (s.onL l f).rd k = s.rd k := rfl
@[simp] theorem State.onL_physOf (s : State) (l : Nat) (f : Tile → Tile) (l' : Nat) : (s.onL l f).physOf l' = s.physOf l' := rfl
@[simp] theorem State.onL_mapState (s : State) (l : Nat) (f : Tile → Tile) (l' : Nat) : (s.onL l f).mapState l' = s.mapState l' := rfl
@[simp] theorem State.onL_now (s : State) (l : Nat) (f : Tile → Tile) : (s.onL l f).now = s.now := rfl
@[simp] theorem State.onL_now32 (s : State) (l : Nat) (f : Tile → Tile) : (s.onL l f).now32 = s.now32 := rfl
@[simp] theorem State.onL_run (s : State) (l : Nat) (f : Tile → Tile) (e : Nat) : (s.onL l f).run e = s.run e := rfl

/-! ### onMem -/

@[simp] theorem State.onMem_pending (s : State) (f : Memory → Memory) : (s.onMem f).pending = s.pending := rfl
@[simp] theorem State.onMem_time (s : State) (f : Memory → Memory) : (s.onMem f).time = s.time := rfl
@[simp] theorem State.onMem_chipId (s : State) (f : Memory → Memory) : (s.onMem f).chipId = s.chipId := rfl
@[simp] theorem State.onMem_regs (s : State) (f : Memory → Memory) : (s.onMem f).regs = s.regs := rfl
@[simp] theorem State.onMem_tiles (s : State) (f : Memory → Memory) : (s.onMem f).tiles = s.tiles := rfl
@[simp] theorem State.onMem_fab (s : State) (f : Memory → Memory) : (s.onMem f).fab = s.fab := rfl
@[simp] theorem State.onMem_clap (s : State) (f : Memory → Memory) : (s.onMem f).clap = s.clap := rfl
@[simp] theorem State.onMem_integ (s : State) (f : Memory → Memory) : (s.onMem f).integ = s.integ := rfl
@[simp] theorem State.onMem_cu (s : State) (f : Memory → Memory) : (s.onMem f).cu = s.cu := rfl
@[simp] theorem State.onMem_pwr (s : State) (f : Memory → Memory) : (s.onMem f).pwr = s.pwr := rfl
@[simp] theorem State.onMem_shadow (s : State) (f : Memory → Memory) : (s.onMem f).shadow = s.shadow := rfl
@[simp] theorem State.onMem_sync (s : State) (f : Memory → Memory) : (s.onMem f).sync = s.sync := rfl
@[simp] theorem State.onMem_boot (s : State) (f : Memory → Memory) : (s.onMem f).boot = s.boot := rfl
@[simp] theorem State.onMem_pins (s : State) (f : Memory → Memory) : (s.onMem f).pins = s.pins := rfl
@[simp] theorem State.onMem_nv (s : State) (f : Memory → Memory) : (s.onMem f).nv = s.nv := rfl
@[simp] theorem State.onMem_peal (s : State) (f : Memory → Memory) : (s.onMem f).peal = s.peal := rfl
@[simp] theorem State.onMem_keys (s : State) (f : Memory → Memory) : (s.onMem f).keys = s.keys := rfl
@[simp] theorem State.onMem_mgmt (s : State) (f : Memory → Memory) : (s.onMem f).mgmt = s.mgmt := rfl
@[simp] theorem State.onMem_fe (s : State) (f : Memory → Memory) : (s.onMem f).fe = s.fe := rfl
@[simp] theorem State.onMem_ports (s : State) (f : Memory → Memory) : (s.onMem f).ports = s.ports := rfl
@[simp] theorem State.onMem_host (s : State) (f : Memory → Memory) : (s.onMem f).host = s.host := rfl
@[simp] theorem State.onMem_links (s : State) (f : Memory → Memory) : (s.onMem f).links = s.links := rfl
@[simp] theorem State.onMem_readData (s : State) (f : Memory → Memory) : (s.onMem f).readData = s.readData := rfl
@[simp] theorem State.onMem_lastStatus (s : State) (f : Memory → Memory) : (s.onMem f).lastStatus = s.lastStatus := rfl
@[simp] theorem State.onMem_free (s : State) (f : Memory → Memory) : (s.onMem f).free = s.free := rfl
@[simp] theorem State.onMem_rd (s : State) (f : Memory → Memory) (k : Nat) : (s.onMem f).rd k = s.rd k := rfl
@[simp] theorem State.onMem_tile (s : State) (f : Memory → Memory) (p : Nat) : (s.onMem f).tile p = s.tile p := rfl
@[simp] theorem State.onMem_ltile (s : State) (f : Memory → Memory) (l : Nat) : (s.onMem f).ltile l = s.ltile l := rfl
@[simp] theorem State.onMem_physOf (s : State) (f : Memory → Memory) (l : Nat) : (s.onMem f).physOf l = s.physOf l := rfl
@[simp] theorem State.onMem_mapState (s : State) (f : Memory → Memory) (l : Nat) : (s.onMem f).mapState l = s.mapState l := rfl
@[simp] theorem State.onMem_now (s : State) (f : Memory → Memory) : (s.onMem f).now = s.now := rfl
@[simp] theorem State.onMem_now32 (s : State) (f : Memory → Memory) : (s.onMem f).now32 = s.now32 := rfl
@[simp] theorem State.onMem_run (s : State) (f : Memory → Memory) (e : Nat) : (s.onMem f).run e = s.run e := rfl

/-! ### respond -/

@[simp] theorem State.respond_pending (s : State) (r : RespFlit) : (s.respond r).pending = s.pending := rfl
@[simp] theorem State.respond_time (s : State) (r : RespFlit) : (s.respond r).time = s.time := rfl
@[simp] theorem State.respond_chipId (s : State) (r : RespFlit) : (s.respond r).chipId = s.chipId := rfl
@[simp] theorem State.respond_regs (s : State) (r : RespFlit) : (s.respond r).regs = s.regs := rfl
@[simp] theorem State.respond_tiles (s : State) (r : RespFlit) : (s.respond r).tiles = s.tiles := rfl
@[simp] theorem State.respond_mem (s : State) (r : RespFlit) : (s.respond r).mem = s.mem := rfl
@[simp] theorem State.respond_clap (s : State) (r : RespFlit) : (s.respond r).clap = s.clap := rfl
@[simp] theorem State.respond_integ (s : State) (r : RespFlit) : (s.respond r).integ = s.integ := rfl
@[simp] theorem State.respond_cu (s : State) (r : RespFlit) : (s.respond r).cu = s.cu := rfl
@[simp] theorem State.respond_pwr (s : State) (r : RespFlit) : (s.respond r).pwr = s.pwr := rfl
@[simp] theorem State.respond_shadow (s : State) (r : RespFlit) : (s.respond r).shadow = s.shadow := rfl
@[simp] theorem State.respond_sync (s : State) (r : RespFlit) : (s.respond r).sync = s.sync := rfl
@[simp] theorem State.respond_boot (s : State) (r : RespFlit) : (s.respond r).boot = s.boot := rfl
@[simp] theorem State.respond_pins (s : State) (r : RespFlit) : (s.respond r).pins = s.pins := rfl
@[simp] theorem State.respond_nv (s : State) (r : RespFlit) : (s.respond r).nv = s.nv := rfl
@[simp] theorem State.respond_peal (s : State) (r : RespFlit) : (s.respond r).peal = s.peal := rfl
@[simp] theorem State.respond_keys (s : State) (r : RespFlit) : (s.respond r).keys = s.keys := rfl
@[simp] theorem State.respond_mgmt (s : State) (r : RespFlit) : (s.respond r).mgmt = s.mgmt := rfl
@[simp] theorem State.respond_fe (s : State) (r : RespFlit) : (s.respond r).fe = s.fe := rfl
@[simp] theorem State.respond_ports (s : State) (r : RespFlit) : (s.respond r).ports = s.ports := rfl
@[simp] theorem State.respond_host (s : State) (r : RespFlit) : (s.respond r).host = s.host := rfl
@[simp] theorem State.respond_links (s : State) (r : RespFlit) : (s.respond r).links = s.links := rfl
@[simp] theorem State.respond_readData (s : State) (r : RespFlit) : (s.respond r).readData = s.readData := rfl
@[simp] theorem State.respond_lastStatus (s : State) (r : RespFlit) : (s.respond r).lastStatus = s.lastStatus := rfl
@[simp] theorem State.respond_free (s : State) (r : RespFlit) : (s.respond r).free = s.free := rfl
@[simp] theorem State.respond_rd (s : State) (r : RespFlit) (k : Nat) : (s.respond r).rd k = s.rd k := rfl
@[simp] theorem State.respond_tile (s : State) (r : RespFlit) (p : Nat) : (s.respond r).tile p = s.tile p := rfl
@[simp] theorem State.respond_ltile (s : State) (r : RespFlit) (l : Nat) : (s.respond r).ltile l = s.ltile l := rfl
@[simp] theorem State.respond_physOf (s : State) (r : RespFlit) (l : Nat) : (s.respond r).physOf l = s.physOf l := rfl
@[simp] theorem State.respond_mapState (s : State) (r : RespFlit) (l : Nat) : (s.respond r).mapState l = s.mapState l := rfl
@[simp] theorem State.respond_now (s : State) (r : RespFlit) : (s.respond r).now = s.now := rfl
@[simp] theorem State.respond_now32 (s : State) (r : RespFlit) : (s.respond r).now32 = s.now32 := rfl
@[simp] theorem State.respond_run (s : State) (r : RespFlit) (e : Nat) : (s.respond r).run e = s.run e := rfl

/-! ### setRun -/

@[simp] theorem State.setRun_pending (s : State) (e : Nat) (r : StreamRun) : (s.setRun e r).pending = s.pending := rfl
@[simp] theorem State.setRun_time (s : State) (e : Nat) (r : StreamRun) : (s.setRun e r).time = s.time := rfl
@[simp] theorem State.setRun_chipId (s : State) (e : Nat) (r : StreamRun) : (s.setRun e r).chipId = s.chipId := rfl
@[simp] theorem State.setRun_regs (s : State) (e : Nat) (r : StreamRun) : (s.setRun e r).regs = s.regs := rfl
@[simp] theorem State.setRun_tiles (s : State) (e : Nat) (r : StreamRun) : (s.setRun e r).tiles = s.tiles := rfl
@[simp] theorem State.setRun_mem (s : State) (e : Nat) (r : StreamRun) : (s.setRun e r).mem = s.mem := rfl
@[simp] theorem State.setRun_fab (s : State) (e : Nat) (r : StreamRun) : (s.setRun e r).fab = s.fab := rfl
@[simp] theorem State.setRun_clap (s : State) (e : Nat) (r : StreamRun) : (s.setRun e r).clap = s.clap := rfl
@[simp] theorem State.setRun_integ (s : State) (e : Nat) (r : StreamRun) : (s.setRun e r).integ = s.integ := rfl
@[simp] theorem State.setRun_pwr (s : State) (e : Nat) (r : StreamRun) : (s.setRun e r).pwr = s.pwr := rfl
@[simp] theorem State.setRun_shadow (s : State) (e : Nat) (r : StreamRun) : (s.setRun e r).shadow = s.shadow := rfl
@[simp] theorem State.setRun_sync (s : State) (e : Nat) (r : StreamRun) : (s.setRun e r).sync = s.sync := rfl
@[simp] theorem State.setRun_boot (s : State) (e : Nat) (r : StreamRun) : (s.setRun e r).boot = s.boot := rfl
@[simp] theorem State.setRun_pins (s : State) (e : Nat) (r : StreamRun) : (s.setRun e r).pins = s.pins := rfl
@[simp] theorem State.setRun_nv (s : State) (e : Nat) (r : StreamRun) : (s.setRun e r).nv = s.nv := rfl
@[simp] theorem State.setRun_peal (s : State) (e : Nat) (r : StreamRun) : (s.setRun e r).peal = s.peal := rfl
@[simp] theorem State.setRun_keys (s : State) (e : Nat) (r : StreamRun) : (s.setRun e r).keys = s.keys := rfl
@[simp] theorem State.setRun_mgmt (s : State) (e : Nat) (r : StreamRun) : (s.setRun e r).mgmt = s.mgmt := rfl
@[simp] theorem State.setRun_fe (s : State) (e : Nat) (r : StreamRun) : (s.setRun e r).fe = s.fe := rfl
@[simp] theorem State.setRun_ports (s : State) (e : Nat) (r : StreamRun) : (s.setRun e r).ports = s.ports := rfl
@[simp] theorem State.setRun_host (s : State) (e : Nat) (r : StreamRun) : (s.setRun e r).host = s.host := rfl
@[simp] theorem State.setRun_links (s : State) (e : Nat) (r : StreamRun) : (s.setRun e r).links = s.links := rfl
@[simp] theorem State.setRun_readData (s : State) (e : Nat) (r : StreamRun) : (s.setRun e r).readData = s.readData := rfl
@[simp] theorem State.setRun_lastStatus (s : State) (e : Nat) (r : StreamRun) : (s.setRun e r).lastStatus = s.lastStatus := rfl
@[simp] theorem State.setRun_free (s : State) (e : Nat) (r : StreamRun) : (s.setRun e r).free = s.free := rfl
@[simp] theorem State.setRun_rd (s : State) (e : Nat) (r : StreamRun) (k : Nat) : (s.setRun e r).rd k = s.rd k := rfl
@[simp] theorem State.setRun_tile (s : State) (e : Nat) (r : StreamRun) (p : Nat) : (s.setRun e r).tile p = s.tile p := rfl
@[simp] theorem State.setRun_ltile (s : State) (e : Nat) (r : StreamRun) (l : Nat) : (s.setRun e r).ltile l = s.ltile l := rfl
@[simp] theorem State.setRun_physOf (s : State) (e : Nat) (r : StreamRun) (l : Nat) : (s.setRun e r).physOf l = s.physOf l := rfl
@[simp] theorem State.setRun_mapState (s : State) (e : Nat) (r : StreamRun) (l : Nat) : (s.setRun e r).mapState l = s.mapState l := rfl
@[simp] theorem State.setRun_now (s : State) (e : Nat) (r : StreamRun) : (s.setRun e r).now = s.now := rfl
@[simp] theorem State.setRun_now32 (s : State) (e : Nat) (r : StreamRun) : (s.setRun e r).now32 = s.now32 := rfl

/-! ### onRun -/

@[simp] theorem State.onRun_pending (s : State) (e : Nat) (f : StreamRun → StreamRun) : (s.onRun e f).pending = s.pending := rfl
@[simp] theorem State.onRun_time (s : State) (e : Nat) (f : StreamRun → StreamRun) : (s.onRun e f).time = s.time := rfl
@[simp] theorem State.onRun_chipId (s : State) (e : Nat) (f : StreamRun → StreamRun) : (s.onRun e f).chipId = s.chipId := rfl
@[simp] theorem State.onRun_regs (s : State) (e : Nat) (f : StreamRun → StreamRun) : (s.onRun e f).regs = s.regs := rfl
@[simp] theorem State.onRun_tiles (s : State) (e : Nat) (f : StreamRun → StreamRun) : (s.onRun e f).tiles = s.tiles := rfl
@[simp] theorem State.onRun_mem (s : State) (e : Nat) (f : StreamRun → StreamRun) : (s.onRun e f).mem = s.mem := rfl
@[simp] theorem State.onRun_fab (s : State) (e : Nat) (f : StreamRun → StreamRun) : (s.onRun e f).fab = s.fab := rfl
@[simp] theorem State.onRun_clap (s : State) (e : Nat) (f : StreamRun → StreamRun) : (s.onRun e f).clap = s.clap := rfl
@[simp] theorem State.onRun_integ (s : State) (e : Nat) (f : StreamRun → StreamRun) : (s.onRun e f).integ = s.integ := rfl
@[simp] theorem State.onRun_pwr (s : State) (e : Nat) (f : StreamRun → StreamRun) : (s.onRun e f).pwr = s.pwr := rfl
@[simp] theorem State.onRun_shadow (s : State) (e : Nat) (f : StreamRun → StreamRun) : (s.onRun e f).shadow = s.shadow := rfl
@[simp] theorem State.onRun_sync (s : State) (e : Nat) (f : StreamRun → StreamRun) : (s.onRun e f).sync = s.sync := rfl
@[simp] theorem State.onRun_boot (s : State) (e : Nat) (f : StreamRun → StreamRun) : (s.onRun e f).boot = s.boot := rfl
@[simp] theorem State.onRun_pins (s : State) (e : Nat) (f : StreamRun → StreamRun) : (s.onRun e f).pins = s.pins := rfl
@[simp] theorem State.onRun_nv (s : State) (e : Nat) (f : StreamRun → StreamRun) : (s.onRun e f).nv = s.nv := rfl
@[simp] theorem State.onRun_peal (s : State) (e : Nat) (f : StreamRun → StreamRun) : (s.onRun e f).peal = s.peal := rfl
@[simp] theorem State.onRun_keys (s : State) (e : Nat) (f : StreamRun → StreamRun) : (s.onRun e f).keys = s.keys := rfl
@[simp] theorem State.onRun_mgmt (s : State) (e : Nat) (f : StreamRun → StreamRun) : (s.onRun e f).mgmt = s.mgmt := rfl
@[simp] theorem State.onRun_fe (s : State) (e : Nat) (f : StreamRun → StreamRun) : (s.onRun e f).fe = s.fe := rfl
@[simp] theorem State.onRun_ports (s : State) (e : Nat) (f : StreamRun → StreamRun) : (s.onRun e f).ports = s.ports := rfl
@[simp] theorem State.onRun_host (s : State) (e : Nat) (f : StreamRun → StreamRun) : (s.onRun e f).host = s.host := rfl
@[simp] theorem State.onRun_links (s : State) (e : Nat) (f : StreamRun → StreamRun) : (s.onRun e f).links = s.links := rfl
@[simp] theorem State.onRun_readData (s : State) (e : Nat) (f : StreamRun → StreamRun) : (s.onRun e f).readData = s.readData := rfl
@[simp] theorem State.onRun_lastStatus (s : State) (e : Nat) (f : StreamRun → StreamRun) : (s.onRun e f).lastStatus = s.lastStatus := rfl
@[simp] theorem State.onRun_free (s : State) (e : Nat) (f : StreamRun → StreamRun) : (s.onRun e f).free = s.free := rfl
@[simp] theorem State.onRun_rd (s : State) (e : Nat) (f : StreamRun → StreamRun) (k : Nat) : (s.onRun e f).rd k = s.rd k := rfl
@[simp] theorem State.onRun_tile (s : State) (e : Nat) (f : StreamRun → StreamRun) (p : Nat) : (s.onRun e f).tile p = s.tile p := rfl
@[simp] theorem State.onRun_ltile (s : State) (e : Nat) (f : StreamRun → StreamRun) (l : Nat) : (s.onRun e f).ltile l = s.ltile l := rfl
@[simp] theorem State.onRun_physOf (s : State) (e : Nat) (f : StreamRun → StreamRun) (l : Nat) : (s.onRun e f).physOf l = s.physOf l := rfl
@[simp] theorem State.onRun_mapState (s : State) (e : Nat) (f : StreamRun → StreamRun) (l : Nat) : (s.onRun e f).mapState l = s.mapState l := rfl
@[simp] theorem State.onRun_now (s : State) (e : Nat) (f : StreamRun → StreamRun) : (s.onRun e f).now = s.now := rfl
@[simp] theorem State.onRun_now32 (s : State) (e : Nat) (f : StreamRun → StreamRun) : (s.onRun e f).now32 = s.now32 := rfl

/-! ### onNv -/

@[simp] theorem State.onNv_pending (s : State) (f : Nv → Nv) : (s.onNv f).pending = s.pending := rfl
@[simp] theorem State.onNv_time (s : State) (f : Nv → Nv) : (s.onNv f).time = s.time := rfl
@[simp] theorem State.onNv_chipId (s : State) (f : Nv → Nv) : (s.onNv f).chipId = s.chipId := rfl
@[simp] theorem State.onNv_regs (s : State) (f : Nv → Nv) : (s.onNv f).regs = s.regs := rfl
@[simp] theorem State.onNv_tiles (s : State) (f : Nv → Nv) : (s.onNv f).tiles = s.tiles := rfl
@[simp] theorem State.onNv_mem (s : State) (f : Nv → Nv) : (s.onNv f).mem = s.mem := rfl
@[simp] theorem State.onNv_fab (s : State) (f : Nv → Nv) : (s.onNv f).fab = s.fab := rfl
@[simp] theorem State.onNv_clap (s : State) (f : Nv → Nv) : (s.onNv f).clap = s.clap := rfl
@[simp] theorem State.onNv_integ (s : State) (f : Nv → Nv) : (s.onNv f).integ = s.integ := rfl
@[simp] theorem State.onNv_cu (s : State) (f : Nv → Nv) : (s.onNv f).cu = s.cu := rfl
@[simp] theorem State.onNv_pwr (s : State) (f : Nv → Nv) : (s.onNv f).pwr = s.pwr := rfl
@[simp] theorem State.onNv_shadow (s : State) (f : Nv → Nv) : (s.onNv f).shadow = s.shadow := rfl
@[simp] theorem State.onNv_sync (s : State) (f : Nv → Nv) : (s.onNv f).sync = s.sync := rfl
@[simp] theorem State.onNv_boot (s : State) (f : Nv → Nv) : (s.onNv f).boot = s.boot := rfl
@[simp] theorem State.onNv_pins (s : State) (f : Nv → Nv) : (s.onNv f).pins = s.pins := rfl
@[simp] theorem State.onNv_peal (s : State) (f : Nv → Nv) : (s.onNv f).peal = s.peal := rfl
@[simp] theorem State.onNv_keys (s : State) (f : Nv → Nv) : (s.onNv f).keys = s.keys := rfl
@[simp] theorem State.onNv_mgmt (s : State) (f : Nv → Nv) : (s.onNv f).mgmt = s.mgmt := rfl
@[simp] theorem State.onNv_fe (s : State) (f : Nv → Nv) : (s.onNv f).fe = s.fe := rfl
@[simp] theorem State.onNv_ports (s : State) (f : Nv → Nv) : (s.onNv f).ports = s.ports := rfl
@[simp] theorem State.onNv_host (s : State) (f : Nv → Nv) : (s.onNv f).host = s.host := rfl
@[simp] theorem State.onNv_links (s : State) (f : Nv → Nv) : (s.onNv f).links = s.links := rfl
@[simp] theorem State.onNv_readData (s : State) (f : Nv → Nv) : (s.onNv f).readData = s.readData := rfl
@[simp] theorem State.onNv_lastStatus (s : State) (f : Nv → Nv) : (s.onNv f).lastStatus = s.lastStatus := rfl
@[simp] theorem State.onNv_free (s : State) (f : Nv → Nv) : (s.onNv f).free = s.free := rfl
@[simp] theorem State.onNv_rd (s : State) (f : Nv → Nv) (k : Nat) : (s.onNv f).rd k = s.rd k := rfl
@[simp] theorem State.onNv_tile (s : State) (f : Nv → Nv) (p : Nat) : (s.onNv f).tile p = s.tile p := rfl
@[simp] theorem State.onNv_ltile (s : State) (f : Nv → Nv) (l : Nat) : (s.onNv f).ltile l = s.ltile l := rfl
@[simp] theorem State.onNv_physOf (s : State) (f : Nv → Nv) (l : Nat) : (s.onNv f).physOf l = s.physOf l := rfl
@[simp] theorem State.onNv_mapState (s : State) (f : Nv → Nv) (l : Nat) : (s.onNv f).mapState l = s.mapState l := rfl
@[simp] theorem State.onNv_now (s : State) (f : Nv → Nv) : (s.onNv f).now = s.now := rfl
@[simp] theorem State.onNv_now32 (s : State) (f : Nv → Nv) : (s.onNv f).now32 = s.now32 := rfl
@[simp] theorem State.onNv_run (s : State) (f : Nv → Nv) (e : Nat) : (s.onNv f).run e = s.run e := rfl

/-! ### onPwr -/

@[simp] theorem State.onPwr_pending (s : State) (f : Power → Power) : (s.onPwr f).pending = s.pending := rfl
@[simp] theorem State.onPwr_time (s : State) (f : Power → Power) : (s.onPwr f).time = s.time := rfl
@[simp] theorem State.onPwr_chipId (s : State) (f : Power → Power) : (s.onPwr f).chipId = s.chipId := rfl
@[simp] theorem State.onPwr_regs (s : State) (f : Power → Power) : (s.onPwr f).regs = s.regs := rfl
@[simp] theorem State.onPwr_tiles (s : State) (f : Power → Power) : (s.onPwr f).tiles = s.tiles := rfl
@[simp] theorem State.onPwr_mem (s : State) (f : Power → Power) : (s.onPwr f).mem = s.mem := rfl
@[simp] theorem State.onPwr_fab (s : State) (f : Power → Power) : (s.onPwr f).fab = s.fab := rfl
@[simp] theorem State.onPwr_clap (s : State) (f : Power → Power) : (s.onPwr f).clap = s.clap := rfl
@[simp] theorem State.onPwr_integ (s : State) (f : Power → Power) : (s.onPwr f).integ = s.integ := rfl
@[simp] theorem State.onPwr_cu (s : State) (f : Power → Power) : (s.onPwr f).cu = s.cu := rfl
@[simp] theorem State.onPwr_shadow (s : State) (f : Power → Power) : (s.onPwr f).shadow = s.shadow := rfl
@[simp] theorem State.onPwr_sync (s : State) (f : Power → Power) : (s.onPwr f).sync = s.sync := rfl
@[simp] theorem State.onPwr_boot (s : State) (f : Power → Power) : (s.onPwr f).boot = s.boot := rfl
@[simp] theorem State.onPwr_pins (s : State) (f : Power → Power) : (s.onPwr f).pins = s.pins := rfl
@[simp] theorem State.onPwr_nv (s : State) (f : Power → Power) : (s.onPwr f).nv = s.nv := rfl
@[simp] theorem State.onPwr_peal (s : State) (f : Power → Power) : (s.onPwr f).peal = s.peal := rfl
@[simp] theorem State.onPwr_keys (s : State) (f : Power → Power) : (s.onPwr f).keys = s.keys := rfl
@[simp] theorem State.onPwr_mgmt (s : State) (f : Power → Power) : (s.onPwr f).mgmt = s.mgmt := rfl
@[simp] theorem State.onPwr_fe (s : State) (f : Power → Power) : (s.onPwr f).fe = s.fe := rfl
@[simp] theorem State.onPwr_ports (s : State) (f : Power → Power) : (s.onPwr f).ports = s.ports := rfl
@[simp] theorem State.onPwr_host (s : State) (f : Power → Power) : (s.onPwr f).host = s.host := rfl
@[simp] theorem State.onPwr_links (s : State) (f : Power → Power) : (s.onPwr f).links = s.links := rfl
@[simp] theorem State.onPwr_readData (s : State) (f : Power → Power) : (s.onPwr f).readData = s.readData := rfl
@[simp] theorem State.onPwr_lastStatus (s : State) (f : Power → Power) : (s.onPwr f).lastStatus = s.lastStatus := rfl
@[simp] theorem State.onPwr_free (s : State) (f : Power → Power) : (s.onPwr f).free = s.free := rfl
@[simp] theorem State.onPwr_rd (s : State) (f : Power → Power) (k : Nat) : (s.onPwr f).rd k = s.rd k := rfl
@[simp] theorem State.onPwr_tile (s : State) (f : Power → Power) (p : Nat) : (s.onPwr f).tile p = s.tile p := rfl
@[simp] theorem State.onPwr_ltile (s : State) (f : Power → Power) (l : Nat) : (s.onPwr f).ltile l = s.ltile l := rfl
@[simp] theorem State.onPwr_physOf (s : State) (f : Power → Power) (l : Nat) : (s.onPwr f).physOf l = s.physOf l := rfl
@[simp] theorem State.onPwr_mapState (s : State) (f : Power → Power) (l : Nat) : (s.onPwr f).mapState l = s.mapState l := rfl
@[simp] theorem State.onPwr_now (s : State) (f : Power → Power) : (s.onPwr f).now = s.now := rfl
@[simp] theorem State.onPwr_now32 (s : State) (f : Power → Power) : (s.onPwr f).now32 = s.now32 := rfl
@[simp] theorem State.onPwr_run (s : State) (f : Power → Power) (e : Nat) : (s.onPwr f).run e = s.run e := rfl

/-! ### onPeal -/

@[simp] theorem State.onPeal_pending (s : State) (f : Peal → Peal) : (s.onPeal f).pending = s.pending := rfl
@[simp] theorem State.onPeal_time (s : State) (f : Peal → Peal) : (s.onPeal f).time = s.time := rfl
@[simp] theorem State.onPeal_chipId (s : State) (f : Peal → Peal) : (s.onPeal f).chipId = s.chipId := rfl
@[simp] theorem State.onPeal_regs (s : State) (f : Peal → Peal) : (s.onPeal f).regs = s.regs := rfl
@[simp] theorem State.onPeal_tiles (s : State) (f : Peal → Peal) : (s.onPeal f).tiles = s.tiles := rfl
@[simp] theorem State.onPeal_mem (s : State) (f : Peal → Peal) : (s.onPeal f).mem = s.mem := rfl
@[simp] theorem State.onPeal_fab (s : State) (f : Peal → Peal) : (s.onPeal f).fab = s.fab := rfl
@[simp] theorem State.onPeal_clap (s : State) (f : Peal → Peal) : (s.onPeal f).clap = s.clap := rfl
@[simp] theorem State.onPeal_integ (s : State) (f : Peal → Peal) : (s.onPeal f).integ = s.integ := rfl
@[simp] theorem State.onPeal_cu (s : State) (f : Peal → Peal) : (s.onPeal f).cu = s.cu := rfl
@[simp] theorem State.onPeal_pwr (s : State) (f : Peal → Peal) : (s.onPeal f).pwr = s.pwr := rfl
@[simp] theorem State.onPeal_shadow (s : State) (f : Peal → Peal) : (s.onPeal f).shadow = s.shadow := rfl
@[simp] theorem State.onPeal_sync (s : State) (f : Peal → Peal) : (s.onPeal f).sync = s.sync := rfl
@[simp] theorem State.onPeal_boot (s : State) (f : Peal → Peal) : (s.onPeal f).boot = s.boot := rfl
@[simp] theorem State.onPeal_pins (s : State) (f : Peal → Peal) : (s.onPeal f).pins = s.pins := rfl
@[simp] theorem State.onPeal_nv (s : State) (f : Peal → Peal) : (s.onPeal f).nv = s.nv := rfl
@[simp] theorem State.onPeal_keys (s : State) (f : Peal → Peal) : (s.onPeal f).keys = s.keys := rfl
@[simp] theorem State.onPeal_mgmt (s : State) (f : Peal → Peal) : (s.onPeal f).mgmt = s.mgmt := rfl
@[simp] theorem State.onPeal_fe (s : State) (f : Peal → Peal) : (s.onPeal f).fe = s.fe := rfl
@[simp] theorem State.onPeal_ports (s : State) (f : Peal → Peal) : (s.onPeal f).ports = s.ports := rfl
@[simp] theorem State.onPeal_host (s : State) (f : Peal → Peal) : (s.onPeal f).host = s.host := rfl
@[simp] theorem State.onPeal_links (s : State) (f : Peal → Peal) : (s.onPeal f).links = s.links := rfl
@[simp] theorem State.onPeal_readData (s : State) (f : Peal → Peal) : (s.onPeal f).readData = s.readData := rfl
@[simp] theorem State.onPeal_lastStatus (s : State) (f : Peal → Peal) : (s.onPeal f).lastStatus = s.lastStatus := rfl
@[simp] theorem State.onPeal_free (s : State) (f : Peal → Peal) : (s.onPeal f).free = s.free := rfl
@[simp] theorem State.onPeal_rd (s : State) (f : Peal → Peal) (k : Nat) : (s.onPeal f).rd k = s.rd k := rfl
@[simp] theorem State.onPeal_tile (s : State) (f : Peal → Peal) (p : Nat) : (s.onPeal f).tile p = s.tile p := rfl
@[simp] theorem State.onPeal_ltile (s : State) (f : Peal → Peal) (l : Nat) : (s.onPeal f).ltile l = s.ltile l := rfl
@[simp] theorem State.onPeal_physOf (s : State) (f : Peal → Peal) (l : Nat) : (s.onPeal f).physOf l = s.physOf l := rfl
@[simp] theorem State.onPeal_mapState (s : State) (f : Peal → Peal) (l : Nat) : (s.onPeal f).mapState l = s.mapState l := rfl
@[simp] theorem State.onPeal_now (s : State) (f : Peal → Peal) : (s.onPeal f).now = s.now := rfl
@[simp] theorem State.onPeal_now32 (s : State) (f : Peal → Peal) : (s.onPeal f).now32 = s.now32 := rfl
@[simp] theorem State.onPeal_run (s : State) (f : Peal → Peal) (e : Nat) : (s.onPeal f).run e = s.run e := rfl

/-! ### onKeys -/

@[simp] theorem State.onKeys_pending (s : State) (f : Keys → Keys) : (s.onKeys f).pending = s.pending := rfl
@[simp] theorem State.onKeys_time (s : State) (f : Keys → Keys) : (s.onKeys f).time = s.time := rfl
@[simp] theorem State.onKeys_chipId (s : State) (f : Keys → Keys) : (s.onKeys f).chipId = s.chipId := rfl
@[simp] theorem State.onKeys_regs (s : State) (f : Keys → Keys) : (s.onKeys f).regs = s.regs := rfl
@[simp] theorem State.onKeys_tiles (s : State) (f : Keys → Keys) : (s.onKeys f).tiles = s.tiles := rfl
@[simp] theorem State.onKeys_mem (s : State) (f : Keys → Keys) : (s.onKeys f).mem = s.mem := rfl
@[simp] theorem State.onKeys_fab (s : State) (f : Keys → Keys) : (s.onKeys f).fab = s.fab := rfl
@[simp] theorem State.onKeys_clap (s : State) (f : Keys → Keys) : (s.onKeys f).clap = s.clap := rfl
@[simp] theorem State.onKeys_integ (s : State) (f : Keys → Keys) : (s.onKeys f).integ = s.integ := rfl
@[simp] theorem State.onKeys_cu (s : State) (f : Keys → Keys) : (s.onKeys f).cu = s.cu := rfl
@[simp] theorem State.onKeys_pwr (s : State) (f : Keys → Keys) : (s.onKeys f).pwr = s.pwr := rfl
@[simp] theorem State.onKeys_shadow (s : State) (f : Keys → Keys) : (s.onKeys f).shadow = s.shadow := rfl
@[simp] theorem State.onKeys_sync (s : State) (f : Keys → Keys) : (s.onKeys f).sync = s.sync := rfl
@[simp] theorem State.onKeys_boot (s : State) (f : Keys → Keys) : (s.onKeys f).boot = s.boot := rfl
@[simp] theorem State.onKeys_pins (s : State) (f : Keys → Keys) : (s.onKeys f).pins = s.pins := rfl
@[simp] theorem State.onKeys_nv (s : State) (f : Keys → Keys) : (s.onKeys f).nv = s.nv := rfl
@[simp] theorem State.onKeys_peal (s : State) (f : Keys → Keys) : (s.onKeys f).peal = s.peal := rfl
@[simp] theorem State.onKeys_mgmt (s : State) (f : Keys → Keys) : (s.onKeys f).mgmt = s.mgmt := rfl
@[simp] theorem State.onKeys_fe (s : State) (f : Keys → Keys) : (s.onKeys f).fe = s.fe := rfl
@[simp] theorem State.onKeys_ports (s : State) (f : Keys → Keys) : (s.onKeys f).ports = s.ports := rfl
@[simp] theorem State.onKeys_host (s : State) (f : Keys → Keys) : (s.onKeys f).host = s.host := rfl
@[simp] theorem State.onKeys_links (s : State) (f : Keys → Keys) : (s.onKeys f).links = s.links := rfl
@[simp] theorem State.onKeys_readData (s : State) (f : Keys → Keys) : (s.onKeys f).readData = s.readData := rfl
@[simp] theorem State.onKeys_lastStatus (s : State) (f : Keys → Keys) : (s.onKeys f).lastStatus = s.lastStatus := rfl
@[simp] theorem State.onKeys_free (s : State) (f : Keys → Keys) : (s.onKeys f).free = s.free := rfl
@[simp] theorem State.onKeys_rd (s : State) (f : Keys → Keys) (k : Nat) : (s.onKeys f).rd k = s.rd k := rfl
@[simp] theorem State.onKeys_tile (s : State) (f : Keys → Keys) (p : Nat) : (s.onKeys f).tile p = s.tile p := rfl
@[simp] theorem State.onKeys_ltile (s : State) (f : Keys → Keys) (l : Nat) : (s.onKeys f).ltile l = s.ltile l := rfl
@[simp] theorem State.onKeys_physOf (s : State) (f : Keys → Keys) (l : Nat) : (s.onKeys f).physOf l = s.physOf l := rfl
@[simp] theorem State.onKeys_mapState (s : State) (f : Keys → Keys) (l : Nat) : (s.onKeys f).mapState l = s.mapState l := rfl
@[simp] theorem State.onKeys_now (s : State) (f : Keys → Keys) : (s.onKeys f).now = s.now := rfl
@[simp] theorem State.onKeys_now32 (s : State) (f : Keys → Keys) : (s.onKeys f).now32 = s.now32 := rfl
@[simp] theorem State.onKeys_run (s : State) (f : Keys → Keys) (e : Nat) : (s.onKeys f).run e = s.run e := rfl

/-! ### onMgmt -/

@[simp] theorem State.onMgmt_pending (s : State) (f : Mgmt → Mgmt) : (s.onMgmt f).pending = s.pending := rfl
@[simp] theorem State.onMgmt_time (s : State) (f : Mgmt → Mgmt) : (s.onMgmt f).time = s.time := rfl
@[simp] theorem State.onMgmt_chipId (s : State) (f : Mgmt → Mgmt) : (s.onMgmt f).chipId = s.chipId := rfl
@[simp] theorem State.onMgmt_regs (s : State) (f : Mgmt → Mgmt) : (s.onMgmt f).regs = s.regs := rfl
@[simp] theorem State.onMgmt_tiles (s : State) (f : Mgmt → Mgmt) : (s.onMgmt f).tiles = s.tiles := rfl
@[simp] theorem State.onMgmt_mem (s : State) (f : Mgmt → Mgmt) : (s.onMgmt f).mem = s.mem := rfl
@[simp] theorem State.onMgmt_fab (s : State) (f : Mgmt → Mgmt) : (s.onMgmt f).fab = s.fab := rfl
@[simp] theorem State.onMgmt_clap (s : State) (f : Mgmt → Mgmt) : (s.onMgmt f).clap = s.clap := rfl
@[simp] theorem State.onMgmt_integ (s : State) (f : Mgmt → Mgmt) : (s.onMgmt f).integ = s.integ := rfl
@[simp] theorem State.onMgmt_cu (s : State) (f : Mgmt → Mgmt) : (s.onMgmt f).cu = s.cu := rfl
@[simp] theorem State.onMgmt_pwr (s : State) (f : Mgmt → Mgmt) : (s.onMgmt f).pwr = s.pwr := rfl
@[simp] theorem State.onMgmt_shadow (s : State) (f : Mgmt → Mgmt) : (s.onMgmt f).shadow = s.shadow := rfl
@[simp] theorem State.onMgmt_sync (s : State) (f : Mgmt → Mgmt) : (s.onMgmt f).sync = s.sync := rfl
@[simp] theorem State.onMgmt_boot (s : State) (f : Mgmt → Mgmt) : (s.onMgmt f).boot = s.boot := rfl
@[simp] theorem State.onMgmt_pins (s : State) (f : Mgmt → Mgmt) : (s.onMgmt f).pins = s.pins := rfl
@[simp] theorem State.onMgmt_nv (s : State) (f : Mgmt → Mgmt) : (s.onMgmt f).nv = s.nv := rfl
@[simp] theorem State.onMgmt_peal (s : State) (f : Mgmt → Mgmt) : (s.onMgmt f).peal = s.peal := rfl
@[simp] theorem State.onMgmt_keys (s : State) (f : Mgmt → Mgmt) : (s.onMgmt f).keys = s.keys := rfl
@[simp] theorem State.onMgmt_fe (s : State) (f : Mgmt → Mgmt) : (s.onMgmt f).fe = s.fe := rfl
@[simp] theorem State.onMgmt_ports (s : State) (f : Mgmt → Mgmt) : (s.onMgmt f).ports = s.ports := rfl
@[simp] theorem State.onMgmt_host (s : State) (f : Mgmt → Mgmt) : (s.onMgmt f).host = s.host := rfl
@[simp] theorem State.onMgmt_links (s : State) (f : Mgmt → Mgmt) : (s.onMgmt f).links = s.links := rfl
@[simp] theorem State.onMgmt_readData (s : State) (f : Mgmt → Mgmt) : (s.onMgmt f).readData = s.readData := rfl
@[simp] theorem State.onMgmt_lastStatus (s : State) (f : Mgmt → Mgmt) : (s.onMgmt f).lastStatus = s.lastStatus := rfl
@[simp] theorem State.onMgmt_free (s : State) (f : Mgmt → Mgmt) : (s.onMgmt f).free = s.free := rfl
@[simp] theorem State.onMgmt_rd (s : State) (f : Mgmt → Mgmt) (k : Nat) : (s.onMgmt f).rd k = s.rd k := rfl
@[simp] theorem State.onMgmt_tile (s : State) (f : Mgmt → Mgmt) (p : Nat) : (s.onMgmt f).tile p = s.tile p := rfl
@[simp] theorem State.onMgmt_ltile (s : State) (f : Mgmt → Mgmt) (l : Nat) : (s.onMgmt f).ltile l = s.ltile l := rfl
@[simp] theorem State.onMgmt_physOf (s : State) (f : Mgmt → Mgmt) (l : Nat) : (s.onMgmt f).physOf l = s.physOf l := rfl
@[simp] theorem State.onMgmt_mapState (s : State) (f : Mgmt → Mgmt) (l : Nat) : (s.onMgmt f).mapState l = s.mapState l := rfl
@[simp] theorem State.onMgmt_now (s : State) (f : Mgmt → Mgmt) : (s.onMgmt f).now = s.now := rfl
@[simp] theorem State.onMgmt_now32 (s : State) (f : Mgmt → Mgmt) : (s.onMgmt f).now32 = s.now32 := rfl
@[simp] theorem State.onMgmt_run (s : State) (f : Mgmt → Mgmt) (e : Nat) : (s.onMgmt f).run e = s.run e := rfl

/-! ### onHost -/

@[simp] theorem State.onHost_pending (s : State) (f : HostPort → HostPort) : (s.onHost f).pending = s.pending := rfl
@[simp] theorem State.onHost_time (s : State) (f : HostPort → HostPort) : (s.onHost f).time = s.time := rfl
@[simp] theorem State.onHost_chipId (s : State) (f : HostPort → HostPort) : (s.onHost f).chipId = s.chipId := rfl
@[simp] theorem State.onHost_regs (s : State) (f : HostPort → HostPort) : (s.onHost f).regs = s.regs := rfl
@[simp] theorem State.onHost_tiles (s : State) (f : HostPort → HostPort) : (s.onHost f).tiles = s.tiles := rfl
@[simp] theorem State.onHost_mem (s : State) (f : HostPort → HostPort) : (s.onHost f).mem = s.mem := rfl
@[simp] theorem State.onHost_fab (s : State) (f : HostPort → HostPort) : (s.onHost f).fab = s.fab := rfl
@[simp] theorem State.onHost_clap (s : State) (f : HostPort → HostPort) : (s.onHost f).clap = s.clap := rfl
@[simp] theorem State.onHost_integ (s : State) (f : HostPort → HostPort) : (s.onHost f).integ = s.integ := rfl
@[simp] theorem State.onHost_cu (s : State) (f : HostPort → HostPort) : (s.onHost f).cu = s.cu := rfl
@[simp] theorem State.onHost_pwr (s : State) (f : HostPort → HostPort) : (s.onHost f).pwr = s.pwr := rfl
@[simp] theorem State.onHost_shadow (s : State) (f : HostPort → HostPort) : (s.onHost f).shadow = s.shadow := rfl
@[simp] theorem State.onHost_sync (s : State) (f : HostPort → HostPort) : (s.onHost f).sync = s.sync := rfl
@[simp] theorem State.onHost_boot (s : State) (f : HostPort → HostPort) : (s.onHost f).boot = s.boot := rfl
@[simp] theorem State.onHost_pins (s : State) (f : HostPort → HostPort) : (s.onHost f).pins = s.pins := rfl
@[simp] theorem State.onHost_nv (s : State) (f : HostPort → HostPort) : (s.onHost f).nv = s.nv := rfl
@[simp] theorem State.onHost_peal (s : State) (f : HostPort → HostPort) : (s.onHost f).peal = s.peal := rfl
@[simp] theorem State.onHost_keys (s : State) (f : HostPort → HostPort) : (s.onHost f).keys = s.keys := rfl
@[simp] theorem State.onHost_mgmt (s : State) (f : HostPort → HostPort) : (s.onHost f).mgmt = s.mgmt := rfl
@[simp] theorem State.onHost_fe (s : State) (f : HostPort → HostPort) : (s.onHost f).fe = s.fe := rfl
@[simp] theorem State.onHost_ports (s : State) (f : HostPort → HostPort) : (s.onHost f).ports = s.ports := rfl
@[simp] theorem State.onHost_links (s : State) (f : HostPort → HostPort) : (s.onHost f).links = s.links := rfl
@[simp] theorem State.onHost_readData (s : State) (f : HostPort → HostPort) : (s.onHost f).readData = s.readData := rfl
@[simp] theorem State.onHost_lastStatus (s : State) (f : HostPort → HostPort) : (s.onHost f).lastStatus = s.lastStatus := rfl
@[simp] theorem State.onHost_free (s : State) (f : HostPort → HostPort) : (s.onHost f).free = s.free := rfl
@[simp] theorem State.onHost_rd (s : State) (f : HostPort → HostPort) (k : Nat) : (s.onHost f).rd k = s.rd k := rfl
@[simp] theorem State.onHost_tile (s : State) (f : HostPort → HostPort) (p : Nat) : (s.onHost f).tile p = s.tile p := rfl
@[simp] theorem State.onHost_ltile (s : State) (f : HostPort → HostPort) (l : Nat) : (s.onHost f).ltile l = s.ltile l := rfl
@[simp] theorem State.onHost_physOf (s : State) (f : HostPort → HostPort) (l : Nat) : (s.onHost f).physOf l = s.physOf l := rfl
@[simp] theorem State.onHost_mapState (s : State) (f : HostPort → HostPort) (l : Nat) : (s.onHost f).mapState l = s.mapState l := rfl
@[simp] theorem State.onHost_now (s : State) (f : HostPort → HostPort) : (s.onHost f).now = s.now := rfl
@[simp] theorem State.onHost_now32 (s : State) (f : HostPort → HostPort) : (s.onHost f).now32 = s.now32 := rfl
@[simp] theorem State.onHost_run (s : State) (f : HostPort → HostPort) (e : Nat) : (s.onHost f).run e = s.run e := rfl

/-! ### onTap -/

@[simp] theorem State.onTap_pending (s : State) (f : Tap → Tap) : (s.onTap f).pending = s.pending := rfl
@[simp] theorem State.onTap_time (s : State) (f : Tap → Tap) : (s.onTap f).time = s.time := rfl
@[simp] theorem State.onTap_chipId (s : State) (f : Tap → Tap) : (s.onTap f).chipId = s.chipId := rfl
@[simp] theorem State.onTap_regs (s : State) (f : Tap → Tap) : (s.onTap f).regs = s.regs := rfl
@[simp] theorem State.onTap_tiles (s : State) (f : Tap → Tap) : (s.onTap f).tiles = s.tiles := rfl
@[simp] theorem State.onTap_mem (s : State) (f : Tap → Tap) : (s.onTap f).mem = s.mem := rfl
@[simp] theorem State.onTap_fab (s : State) (f : Tap → Tap) : (s.onTap f).fab = s.fab := rfl
@[simp] theorem State.onTap_clap (s : State) (f : Tap → Tap) : (s.onTap f).clap = s.clap := rfl
@[simp] theorem State.onTap_integ (s : State) (f : Tap → Tap) : (s.onTap f).integ = s.integ := rfl
@[simp] theorem State.onTap_cu (s : State) (f : Tap → Tap) : (s.onTap f).cu = s.cu := rfl
@[simp] theorem State.onTap_pwr (s : State) (f : Tap → Tap) : (s.onTap f).pwr = s.pwr := rfl
@[simp] theorem State.onTap_shadow (s : State) (f : Tap → Tap) : (s.onTap f).shadow = s.shadow := rfl
@[simp] theorem State.onTap_sync (s : State) (f : Tap → Tap) : (s.onTap f).sync = s.sync := rfl
@[simp] theorem State.onTap_pins (s : State) (f : Tap → Tap) : (s.onTap f).pins = s.pins := rfl
@[simp] theorem State.onTap_nv (s : State) (f : Tap → Tap) : (s.onTap f).nv = s.nv := rfl
@[simp] theorem State.onTap_peal (s : State) (f : Tap → Tap) : (s.onTap f).peal = s.peal := rfl
@[simp] theorem State.onTap_keys (s : State) (f : Tap → Tap) : (s.onTap f).keys = s.keys := rfl
@[simp] theorem State.onTap_mgmt (s : State) (f : Tap → Tap) : (s.onTap f).mgmt = s.mgmt := rfl
@[simp] theorem State.onTap_fe (s : State) (f : Tap → Tap) : (s.onTap f).fe = s.fe := rfl
@[simp] theorem State.onTap_ports (s : State) (f : Tap → Tap) : (s.onTap f).ports = s.ports := rfl
@[simp] theorem State.onTap_host (s : State) (f : Tap → Tap) : (s.onTap f).host = s.host := rfl
@[simp] theorem State.onTap_links (s : State) (f : Tap → Tap) : (s.onTap f).links = s.links := rfl
@[simp] theorem State.onTap_readData (s : State) (f : Tap → Tap) : (s.onTap f).readData = s.readData := rfl
@[simp] theorem State.onTap_lastStatus (s : State) (f : Tap → Tap) : (s.onTap f).lastStatus = s.lastStatus := rfl
@[simp] theorem State.onTap_free (s : State) (f : Tap → Tap) : (s.onTap f).free = s.free := rfl
@[simp] theorem State.onTap_rd (s : State) (f : Tap → Tap) (k : Nat) : (s.onTap f).rd k = s.rd k := rfl
@[simp] theorem State.onTap_tile (s : State) (f : Tap → Tap) (p : Nat) : (s.onTap f).tile p = s.tile p := rfl
@[simp] theorem State.onTap_ltile (s : State) (f : Tap → Tap) (l : Nat) : (s.onTap f).ltile l = s.ltile l := rfl
@[simp] theorem State.onTap_physOf (s : State) (f : Tap → Tap) (l : Nat) : (s.onTap f).physOf l = s.physOf l := rfl
@[simp] theorem State.onTap_mapState (s : State) (f : Tap → Tap) (l : Nat) : (s.onTap f).mapState l = s.mapState l := rfl
@[simp] theorem State.onTap_now (s : State) (f : Tap → Tap) : (s.onTap f).now = s.now := rfl
@[simp] theorem State.onTap_now32 (s : State) (f : Tap → Tap) : (s.onTap f).now32 = s.now32 := rfl
@[simp] theorem State.onTap_run (s : State) (f : Tap → Tap) (e : Nat) : (s.onTap f).run e = s.run e := rfl

/-! ### onGrp -/

@[simp] theorem State.onGrp_pending (s : State) (g : Nat) (f : FeGroup → FeGroup) : (s.onGrp g f).pending = s.pending := rfl
@[simp] theorem State.onGrp_time (s : State) (g : Nat) (f : FeGroup → FeGroup) : (s.onGrp g f).time = s.time := rfl
@[simp] theorem State.onGrp_chipId (s : State) (g : Nat) (f : FeGroup → FeGroup) : (s.onGrp g f).chipId = s.chipId := rfl
@[simp] theorem State.onGrp_regs (s : State) (g : Nat) (f : FeGroup → FeGroup) : (s.onGrp g f).regs = s.regs := rfl
@[simp] theorem State.onGrp_tiles (s : State) (g : Nat) (f : FeGroup → FeGroup) : (s.onGrp g f).tiles = s.tiles := rfl
@[simp] theorem State.onGrp_mem (s : State) (g : Nat) (f : FeGroup → FeGroup) : (s.onGrp g f).mem = s.mem := rfl
@[simp] theorem State.onGrp_fab (s : State) (g : Nat) (f : FeGroup → FeGroup) : (s.onGrp g f).fab = s.fab := rfl
@[simp] theorem State.onGrp_clap (s : State) (g : Nat) (f : FeGroup → FeGroup) : (s.onGrp g f).clap = s.clap := rfl
@[simp] theorem State.onGrp_integ (s : State) (g : Nat) (f : FeGroup → FeGroup) : (s.onGrp g f).integ = s.integ := rfl
@[simp] theorem State.onGrp_cu (s : State) (g : Nat) (f : FeGroup → FeGroup) : (s.onGrp g f).cu = s.cu := rfl
@[simp] theorem State.onGrp_pwr (s : State) (g : Nat) (f : FeGroup → FeGroup) : (s.onGrp g f).pwr = s.pwr := rfl
@[simp] theorem State.onGrp_shadow (s : State) (g : Nat) (f : FeGroup → FeGroup) : (s.onGrp g f).shadow = s.shadow := rfl
@[simp] theorem State.onGrp_sync (s : State) (g : Nat) (f : FeGroup → FeGroup) : (s.onGrp g f).sync = s.sync := rfl
@[simp] theorem State.onGrp_boot (s : State) (g : Nat) (f : FeGroup → FeGroup) : (s.onGrp g f).boot = s.boot := rfl
@[simp] theorem State.onGrp_pins (s : State) (g : Nat) (f : FeGroup → FeGroup) : (s.onGrp g f).pins = s.pins := rfl
@[simp] theorem State.onGrp_nv (s : State) (g : Nat) (f : FeGroup → FeGroup) : (s.onGrp g f).nv = s.nv := rfl
@[simp] theorem State.onGrp_peal (s : State) (g : Nat) (f : FeGroup → FeGroup) : (s.onGrp g f).peal = s.peal := rfl
@[simp] theorem State.onGrp_keys (s : State) (g : Nat) (f : FeGroup → FeGroup) : (s.onGrp g f).keys = s.keys := rfl
@[simp] theorem State.onGrp_mgmt (s : State) (g : Nat) (f : FeGroup → FeGroup) : (s.onGrp g f).mgmt = s.mgmt := rfl
@[simp] theorem State.onGrp_ports (s : State) (g : Nat) (f : FeGroup → FeGroup) : (s.onGrp g f).ports = s.ports := rfl
@[simp] theorem State.onGrp_host (s : State) (g : Nat) (f : FeGroup → FeGroup) : (s.onGrp g f).host = s.host := rfl
@[simp] theorem State.onGrp_links (s : State) (g : Nat) (f : FeGroup → FeGroup) : (s.onGrp g f).links = s.links := rfl
@[simp] theorem State.onGrp_readData (s : State) (g : Nat) (f : FeGroup → FeGroup) : (s.onGrp g f).readData = s.readData := rfl
@[simp] theorem State.onGrp_lastStatus (s : State) (g : Nat) (f : FeGroup → FeGroup) : (s.onGrp g f).lastStatus = s.lastStatus := rfl
@[simp] theorem State.onGrp_free (s : State) (g : Nat) (f : FeGroup → FeGroup) : (s.onGrp g f).free = s.free := rfl
@[simp] theorem State.onGrp_rd (s : State) (g : Nat) (f : FeGroup → FeGroup) (k : Nat) : (s.onGrp g f).rd k = s.rd k := rfl
@[simp] theorem State.onGrp_tile (s : State) (g : Nat) (f : FeGroup → FeGroup) (p : Nat) : (s.onGrp g f).tile p = s.tile p := rfl
@[simp] theorem State.onGrp_ltile (s : State) (g : Nat) (f : FeGroup → FeGroup) (l : Nat) : (s.onGrp g f).ltile l = s.ltile l := rfl
@[simp] theorem State.onGrp_physOf (s : State) (g : Nat) (f : FeGroup → FeGroup) (l : Nat) : (s.onGrp g f).physOf l = s.physOf l := rfl
@[simp] theorem State.onGrp_mapState (s : State) (g : Nat) (f : FeGroup → FeGroup) (l : Nat) : (s.onGrp g f).mapState l = s.mapState l := rfl
@[simp] theorem State.onGrp_now (s : State) (g : Nat) (f : FeGroup → FeGroup) : (s.onGrp g f).now = s.now := rfl
@[simp] theorem State.onGrp_now32 (s : State) (g : Nat) (f : FeGroup → FeGroup) : (s.onGrp g f).now32 = s.now32 := rfl
@[simp] theorem State.onGrp_run (s : State) (g : Nat) (f : FeGroup → FeGroup) (e : Nat) : (s.onGrp g f).run e = s.run e := rfl

/-! ### onPath -/

@[simp] theorem State.onPath_pending (s : State) (c : Nat) (f : DcPath → DcPath) : (s.onPath c f).pending = s.pending := rfl
@[simp] theorem State.onPath_time (s : State) (c : Nat) (f : DcPath → DcPath) : (s.onPath c f).time = s.time := rfl
@[simp] theorem State.onPath_chipId (s : State) (c : Nat) (f : DcPath → DcPath) : (s.onPath c f).chipId = s.chipId := rfl
@[simp] theorem State.onPath_regs (s : State) (c : Nat) (f : DcPath → DcPath) : (s.onPath c f).regs = s.regs := rfl
@[simp] theorem State.onPath_tiles (s : State) (c : Nat) (f : DcPath → DcPath) : (s.onPath c f).tiles = s.tiles := rfl
@[simp] theorem State.onPath_mem (s : State) (c : Nat) (f : DcPath → DcPath) : (s.onPath c f).mem = s.mem := rfl
@[simp] theorem State.onPath_fab (s : State) (c : Nat) (f : DcPath → DcPath) : (s.onPath c f).fab = s.fab := rfl
@[simp] theorem State.onPath_clap (s : State) (c : Nat) (f : DcPath → DcPath) : (s.onPath c f).clap = s.clap := rfl
@[simp] theorem State.onPath_integ (s : State) (c : Nat) (f : DcPath → DcPath) : (s.onPath c f).integ = s.integ := rfl
@[simp] theorem State.onPath_cu (s : State) (c : Nat) (f : DcPath → DcPath) : (s.onPath c f).cu = s.cu := rfl
@[simp] theorem State.onPath_pwr (s : State) (c : Nat) (f : DcPath → DcPath) : (s.onPath c f).pwr = s.pwr := rfl
@[simp] theorem State.onPath_shadow (s : State) (c : Nat) (f : DcPath → DcPath) : (s.onPath c f).shadow = s.shadow := rfl
@[simp] theorem State.onPath_sync (s : State) (c : Nat) (f : DcPath → DcPath) : (s.onPath c f).sync = s.sync := rfl
@[simp] theorem State.onPath_boot (s : State) (c : Nat) (f : DcPath → DcPath) : (s.onPath c f).boot = s.boot := rfl
@[simp] theorem State.onPath_pins (s : State) (c : Nat) (f : DcPath → DcPath) : (s.onPath c f).pins = s.pins := rfl
@[simp] theorem State.onPath_nv (s : State) (c : Nat) (f : DcPath → DcPath) : (s.onPath c f).nv = s.nv := rfl
@[simp] theorem State.onPath_peal (s : State) (c : Nat) (f : DcPath → DcPath) : (s.onPath c f).peal = s.peal := rfl
@[simp] theorem State.onPath_keys (s : State) (c : Nat) (f : DcPath → DcPath) : (s.onPath c f).keys = s.keys := rfl
@[simp] theorem State.onPath_mgmt (s : State) (c : Nat) (f : DcPath → DcPath) : (s.onPath c f).mgmt = s.mgmt := rfl
@[simp] theorem State.onPath_ports (s : State) (c : Nat) (f : DcPath → DcPath) : (s.onPath c f).ports = s.ports := rfl
@[simp] theorem State.onPath_host (s : State) (c : Nat) (f : DcPath → DcPath) : (s.onPath c f).host = s.host := rfl
@[simp] theorem State.onPath_links (s : State) (c : Nat) (f : DcPath → DcPath) : (s.onPath c f).links = s.links := rfl
@[simp] theorem State.onPath_readData (s : State) (c : Nat) (f : DcPath → DcPath) : (s.onPath c f).readData = s.readData := rfl
@[simp] theorem State.onPath_lastStatus (s : State) (c : Nat) (f : DcPath → DcPath) : (s.onPath c f).lastStatus = s.lastStatus := rfl
@[simp] theorem State.onPath_free (s : State) (c : Nat) (f : DcPath → DcPath) : (s.onPath c f).free = s.free := rfl
@[simp] theorem State.onPath_rd (s : State) (c : Nat) (f : DcPath → DcPath) (k : Nat) : (s.onPath c f).rd k = s.rd k := rfl
@[simp] theorem State.onPath_tile (s : State) (c : Nat) (f : DcPath → DcPath) (p : Nat) : (s.onPath c f).tile p = s.tile p := rfl
@[simp] theorem State.onPath_ltile (s : State) (c : Nat) (f : DcPath → DcPath) (l : Nat) : (s.onPath c f).ltile l = s.ltile l := rfl
@[simp] theorem State.onPath_physOf (s : State) (c : Nat) (f : DcPath → DcPath) (l : Nat) : (s.onPath c f).physOf l = s.physOf l := rfl
@[simp] theorem State.onPath_mapState (s : State) (c : Nat) (f : DcPath → DcPath) (l : Nat) : (s.onPath c f).mapState l = s.mapState l := rfl
@[simp] theorem State.onPath_now (s : State) (c : Nat) (f : DcPath → DcPath) : (s.onPath c f).now = s.now := rfl
@[simp] theorem State.onPath_now32 (s : State) (c : Nat) (f : DcPath → DcPath) : (s.onPath c f).now32 = s.now32 := rfl
@[simp] theorem State.onPath_run (s : State) (c : Nat) (f : DcPath → DcPath) (e : Nat) : (s.onPath c f).run e = s.run e := rfl

/-! ### setTh -/

@[simp] theorem State.setTh_pending (s : State) (c u : Nat) (t : ThUnit) : (s.setTh c u t).pending = s.pending := rfl
@[simp] theorem State.setTh_time (s : State) (c u : Nat) (t : ThUnit) : (s.setTh c u t).time = s.time := rfl
@[simp] theorem State.setTh_chipId (s : State) (c u : Nat) (t : ThUnit) : (s.setTh c u t).chipId = s.chipId := rfl
@[simp] theorem State.setTh_regs (s : State) (c u : Nat) (t : ThUnit) : (s.setTh c u t).regs = s.regs := rfl
@[simp] theorem State.setTh_tiles (s : State) (c u : Nat) (t : ThUnit) : (s.setTh c u t).tiles = s.tiles := rfl
@[simp] theorem State.setTh_mem (s : State) (c u : Nat) (t : ThUnit) : (s.setTh c u t).mem = s.mem := rfl
@[simp] theorem State.setTh_fab (s : State) (c u : Nat) (t : ThUnit) : (s.setTh c u t).fab = s.fab := rfl
@[simp] theorem State.setTh_clap (s : State) (c u : Nat) (t : ThUnit) : (s.setTh c u t).clap = s.clap := rfl
@[simp] theorem State.setTh_integ (s : State) (c u : Nat) (t : ThUnit) : (s.setTh c u t).integ = s.integ := rfl
@[simp] theorem State.setTh_cu (s : State) (c u : Nat) (t : ThUnit) : (s.setTh c u t).cu = s.cu := rfl
@[simp] theorem State.setTh_pwr (s : State) (c u : Nat) (t : ThUnit) : (s.setTh c u t).pwr = s.pwr := rfl
@[simp] theorem State.setTh_shadow (s : State) (c u : Nat) (t : ThUnit) : (s.setTh c u t).shadow = s.shadow := rfl
@[simp] theorem State.setTh_sync (s : State) (c u : Nat) (t : ThUnit) : (s.setTh c u t).sync = s.sync := rfl
@[simp] theorem State.setTh_boot (s : State) (c u : Nat) (t : ThUnit) : (s.setTh c u t).boot = s.boot := rfl
@[simp] theorem State.setTh_pins (s : State) (c u : Nat) (t : ThUnit) : (s.setTh c u t).pins = s.pins := rfl
@[simp] theorem State.setTh_nv (s : State) (c u : Nat) (t : ThUnit) : (s.setTh c u t).nv = s.nv := rfl
@[simp] theorem State.setTh_peal (s : State) (c u : Nat) (t : ThUnit) : (s.setTh c u t).peal = s.peal := rfl
@[simp] theorem State.setTh_keys (s : State) (c u : Nat) (t : ThUnit) : (s.setTh c u t).keys = s.keys := rfl
@[simp] theorem State.setTh_mgmt (s : State) (c u : Nat) (t : ThUnit) : (s.setTh c u t).mgmt = s.mgmt := rfl
@[simp] theorem State.setTh_ports (s : State) (c u : Nat) (t : ThUnit) : (s.setTh c u t).ports = s.ports := rfl
@[simp] theorem State.setTh_host (s : State) (c u : Nat) (t : ThUnit) : (s.setTh c u t).host = s.host := rfl
@[simp] theorem State.setTh_links (s : State) (c u : Nat) (t : ThUnit) : (s.setTh c u t).links = s.links := rfl
@[simp] theorem State.setTh_readData (s : State) (c u : Nat) (t : ThUnit) : (s.setTh c u t).readData = s.readData := rfl
@[simp] theorem State.setTh_lastStatus (s : State) (c u : Nat) (t : ThUnit) : (s.setTh c u t).lastStatus = s.lastStatus := rfl
@[simp] theorem State.setTh_free (s : State) (c u : Nat) (t : ThUnit) : (s.setTh c u t).free = s.free := rfl
@[simp] theorem State.setTh_rd (s : State) (c u : Nat) (t : ThUnit) (k : Nat) : (s.setTh c u t).rd k = s.rd k := rfl
@[simp] theorem State.setTh_tile (s : State) (c u : Nat) (t : ThUnit) (p : Nat) : (s.setTh c u t).tile p = s.tile p := rfl
@[simp] theorem State.setTh_ltile (s : State) (c u : Nat) (t : ThUnit) (l : Nat) : (s.setTh c u t).ltile l = s.ltile l := rfl
@[simp] theorem State.setTh_physOf (s : State) (c u : Nat) (t : ThUnit) (l : Nat) : (s.setTh c u t).physOf l = s.physOf l := rfl
@[simp] theorem State.setTh_mapState (s : State) (c u : Nat) (t : ThUnit) (l : Nat) : (s.setTh c u t).mapState l = s.mapState l := rfl
@[simp] theorem State.setTh_now (s : State) (c u : Nat) (t : ThUnit) : (s.setTh c u t).now = s.now := rfl
@[simp] theorem State.setTh_now32 (s : State) (c u : Nat) (t : ThUnit) : (s.setTh c u t).now32 = s.now32 := rfl
@[simp] theorem State.setTh_run (s : State) (c u : Nat) (t : ThUnit) (e : Nat) : (s.setTh c u t).run e = s.run e := rfl

/-! ### onTdm -/

@[simp] theorem State.onTdm_pending (s : State) (c : Nat) (f : TdmPort → TdmPort) : (s.onTdm c f).pending = s.pending := rfl
@[simp] theorem State.onTdm_time (s : State) (c : Nat) (f : TdmPort → TdmPort) : (s.onTdm c f).time = s.time := rfl
@[simp] theorem State.onTdm_chipId (s : State) (c : Nat) (f : TdmPort → TdmPort) : (s.onTdm c f).chipId = s.chipId := rfl
@[simp] theorem State.onTdm_regs (s : State) (c : Nat) (f : TdmPort → TdmPort) : (s.onTdm c f).regs = s.regs := rfl
@[simp] theorem State.onTdm_tiles (s : State) (c : Nat) (f : TdmPort → TdmPort) : (s.onTdm c f).tiles = s.tiles := rfl
@[simp] theorem State.onTdm_mem (s : State) (c : Nat) (f : TdmPort → TdmPort) : (s.onTdm c f).mem = s.mem := rfl
@[simp] theorem State.onTdm_fab (s : State) (c : Nat) (f : TdmPort → TdmPort) : (s.onTdm c f).fab = s.fab := rfl
@[simp] theorem State.onTdm_clap (s : State) (c : Nat) (f : TdmPort → TdmPort) : (s.onTdm c f).clap = s.clap := rfl
@[simp] theorem State.onTdm_integ (s : State) (c : Nat) (f : TdmPort → TdmPort) : (s.onTdm c f).integ = s.integ := rfl
@[simp] theorem State.onTdm_cu (s : State) (c : Nat) (f : TdmPort → TdmPort) : (s.onTdm c f).cu = s.cu := rfl
@[simp] theorem State.onTdm_pwr (s : State) (c : Nat) (f : TdmPort → TdmPort) : (s.onTdm c f).pwr = s.pwr := rfl
@[simp] theorem State.onTdm_shadow (s : State) (c : Nat) (f : TdmPort → TdmPort) : (s.onTdm c f).shadow = s.shadow := rfl
@[simp] theorem State.onTdm_sync (s : State) (c : Nat) (f : TdmPort → TdmPort) : (s.onTdm c f).sync = s.sync := rfl
@[simp] theorem State.onTdm_boot (s : State) (c : Nat) (f : TdmPort → TdmPort) : (s.onTdm c f).boot = s.boot := rfl
@[simp] theorem State.onTdm_pins (s : State) (c : Nat) (f : TdmPort → TdmPort) : (s.onTdm c f).pins = s.pins := rfl
@[simp] theorem State.onTdm_nv (s : State) (c : Nat) (f : TdmPort → TdmPort) : (s.onTdm c f).nv = s.nv := rfl
@[simp] theorem State.onTdm_peal (s : State) (c : Nat) (f : TdmPort → TdmPort) : (s.onTdm c f).peal = s.peal := rfl
@[simp] theorem State.onTdm_keys (s : State) (c : Nat) (f : TdmPort → TdmPort) : (s.onTdm c f).keys = s.keys := rfl
@[simp] theorem State.onTdm_mgmt (s : State) (c : Nat) (f : TdmPort → TdmPort) : (s.onTdm c f).mgmt = s.mgmt := rfl
@[simp] theorem State.onTdm_fe (s : State) (c : Nat) (f : TdmPort → TdmPort) : (s.onTdm c f).fe = s.fe := rfl
@[simp] theorem State.onTdm_host (s : State) (c : Nat) (f : TdmPort → TdmPort) : (s.onTdm c f).host = s.host := rfl
@[simp] theorem State.onTdm_links (s : State) (c : Nat) (f : TdmPort → TdmPort) : (s.onTdm c f).links = s.links := rfl
@[simp] theorem State.onTdm_readData (s : State) (c : Nat) (f : TdmPort → TdmPort) : (s.onTdm c f).readData = s.readData := rfl
@[simp] theorem State.onTdm_lastStatus (s : State) (c : Nat) (f : TdmPort → TdmPort) : (s.onTdm c f).lastStatus = s.lastStatus := rfl
@[simp] theorem State.onTdm_free (s : State) (c : Nat) (f : TdmPort → TdmPort) : (s.onTdm c f).free = s.free := rfl
@[simp] theorem State.onTdm_rd (s : State) (c : Nat) (f : TdmPort → TdmPort) (k : Nat) : (s.onTdm c f).rd k = s.rd k := rfl
@[simp] theorem State.onTdm_tile (s : State) (c : Nat) (f : TdmPort → TdmPort) (p : Nat) : (s.onTdm c f).tile p = s.tile p := rfl
@[simp] theorem State.onTdm_ltile (s : State) (c : Nat) (f : TdmPort → TdmPort) (l : Nat) : (s.onTdm c f).ltile l = s.ltile l := rfl
@[simp] theorem State.onTdm_physOf (s : State) (c : Nat) (f : TdmPort → TdmPort) (l : Nat) : (s.onTdm c f).physOf l = s.physOf l := rfl
@[simp] theorem State.onTdm_mapState (s : State) (c : Nat) (f : TdmPort → TdmPort) (l : Nat) : (s.onTdm c f).mapState l = s.mapState l := rfl
@[simp] theorem State.onTdm_now (s : State) (c : Nat) (f : TdmPort → TdmPort) : (s.onTdm c f).now = s.now := rfl
@[simp] theorem State.onTdm_now32 (s : State) (c : Nat) (f : TdmPort → TdmPort) : (s.onTdm c f).now32 = s.now32 := rfl
@[simp] theorem State.onTdm_run (s : State) (c : Nat) (f : TdmPort → TdmPort) (e : Nat) : (s.onTdm c f).run e = s.run e := rfl

/-! ### onAer -/

@[simp] theorem State.onAer_pending (s : State) (c : Nat) (f : AePort → AePort) : (s.onAer c f).pending = s.pending := rfl
@[simp] theorem State.onAer_time (s : State) (c : Nat) (f : AePort → AePort) : (s.onAer c f).time = s.time := rfl
@[simp] theorem State.onAer_chipId (s : State) (c : Nat) (f : AePort → AePort) : (s.onAer c f).chipId = s.chipId := rfl
@[simp] theorem State.onAer_regs (s : State) (c : Nat) (f : AePort → AePort) : (s.onAer c f).regs = s.regs := rfl
@[simp] theorem State.onAer_tiles (s : State) (c : Nat) (f : AePort → AePort) : (s.onAer c f).tiles = s.tiles := rfl
@[simp] theorem State.onAer_mem (s : State) (c : Nat) (f : AePort → AePort) : (s.onAer c f).mem = s.mem := rfl
@[simp] theorem State.onAer_fab (s : State) (c : Nat) (f : AePort → AePort) : (s.onAer c f).fab = s.fab := rfl
@[simp] theorem State.onAer_clap (s : State) (c : Nat) (f : AePort → AePort) : (s.onAer c f).clap = s.clap := rfl
@[simp] theorem State.onAer_integ (s : State) (c : Nat) (f : AePort → AePort) : (s.onAer c f).integ = s.integ := rfl
@[simp] theorem State.onAer_cu (s : State) (c : Nat) (f : AePort → AePort) : (s.onAer c f).cu = s.cu := rfl
@[simp] theorem State.onAer_pwr (s : State) (c : Nat) (f : AePort → AePort) : (s.onAer c f).pwr = s.pwr := rfl
@[simp] theorem State.onAer_shadow (s : State) (c : Nat) (f : AePort → AePort) : (s.onAer c f).shadow = s.shadow := rfl
@[simp] theorem State.onAer_sync (s : State) (c : Nat) (f : AePort → AePort) : (s.onAer c f).sync = s.sync := rfl
@[simp] theorem State.onAer_boot (s : State) (c : Nat) (f : AePort → AePort) : (s.onAer c f).boot = s.boot := rfl
@[simp] theorem State.onAer_pins (s : State) (c : Nat) (f : AePort → AePort) : (s.onAer c f).pins = s.pins := rfl
@[simp] theorem State.onAer_nv (s : State) (c : Nat) (f : AePort → AePort) : (s.onAer c f).nv = s.nv := rfl
@[simp] theorem State.onAer_peal (s : State) (c : Nat) (f : AePort → AePort) : (s.onAer c f).peal = s.peal := rfl
@[simp] theorem State.onAer_keys (s : State) (c : Nat) (f : AePort → AePort) : (s.onAer c f).keys = s.keys := rfl
@[simp] theorem State.onAer_mgmt (s : State) (c : Nat) (f : AePort → AePort) : (s.onAer c f).mgmt = s.mgmt := rfl
@[simp] theorem State.onAer_fe (s : State) (c : Nat) (f : AePort → AePort) : (s.onAer c f).fe = s.fe := rfl
@[simp] theorem State.onAer_host (s : State) (c : Nat) (f : AePort → AePort) : (s.onAer c f).host = s.host := rfl
@[simp] theorem State.onAer_links (s : State) (c : Nat) (f : AePort → AePort) : (s.onAer c f).links = s.links := rfl
@[simp] theorem State.onAer_readData (s : State) (c : Nat) (f : AePort → AePort) : (s.onAer c f).readData = s.readData := rfl
@[simp] theorem State.onAer_lastStatus (s : State) (c : Nat) (f : AePort → AePort) : (s.onAer c f).lastStatus = s.lastStatus := rfl
@[simp] theorem State.onAer_free (s : State) (c : Nat) (f : AePort → AePort) : (s.onAer c f).free = s.free := rfl
@[simp] theorem State.onAer_rd (s : State) (c : Nat) (f : AePort → AePort) (k : Nat) : (s.onAer c f).rd k = s.rd k := rfl
@[simp] theorem State.onAer_tile (s : State) (c : Nat) (f : AePort → AePort) (p : Nat) : (s.onAer c f).tile p = s.tile p := rfl
@[simp] theorem State.onAer_ltile (s : State) (c : Nat) (f : AePort → AePort) (l : Nat) : (s.onAer c f).ltile l = s.ltile l := rfl
@[simp] theorem State.onAer_physOf (s : State) (c : Nat) (f : AePort → AePort) (l : Nat) : (s.onAer c f).physOf l = s.physOf l := rfl
@[simp] theorem State.onAer_mapState (s : State) (c : Nat) (f : AePort → AePort) (l : Nat) : (s.onAer c f).mapState l = s.mapState l := rfl
@[simp] theorem State.onAer_now (s : State) (c : Nat) (f : AePort → AePort) : (s.onAer c f).now = s.now := rfl
@[simp] theorem State.onAer_now32 (s : State) (c : Nat) (f : AePort → AePort) : (s.onAer c f).now32 = s.now32 := rfl
@[simp] theorem State.onAer_run (s : State) (c : Nat) (f : AePort → AePort) (e : Nat) : (s.onAer c f).run e = s.run e := rfl

/-! ### onPort -/

@[simp] theorem State.onPort_pending (s : State) (c : Nat) (f : LinkPort → LinkPort) : (s.onPort c f).pending = s.pending := rfl
@[simp] theorem State.onPort_time (s : State) (c : Nat) (f : LinkPort → LinkPort) : (s.onPort c f).time = s.time := rfl
@[simp] theorem State.onPort_chipId (s : State) (c : Nat) (f : LinkPort → LinkPort) : (s.onPort c f).chipId = s.chipId := rfl
@[simp] theorem State.onPort_regs (s : State) (c : Nat) (f : LinkPort → LinkPort) : (s.onPort c f).regs = s.regs := rfl
@[simp] theorem State.onPort_tiles (s : State) (c : Nat) (f : LinkPort → LinkPort) : (s.onPort c f).tiles = s.tiles := rfl
@[simp] theorem State.onPort_mem (s : State) (c : Nat) (f : LinkPort → LinkPort) : (s.onPort c f).mem = s.mem := rfl
@[simp] theorem State.onPort_fab (s : State) (c : Nat) (f : LinkPort → LinkPort) : (s.onPort c f).fab = s.fab := rfl
@[simp] theorem State.onPort_clap (s : State) (c : Nat) (f : LinkPort → LinkPort) : (s.onPort c f).clap = s.clap := rfl
@[simp] theorem State.onPort_integ (s : State) (c : Nat) (f : LinkPort → LinkPort) : (s.onPort c f).integ = s.integ := rfl
@[simp] theorem State.onPort_cu (s : State) (c : Nat) (f : LinkPort → LinkPort) : (s.onPort c f).cu = s.cu := rfl
@[simp] theorem State.onPort_pwr (s : State) (c : Nat) (f : LinkPort → LinkPort) : (s.onPort c f).pwr = s.pwr := rfl
@[simp] theorem State.onPort_shadow (s : State) (c : Nat) (f : LinkPort → LinkPort) : (s.onPort c f).shadow = s.shadow := rfl
@[simp] theorem State.onPort_sync (s : State) (c : Nat) (f : LinkPort → LinkPort) : (s.onPort c f).sync = s.sync := rfl
@[simp] theorem State.onPort_boot (s : State) (c : Nat) (f : LinkPort → LinkPort) : (s.onPort c f).boot = s.boot := rfl
@[simp] theorem State.onPort_pins (s : State) (c : Nat) (f : LinkPort → LinkPort) : (s.onPort c f).pins = s.pins := rfl
@[simp] theorem State.onPort_nv (s : State) (c : Nat) (f : LinkPort → LinkPort) : (s.onPort c f).nv = s.nv := rfl
@[simp] theorem State.onPort_peal (s : State) (c : Nat) (f : LinkPort → LinkPort) : (s.onPort c f).peal = s.peal := rfl
@[simp] theorem State.onPort_keys (s : State) (c : Nat) (f : LinkPort → LinkPort) : (s.onPort c f).keys = s.keys := rfl
@[simp] theorem State.onPort_mgmt (s : State) (c : Nat) (f : LinkPort → LinkPort) : (s.onPort c f).mgmt = s.mgmt := rfl
@[simp] theorem State.onPort_fe (s : State) (c : Nat) (f : LinkPort → LinkPort) : (s.onPort c f).fe = s.fe := rfl
@[simp] theorem State.onPort_ports (s : State) (c : Nat) (f : LinkPort → LinkPort) : (s.onPort c f).ports = s.ports := rfl
@[simp] theorem State.onPort_host (s : State) (c : Nat) (f : LinkPort → LinkPort) : (s.onPort c f).host = s.host := rfl
@[simp] theorem State.onPort_readData (s : State) (c : Nat) (f : LinkPort → LinkPort) : (s.onPort c f).readData = s.readData := rfl
@[simp] theorem State.onPort_lastStatus (s : State) (c : Nat) (f : LinkPort → LinkPort) : (s.onPort c f).lastStatus = s.lastStatus := rfl
@[simp] theorem State.onPort_free (s : State) (c : Nat) (f : LinkPort → LinkPort) : (s.onPort c f).free = s.free := rfl
@[simp] theorem State.onPort_rd (s : State) (c : Nat) (f : LinkPort → LinkPort) (k : Nat) : (s.onPort c f).rd k = s.rd k := rfl
@[simp] theorem State.onPort_tile (s : State) (c : Nat) (f : LinkPort → LinkPort) (p : Nat) : (s.onPort c f).tile p = s.tile p := rfl
@[simp] theorem State.onPort_ltile (s : State) (c : Nat) (f : LinkPort → LinkPort) (l : Nat) : (s.onPort c f).ltile l = s.ltile l := rfl
@[simp] theorem State.onPort_physOf (s : State) (c : Nat) (f : LinkPort → LinkPort) (l : Nat) : (s.onPort c f).physOf l = s.physOf l := rfl
@[simp] theorem State.onPort_mapState (s : State) (c : Nat) (f : LinkPort → LinkPort) (l : Nat) : (s.onPort c f).mapState l = s.mapState l := rfl
@[simp] theorem State.onPort_now (s : State) (c : Nat) (f : LinkPort → LinkPort) : (s.onPort c f).now = s.now := rfl
@[simp] theorem State.onPort_now32 (s : State) (c : Nat) (f : LinkPort → LinkPort) : (s.onPort c f).now32 = s.now32 := rfl
@[simp] theorem State.onPort_run (s : State) (c : Nat) (f : LinkPort → LinkPort) (e : Nat) : (s.onPort c f).run e = s.run e := rfl

/-! ### onCol -/

@[simp] theorem State.onCol_pending (s : State) (c : Nat) (f : Col → Col) : (s.onCol c f).pending = s.pending := rfl
@[simp] theorem State.onCol_time (s : State) (c : Nat) (f : Col → Col) : (s.onCol c f).time = s.time := rfl
@[simp] theorem State.onCol_chipId (s : State) (c : Nat) (f : Col → Col) : (s.onCol c f).chipId = s.chipId := rfl
@[simp] theorem State.onCol_regs (s : State) (c : Nat) (f : Col → Col) : (s.onCol c f).regs = s.regs := rfl
@[simp] theorem State.onCol_tiles (s : State) (c : Nat) (f : Col → Col) : (s.onCol c f).tiles = s.tiles := rfl
@[simp] theorem State.onCol_mem (s : State) (c : Nat) (f : Col → Col) : (s.onCol c f).mem = s.mem := rfl
@[simp] theorem State.onCol_fab (s : State) (c : Nat) (f : Col → Col) : (s.onCol c f).fab = s.fab := rfl
@[simp] theorem State.onCol_clap (s : State) (c : Nat) (f : Col → Col) : (s.onCol c f).clap = s.clap := rfl
@[simp] theorem State.onCol_cu (s : State) (c : Nat) (f : Col → Col) : (s.onCol c f).cu = s.cu := rfl
@[simp] theorem State.onCol_pwr (s : State) (c : Nat) (f : Col → Col) : (s.onCol c f).pwr = s.pwr := rfl
@[simp] theorem State.onCol_shadow (s : State) (c : Nat) (f : Col → Col) : (s.onCol c f).shadow = s.shadow := rfl
@[simp] theorem State.onCol_sync (s : State) (c : Nat) (f : Col → Col) : (s.onCol c f).sync = s.sync := rfl
@[simp] theorem State.onCol_boot (s : State) (c : Nat) (f : Col → Col) : (s.onCol c f).boot = s.boot := rfl
@[simp] theorem State.onCol_pins (s : State) (c : Nat) (f : Col → Col) : (s.onCol c f).pins = s.pins := rfl
@[simp] theorem State.onCol_nv (s : State) (c : Nat) (f : Col → Col) : (s.onCol c f).nv = s.nv := rfl
@[simp] theorem State.onCol_peal (s : State) (c : Nat) (f : Col → Col) : (s.onCol c f).peal = s.peal := rfl
@[simp] theorem State.onCol_keys (s : State) (c : Nat) (f : Col → Col) : (s.onCol c f).keys = s.keys := rfl
@[simp] theorem State.onCol_mgmt (s : State) (c : Nat) (f : Col → Col) : (s.onCol c f).mgmt = s.mgmt := rfl
@[simp] theorem State.onCol_fe (s : State) (c : Nat) (f : Col → Col) : (s.onCol c f).fe = s.fe := rfl
@[simp] theorem State.onCol_ports (s : State) (c : Nat) (f : Col → Col) : (s.onCol c f).ports = s.ports := rfl
@[simp] theorem State.onCol_host (s : State) (c : Nat) (f : Col → Col) : (s.onCol c f).host = s.host := rfl
@[simp] theorem State.onCol_links (s : State) (c : Nat) (f : Col → Col) : (s.onCol c f).links = s.links := rfl
@[simp] theorem State.onCol_readData (s : State) (c : Nat) (f : Col → Col) : (s.onCol c f).readData = s.readData := rfl
@[simp] theorem State.onCol_lastStatus (s : State) (c : Nat) (f : Col → Col) : (s.onCol c f).lastStatus = s.lastStatus := rfl
@[simp] theorem State.onCol_free (s : State) (c : Nat) (f : Col → Col) : (s.onCol c f).free = s.free := rfl
@[simp] theorem State.onCol_rd (s : State) (c : Nat) (f : Col → Col) (k : Nat) : (s.onCol c f).rd k = s.rd k := rfl
@[simp] theorem State.onCol_tile (s : State) (c : Nat) (f : Col → Col) (p : Nat) : (s.onCol c f).tile p = s.tile p := rfl
@[simp] theorem State.onCol_ltile (s : State) (c : Nat) (f : Col → Col) (l : Nat) : (s.onCol c f).ltile l = s.ltile l := rfl
@[simp] theorem State.onCol_physOf (s : State) (c : Nat) (f : Col → Col) (l : Nat) : (s.onCol c f).physOf l = s.physOf l := rfl
@[simp] theorem State.onCol_mapState (s : State) (c : Nat) (f : Col → Col) (l : Nat) : (s.onCol c f).mapState l = s.mapState l := rfl
@[simp] theorem State.onCol_now (s : State) (c : Nat) (f : Col → Col) : (s.onCol c f).now = s.now := rfl
@[simp] theorem State.onCol_now32 (s : State) (c : Nat) (f : Col → Col) : (s.onCol c f).now32 = s.now32 := rfl
@[simp] theorem State.onCol_run (s : State) (c : Nat) (f : Col → Col) (e : Nat) : (s.onCol c f).run e = s.run e := rfl

/-! ### What a read finds after a write -/

theorem State.rd_wr (s : State) (k : Nat) (v : Word) (j : Nat) : (s.wr k v).rd j = if j = k then v else s.rd j := spGet_spSet _ _ _ _ _

@[simp] theorem State.rd_wr_same (s : State) (k : Nat) (v : Word) : (s.wr k v).rd k = v := spGet_spSet_same _ _ _ _

theorem State.rd_wr_ne (s : State) (k : Nat) (v : Word) (j : Nat) (h : j ≠ k) : (s.wr k v).rd j = s.rd j := spGet_spSet_ne _ _ _ _ _ h

theorem State.tile_setTile (s : State) (p : Nat) (t : Tile) (q : Nat) : (s.setTile p t).tile q = if q = p then t else s.tile q :=
  spGet_spSet _ _ _ _ _

theorem State.tile_onTile (s : State) (p : Nat) (f : Tile → Tile) (q : Nat) : (s.onTile p f).tile q = if q = p then f (s.tile p) else s.tile q :=
  spGet_spSet _ _ _ _ _

@[simp] theorem State.ltile_onL (s : State) (l : Nat) (f : Tile → Tile) : (s.onL l f).ltile l = f (s.ltile l) := spGet_spSet_same _ _ _ _

theorem State.tile_onL (s : State) (l : Nat) (f : Tile → Tile) (q : Nat) :
    (s.onL l f).tile q = if q = s.physOf l then f (s.ltile l) else s.tile q := spGet_spSet _ _ _ _ _

theorem State.run_setRun (s : State) (e : Nat) (r : StreamRun) (x : Nat) : (s.setRun e r).run x = if x = e then r else s.run x :=
  spGet_spSet _ _ _ _ _

@[simp] theorem State.run_onRun (s : State) (e : Nat) (f : StreamRun → StreamRun) : (s.onRun e f).run e = f (s.run e) :=
  spGet_spSet_same _ _ _ _

theorem Tile.rd_wr (t : Tile) (k : Nat) (v : Word) (j : Nat) : (t.wr k v).rd j = if j = k then v else t.rd j := spGet_spSet _ _ _ _ _

@[simp] theorem Tile.rd_wr_same (t : Tile) (k : Nat) (v : Word) : (t.wr k v).rd k = v := spGet_spSet_same _ _ _ _

theorem Tile.rd_wr_ne (t : Tile) (k : Nat) (v : Word) (j : Nat) (h : j ≠ k) : (t.wr k v).rd j = t.rd j := spGet_spSet_ne _ _ _ _ _ h

theorem Tile.thread_setThread (t : Tile) (i : Nat) (h : Thread) (j : Nat) : (t.setThread i h).thread j = if j = i then h else t.thread j :=
  spGet_spSet _ _ _ _ _

theorem Tile.thread_onThread (t : Tile) (i : Nat) (f : Thread → Thread) (j : Nat) :
    (t.onThread i f).thread j = if j = i then f (t.thread i) else t.thread j := spGet_spSet _ _ _ _ _

/-! ### What each update writes -/

theorem State.upd_eq (s : State) (k : Nat) (f : Word → Word) : s.upd k f = s.wr k (f (s.rd k)) := rfl
theorem State.setFld_eq (s : State) (k hi lo v : Nat) : s.setFld k hi lo v = s.wr k (wSetFld (s.rd k) hi lo v) := rfl
theorem State.setBit_eq (s : State) (k n : Nat) (b : Bool) : s.setBit k n b = s.wr k (wSetBit (s.rd k) n b) := rfl
theorem State.count_eq (s : State) (k : Nat) : s.count k = s.wr k (satInc (s.rd k)) := rfl
theorem State.countBy_eq (s : State) (k n : Nat) : s.countBy k n = s.wr k (satAdd (s.rd k) n) := rfl
theorem State.raiseInt_eq (s : State) (n : Nat) : s.raiseInt n = s.wr Reg.INT_STATUS (wSetBit (s.rd Reg.INT_STATUS) n true) := rfl
@[simp] theorem State.onMem_mem (s : State) (f : Memory → Memory) : (s.onMem f).mem = f s.mem := rfl
@[simp] theorem State.onNv_nv (s : State) (f : Nv → Nv) : (s.onNv f).nv = f s.nv := rfl
@[simp] theorem State.onPwr_pwr (s : State) (f : Power → Power) : (s.onPwr f).pwr = f s.pwr := rfl
@[simp] theorem State.onPeal_peal (s : State) (f : Peal → Peal) : (s.onPeal f).peal = f s.peal := rfl
@[simp] theorem State.onKeys_keys (s : State) (f : Keys → Keys) : (s.onKeys f).keys = f s.keys := rfl
@[simp] theorem State.onMgmt_mgmt (s : State) (f : Mgmt → Mgmt) : (s.onMgmt f).mgmt = f s.mgmt := rfl
@[simp] theorem State.onHost_host (s : State) (f : HostPort → HostPort) : (s.onHost f).host = f s.host := rfl
@[simp] theorem State.onTap_tap (s : State) (f : Tap → Tap) : (s.onTap f).boot.tap = f s.boot.tap := rfl

end Sys2Proof.Machine
end

