-- ==== Sys2Proof/Laws/Tile.lean ====
section
/-! SUPPORT. Tiles: what the named updates of a tile leave of its control words and of its threads. -/

namespace Sys2Proof.Machine

/-! ### Control words -/

@[simp] theorem Tile.rd_onThread (t : Tile) (i : Nat) (f : Thread → Thread) (o : Nat) : (t.onThread i f).rd o = t.rd o := rfl

theorem Tile.rd_setPc_ne (t : Tile) (i v o : Nat) (h : o ≠ Reg.T_STATUS i) : (t.setPc i v).rd o = t.rd o := Tile.rd_wr_ne _ _ _ _ h

theorem Tile.rd_setTstate_ne (t : Tile) (i v o : Nat) (h : o ≠ Reg.T_STATUS i) : (t.setTstate i v).rd o = t.rd o := Tile.rd_wr_ne _ _ _ _ h

theorem Tile.rd_countBy_ne (t : Tile) (k n o : Nat) (h : o ≠ k) : (t.countBy k n).rd o = t.rd o := Tile.rd_wr_ne _ _ _ _ h

/-- Issuing counts in T_ISSUED, CYCLES_ALL and CYCLES_C0, and writes nothing else. -/
theorem Tile.rd_issued_ne (t : Tile) (i o : Nat) (h1 : o ≠ Reg.T_ISSUED i) (h2 : o ≠ Reg.CYCLES_ALL) (h3 : o ≠ Reg.CYCLES_C0) :
    (t.issued i).rd o = t.rd o := by
  have h : ∀ x : Tile, (({ x with lastIssued := i, yielded := none } : Tile)).rd o = x.rd o := fun _ => rfl
  unfold Tile.issued
  simp only [h]
  split
  · rw [Tile.rd_countBy_ne _ _ _ _ h3, Tile.rd_countBy_ne _ _ _ _ h2, Tile.rd_countBy_ne _ _ _ _ h1]
  · rw [Tile.rd_countBy_ne _ _ _ _ h2, Tile.rd_countBy_ne _ _ _ _ h1]

theorem Tile.rd_sput (t : Tile) (i c : Nat) (v : Word) (o : Nat) :
    (t.sput i c v).rd o = if c < 16 ∧ o = Reg.S_REG i c then v else t.rd o := by
  unfold Tile.sput
  split
  · rw [Tile.rd_wr]; simp [*]
  · simp [*]

theorem Tile.rd_putLane (t : Tile) (i c j : Nat) (v : Word) (o : Nat) :
    (t.putLane i c j v).rd o = if o = Reg.V_REG i (c - 16) j then v else t.rd o := Tile.rd_wr _ _ _ _

/-- The words of the first n lanes of a vector write. -/
theorem Tile.rd_putVec_aux (t : Tile) (i c : Nat) (f : Nat → Word) (n o : Nat) :
    (overBelow n (fun j t => t.putLane i c j (f j)) t).rd o =
      if ∃ j < n, o = Reg.V_REG i (c - 16) j then f ((o - Reg.V_REG i (c - 16) 0) / 4) else t.rd o := by
  induction n with
  | zero => simp [overBelow]
  | succ n ih =>
    unfold overBelow at *
    rw [List.range_succ, List.foldl_append]
    simp only [List.foldl_cons, List.foldl_nil]
    rw [Tile.rd_putLane, ih]
    by_cases h : o = Reg.V_REG i (c - 16) n
    · subst h
      rw [if_pos rfl, if_pos ⟨n, by omega, rfl⟩]
      congr 1
      simp only [Reg.V_REG]; omega
    · rw [if_neg h]
      by_cases h2 : ∃ j < n, o = Reg.V_REG i (c - 16) j
      · rw [if_pos h2, if_pos (by obtain ⟨j, hj, e⟩ := h2; exact ⟨j, by omega, e⟩)]
      · rw [if_neg h2, if_neg (by
          rintro ⟨j, hj, e⟩
          rcases Nat.lt_succ_iff_lt_or_eq.1 hj with h3 | h3
          · exact h2 ⟨j, h3, e⟩
          · subst h3; exact h e)]

/-- The words of a vector write: the 16 lanes of the register, and nothing else. -/
theorem Tile.rd_putVec (t : Tile) (i c : Nat) (f : Nat → Word) (o : Nat) :
    (t.putVec i c f).rd o =
      if ∃ j < 16, o = Reg.V_REG i (c - 16) j then f ((o - Reg.V_REG i (c - 16) 0) / 4) else t.rd o := Tile.rd_putVec_aux _ _ _ _ _ _

theorem Tile.rd_putVec_lane (t : Tile) (i c : Nat) (f : Nat → Word) (j : Nat) (h : j < 16) :
    (t.putVec i c f).rd (Reg.V_REG i (c - 16) j) = f j := by
  rw [Tile.rd_putVec, if_pos ⟨j, h, rfl⟩]
  congr 1
  simp only [Reg.V_REG]; omega

@[simp] theorem Tile.rd_mergeFlags (t : Tile) (i f o : Nat) (h : o ≠ Reg.T_FLAGS i) : (t.mergeFlags i f).rd o = t.rd o := Tile.rd_wr_ne _ _ _ _ h

theorem Tile.rd_saturate_ne (t : Tile) (i n o : Nat) (h : o ≠ Reg.SAT_COUNT) : (t.saturate i n).rd o = t.rd o := by
  unfold Tile.saturate
  split
  · rfl
  · rw [Tile.rd_onThread, Tile.rd_countBy_ne _ _ _ _ h]

/-- A probe writes its maximum and its count only. -/
theorem Tile.rd_probe_ne (t : Tile) (tap idx : Nat) (mag : Option Nat) (sats o : Nat)
    (h : ∀ n < 16, o ≠ Reg.MA_MAX n ∧ o ≠ Reg.MA_SAT n) : (t.probe tap idx mag sats).rd o = t.rd o := by
  unfold Tile.probe overBelow
  suffices ∀ (l : List Nat) (t : Tile), (∀ n ∈ l, n < 16) → (l.foldl (fun (x : Tile) i =>
      (fun n (t : Tile) =>
        let c := t.rd (Reg.MA_CFG n)
        if wfld c 2 0 = tap ∧ wfld c 15 4 ≤ idx ∧ idx ≤ wfld c 27 16 then
          let t := match mag with
            | some m => if (t.rd (Reg.MA_MAX n)).toNat < m then t.wr (Reg.MA_MAX n) (wd m) else t
            | none => t
          if sats = 0 then t else t.countBy (Reg.MA_SAT n) sats
        else t) i x) t).rd o = t.rd o from this _ _ fun n hn => List.mem_range.1 hn
  intro l
  induction l with
  | nil => intro t _; rfl
  | cons a r ih =>
    intro t hl
    rw [List.foldl_cons, ih _ fun n hn => hl n (List.mem_cons_of_mem _ hn)]
    obtain ⟨h1, h2⟩ := h a (hl a List.mem_cons_self)
    dsimp only
    repeat' split
    all_goals first | rfl | rw [Tile.rd_countBy_ne _ _ _ _ h2] | skip
    all_goals first | rfl | rw [Tile.rd_wr_ne _ _ _ _ h1]

/-- The probe of each lane. -/
theorem Tile.rd_probes_ne (t : Tile) (tap n : Nat) (mag : Nat → Option Nat) (sats : Nat → Nat) (o : Nat)
    (h : ∀ n < 16, o ≠ Reg.MA_MAX n ∧ o ≠ Reg.MA_SAT n) :
    (overBelow n (fun j (t : Tile) => t.probe tap j (mag j) (sats j)) t).rd o = t.rd o := by
  unfold overBelow
  induction (List.range n) generalizing t with
  | nil => rfl
  | cons a r ih => rw [List.foldl_cons, ih, Tile.rd_probe_ne _ _ _ _ _ _ h]

theorem Tile.thread_probe (t : Tile) (tap idx : Nat) (mag : Option Nat) (sats j : Nat) : (t.probe tap idx mag sats).thread j = t.thread j := by
  unfold Tile.probe overBelow
  induction (List.range 16) generalizing t with
  | nil => rfl
  | cons a r ih =>
    rw [List.foldl_cons, ih]
    dsimp only
    repeat' split
    all_goals rfl

@[simp] theorem Tile.thread_putVec (t : Tile) (i c : Nat) (f : Nat → Word) (j : Nat) : (t.putVec i c f).thread j = t.thread j := by
  unfold Tile.putVec overBelow
  induction (List.range 16) generalizing t with
  | nil => rfl
  | cons a r ih => rw [List.foldl_cons, ih]; rfl

theorem Tile.thread_saturate (t : Tile) (i n : Nat) : ((t.saturate i n).thread i).isat = ((t.thread i).isat || decide (0 < n)) := by
  unfold Tile.saturate
  split
  · subst n; simp
  · rw [Tile.thread_onThread, if_pos rfl]
    simp [Nat.pos_of_ne_zero ‹_›]

theorem satAdd_zero (w : Word) : satAdd w 0 = w := by
  unfold satAdd
  apply BitVec.eq_of_toNat_eq
  rw [BitVec.toNat_ofNat]
  have := w.isLt
  omega

theorem Tile.rd_saturate (t : Tile) (i n : Nat) : (t.saturate i n).rd Reg.SAT_COUNT = satAdd (t.rd Reg.SAT_COUNT) n := by
  unfold Tile.saturate
  split
  · subst n; rw [satAdd_zero]
  · rw [Tile.rd_onThread]; exact Tile.rd_wr_same _ _ _

/-! ### T_STATUS -/

theorem Tile.pc_setPc (t : Tile) (i v : Nat) (h : v < 2048) : (t.setPc i v).pc i = v := by
  unfold Tile.pc Tile.fld Tile.setPc Tile.setFld
  rw [Tile.rd_wr_same, wfld_wSetFld_same _ _ _ _ (by omega) (by omega), Nat.mod_eq_of_lt (by omega)]

@[simp] theorem Tile.tstate_setPc (t : Tile) (i v : Nat) : (t.setPc i v).tstate i = t.tstate i := by
  unfold Tile.tstate Tile.fld Tile.setPc Tile.setFld
  rw [Tile.rd_wr_same, wfld_wSetFld_ne _ _ _ _ _ _ (by omega) (by omega)]

theorem Tile.tstate_setTstate (t : Tile) (i v : Nat) (h : v < 8) : (t.setTstate i v).tstate i = v := by
  unfold Tile.tstate Tile.fld Tile.setTstate Tile.setFld
  rw [Tile.rd_wr_same, wfld_wSetFld_same _ _ _ _ (by omega) (by omega), Nat.mod_eq_of_lt (by omega)]

@[simp] theorem Tile.pc_setTstate (t : Tile) (i v : Nat) : (t.setTstate i v).pc i = t.pc i := by
  unfold Tile.pc Tile.fld Tile.setTstate Tile.setFld
  rw [Tile.rd_wr_same, wfld_wSetFld_ne _ _ _ _ _ _ (by omega) (by omega)]

@[simp] theorem Tile.pc_issued (t : Tile) (i : Nat) : (t.issued i).pc i = t.pc i := by
  unfold Tile.pc Tile.fld; rw [Tile.rd_issued_ne] <;> simp only [Reg.T_STATUS, Reg.T_ISSUED, Reg.CYCLES_ALL, Reg.CYCLES_C0] <;> omega

@[simp] theorem Tile.tstate_issued (t : Tile) (i : Nat) : (t.issued i).tstate i = t.tstate i := by
  unfold Tile.tstate Tile.fld; rw [Tile.rd_issued_ne] <;> simp only [Reg.T_STATUS, Reg.T_ISSUED, Reg.CYCLES_ALL, Reg.CYCLES_C0] <;> omega

/-- An update that leaves T_STATUS leaves the state and the pc. -/
theorem Tile.tstate_of_rd {t u : Tile} {i : Nat} (h : t.rd (Reg.T_STATUS i) = u.rd (Reg.T_STATUS i)) : t.tstate i = u.tstate i := by
  unfold Tile.tstate Tile.fld; rw [h]

theorem Tile.pc_of_rd {t u : Tile} {i : Nat} (h : t.rd (Reg.T_STATUS i) = u.rd (Reg.T_STATUS i)) : t.pc i = u.pc i := by
  unfold Tile.pc Tile.fld; rw [h]

/-- The words of an image end below 2048. -/
theorem Tile.lt_of_inImage {t : Tile} {i pc : Nat} (h : t.inImage i pc = true) : pc < 2048 := by
  unfold Tile.inImage Tile.image at h
  simp only [Bool.and_eq_true, decide_eq_true_eq] at h
  repeat' split at h
  all_goals simp only at h
  all_goals omega

/-! ### Threads -/

@[simp] theorem Tile.thread_wr (t : Tile) (k : Nat) (v : Word) (j : Nat) : (t.wr k v).thread j = t.thread j := rfl
@[simp] theorem Tile.thread_setPc (t : Tile) (i v j : Nat) : (t.setPc i v).thread j = t.thread j := rfl
@[simp] theorem Tile.thread_setTstate (t : Tile) (i v j : Nat) : (t.setTstate i v).thread j = t.thread j := rfl
@[simp] theorem Tile.thread_countBy (t : Tile) (k n j : Nat) : (t.countBy k n).thread j = t.thread j := rfl
@[simp] theorem Tile.thread_issued (t : Tile) (i j : Nat) : (t.issued i).thread j = t.thread j := by
  unfold Tile.issued; dsimp only; split <;> rfl
@[simp] theorem Tile.thread_onThread_same (t : Tile) (i : Nat) (f : Thread → Thread) : (t.onThread i f).thread i = f (t.thread i) := by
  rw [Tile.thread_onThread, if_pos rfl]

/-! ### Issue -/

/-- A thread that may issue runs its operation, and goes on as the operation says. -/
theorem State.issueInsn_ready (s : State) (l i : Nat) (o : UOp) (u : UInsn) (h1 : (s.ltile l).tstate i = tRunning)
    (h2 : (o.uses u).ok u = true) (h3 : (o.uses u).blocked (s.ltile l) i u = false) :
    s.issueInsn l i o u = s.settle (o.eff l i u s).1 l i (o.word u) (o.eff l i u s).2 := by
  unfold State.issueInsn
  simp only [h1, ne_eq, not_true_eq_false, if_false, h2, Bool.not_true, Bool.false_eq_true, h3]

/-- An operation that goes on to the next instruction. -/
theorem State.settle_next (s s' : State) (l i : Nat) (w : DWord) (h : (s.ltile l).inImage i ((s.ltile l).pc i + 1) = true) :
    s.settle s' l i w .next = s'.onL l (fun t => (t.setPc i ((s.ltile l).pc i + 1)).issued i) := by
  unfold State.settle
  simp only [h, if_true]

end Sys2Proof.Machine
end

