-- ==== Sys2Proof/Laws/Faults.lean ====
section
/-! SUPPORT. Breaking contracts and faulting a thread: what stays, and what T_STATUS holds afterwards. -/

namespace Sys2Proof.Machine

@[simp] theorem State.noteClap_tiles (s : State) (c : Nat) : (s.noteClap c).tiles = s.tiles := by unfold State.noteClap; split <;> rfl
@[simp] theorem State.noteClap_mem (s : State) (c : Nat) : (s.noteClap c).mem = s.mem := by unfold State.noteClap; split <;> rfl
@[simp] theorem State.logEvent_tiles (s : State) (a b : Nat) (v : Word) : (s.logEvent a b v).tiles = s.tiles := by
  unfold State.logEvent; dsimp only; repeat' split
  all_goals rfl
@[simp] theorem State.logEvent_mem (s : State) (a b : Nat) (v : Word) : (s.logEvent a b v).mem = s.mem := by
  unfold State.logEvent; dsimp only; repeat' split
  all_goals rfl

@[simp] theorem State.owe_tiles (s : State) (r : ReqFlit) (a f : Nat) : (s.owe r a f).tiles = s.tiles := rfl
@[simp] theorem State.owe_mem (s : State) (r : ReqFlit) (a f : Nat) : (s.owe r a f).mem = s.mem := rfl
@[simp] theorem State.failAtIssue_tiles (s : State) (r : ReqFlit) (e : Nat) : (s.failAtIssue r e).tiles = s.tiles := by
  unfold State.failAtIssue; split <;> rfl
@[simp] theorem State.failAtIssue_mem (s : State) (r : ReqFlit) (e : Nat) : (s.failAtIssue r e).mem = s.mem := by
  unfold State.failAtIssue; split <;> rfl
@[simp] theorem State.launch_tiles (s : State) (r : ReqFlit) : (s.launch r).tiles = s.tiles := by
  unfold State.launch; extract_lets; split <;> rfl
@[simp] theorem State.launch_mem (s : State) (r : ReqFlit) : (s.launch r).mem = s.mem := by
  unfold State.launch; extract_lets; split <;> rfl

/-- A request of a chip block or of the host port leaves tiles and memory alone until it is served. -/
@[simp] theorem State.issue_tiles (s : State) (r : ReqFlit) : (s.issue r).tiles = s.tiles := by
  unfold State.issue; dsimp only; repeat' split
  all_goals simp
@[simp] theorem State.issue_mem (s : State) (r : ReqFlit) : (s.issue r).mem = s.mem := by
  unfold State.issue; dsimp only; repeat' split
  all_goals simp

@[simp] theorem State.streamWake_tiles (s : State) (e : Nat) : (s.streamWake e).1.tiles = s.tiles := by
  unfold State.streamWake State.assertWake; dsimp only; repeat' split
  all_goals first | rfl | exact (State.noteClap_tiles _ _).trans rfl | exact (State.noteClap_tiles _ _).trans (State.issue_tiles _ _)
@[simp] theorem State.streamWake_mem (s : State) (e : Nat) : (s.streamWake e).1.mem = s.mem := by
  unfold State.streamWake State.assertWake; dsimp only; repeat' split
  all_goals first | rfl | exact (State.noteClap_mem _ _).trans rfl | exact (State.noteClap_mem _ _).trans (State.issue_mem _ _)

@[simp] theorem State.breakStream_tiles (s : State) (e c : Nat) : (s.breakStream e c).tiles = s.tiles := by
  unfold State.breakStream; dsimp only; repeat' split
  all_goals simp
@[simp] theorem State.breakStream_mem (s : State) (e c : Nat) : (s.breakStream e c).mem = s.mem := by
  unfold State.breakStream; dsimp only; repeat' split
  all_goals simp

@[simp] theorem State.breakAll_tiles (s : State) (c : Nat) (p : Nat → Bool) : (s.breakAll c p).tiles = s.tiles :=
  foldl_same (fun s : State => s.tiles) _ _ _ fun s e => State.breakStream_tiles s e c
@[simp] theorem State.breakAll_mem (s : State) (c : Nat) (p : Nat → Bool) : (s.breakAll c p).mem = s.mem :=
  foldl_same (fun s : State => s.mem) _ _ _ fun s e => State.breakStream_mem s e c

@[simp] theorem State.reportFault_tile (s : State) (l i q : Nat) : (s.reportFault l i).tile q = s.tile q := by
  unfold State.reportFault State.tile; rw [State.breakAll_tiles]
@[simp] theorem State.reportFault_mem (s : State) (l i : Nat) : (s.reportFault l i).mem = s.mem := by
  unfold State.reportFault; rw [State.breakAll_mem]

/-- A fault leaves every other tile, and the memories. -/
theorem State.faultThread_tile_ne (s : State) (l i c q : Nat) (h : q ≠ s.physOf l) : (s.faultThread l i c).tile q = s.tile q := by
  unfold State.faultThread
  rw [State.reportFault_tile, State.tile_onL, if_neg h]

@[simp] theorem State.faultThread_mem (s : State) (l i c : Nat) : (s.faultThread l i c).mem = s.mem := by
  unfold State.faultThread; simp

/-- What a fault leaves in the tile: FAULT, the code, the pc where it stood. -/
theorem State.faultThread_tile (s : State) (l i c : Nat) (hc : c < 64) :
    ((s.faultThread l i c).tile (s.physOf l)).tstate i = tFault ∧
    ((s.faultThread l i c).tile (s.physOf l)).fld (Reg.T_STATUS i) 21 16 = c ∧
    ((s.faultThread l i c).tile (s.physOf l)).pc i = (s.ltile l).pc i := by
  unfold State.faultThread
  rw [State.reportFault_tile, State.tile_onL, if_pos rfl]
  refine ⟨?_, ?_, ?_⟩
  · unfold Tile.tstate Tile.fld Tile.setFld Tile.setTstate Tile.setFld
    rw [Tile.rd_wr_same, wfld_wSetFld_ne _ _ _ _ _ _ (by omega) (by omega), Tile.rd_wr_same, wfld_wSetFld_same _ _ _ _ (by omega) (by omega)]
    rfl
  · unfold Tile.fld Tile.setFld
    rw [Tile.rd_wr_same, wfld_wSetFld_same _ _ _ _ (by omega) (by omega)]
    exact Nat.mod_eq_of_lt (by omega)
  · unfold Tile.pc Tile.fld Tile.setFld Tile.setTstate Tile.setFld
    rw [Tile.rd_wr_same, wfld_wSetFld_ne _ _ _ _ _ _ (by omega) (by omega), Tile.rd_wr_same, wfld_wSetFld_ne _ _ _ _ _ _ (by omega) (by omega)]
    rfl

end Sys2Proof.Machine
end

