-- ==== Sys2Proof/Laws/Issue.lean ====
section
/-! SUPPORT. What the issue of an instruction leaves, from what its effect leaves. -/

namespace Sys2Proof.Machine

theorem Tile.beside_wr (t : Tile) (k : Nat) (v : Word) : (t.wr k v).beside = t.beside := rfl
theorem Tile.beside_onThread (t : Tile) (i : Nat) (f : Thread → Thread) : (t.onThread i f).beside = t.beside := rfl

@[simp] theorem Tile.beside_issued (t : Tile) (i : Nat) : (t.issued i).beside = t.beside := by
  unfold Tile.issued; dsimp only; split <;> rfl

@[simp] theorem Tile.beside_putVec (t : Tile) (i c : Nat) (f : Nat → Word) : (t.putVec i c f).beside = t.beside := by
  unfold Tile.putVec overBelow
  induction List.range 16 generalizing t with
  | nil => rfl
  | cons a r ih => rw [List.foldl_cons, ih]; rfl

@[simp] theorem Tile.beside_saturate (t : Tile) (i n : Nat) : (t.saturate i n).beside = t.beside := by
  unfold Tile.saturate; split <;> rfl

@[simp] theorem Tile.beside_sput (t : Tile) (i c : Nat) (v : Word) : (t.sput i c v).beside = t.beside := by
  unfold Tile.sput; split <;> rfl

@[simp] theorem Tile.thread_sput (t : Tile) (i c : Nat) (v : Word) (j : Nat) : (t.sput i c v).thread j = t.thread j := by
  unfold Tile.sput; split <;> rfl

theorem Tile.thread_onThread_ne (t : Tile) (i : Nat) (f : Thread → Thread) (j : Nat) (h : j ≠ i) : (t.onThread i f).thread j = t.thread j := by
  rw [Tile.thread_onThread, if_neg h]

theorem Tile.thread_saturate_ne (t : Tile) (i n j : Nat) (h : j ≠ i) : (t.saturate i n).thread j = t.thread j := by
  unfold Tile.saturate
  split
  · rfl
  · rw [Tile.thread_onThread_ne _ _ _ _ h]; rfl

/-- What a change of one tile by thread i leaves: the tile beside its words and threads, and the other threads. -/
def Tile.kept (t u : Tile) (i : Nat) : Prop := u.beside = t.beside ∧ ∀ j, j ≠ i → u.thread j = t.thread j

theorem Tile.kept_rfl (t : Tile) (i : Nat) : t.kept t i := ⟨rfl, fun _ _ => rfl⟩
theorem Tile.kept.trans {t u v : Tile} {i : Nat} (h : t.kept u i) (k : u.kept v i) : t.kept v i :=
  ⟨k.1.trans h.1, fun j hj => (k.2 j hj).trans (h.2 j hj)⟩
theorem Tile.kept_wr (t : Tile) (k : Nat) (v : Word) (i : Nat) : t.kept (t.wr k v) i := ⟨rfl, fun _ _ => rfl⟩
theorem Tile.kept_putVec (t : Tile) (k c : Nat) (f : Nat → Word) (i : Nat) : t.kept (t.putVec k c f) i := ⟨by simp, fun _ _ => by simp⟩
theorem Tile.kept_sput (t : Tile) (k c : Nat) (v : Word) (i : Nat) : t.kept (t.sput k c v) i := ⟨by simp, fun _ _ => by simp⟩
theorem Tile.kept_issued (t : Tile) (k i : Nat) : t.kept (t.issued k) i := ⟨by simp, fun _ _ => by simp⟩
theorem Tile.kept_onThread (t : Tile) (i : Nat) (f : Thread → Thread) : t.kept (t.onThread i f) i :=
  ⟨rfl, fun _ hj => Tile.thread_onThread_ne _ _ _ _ hj⟩
theorem Tile.kept_saturate (t : Tile) (i n : Nat) : t.kept (t.saturate i n) i := ⟨by simp, fun _ hj => Tile.thread_saturate_ne _ _ _ _ hj⟩
theorem Tile.kept_probe (t : Tile) (tap idx : Nat) (mag : Option Nat) (sats i : Nat) : t.kept (t.probe tap idx mag sats) i := by
  refine ⟨?_, fun j _ => Tile.thread_probe _ _ _ _ _ _⟩
  unfold Tile.probe overBelow
  induction List.range 16 generalizing t with
  | nil => rfl
  | cons a r ih =>
    rw [List.foldl_cons, ih]
    dsimp only
    repeat' split
    all_goals rfl

/-- An effect on one tile by thread i that writes control words at the offsets os only. -/
structure TileEffect (s s' : State) (l i : Nat) (os : List Nat) : Prop where
  rest  : s' = { s with tiles := s'.tiles }
  other : ∀ q, q ≠ s.physOf l → s'.tile q = s.tile q
  words : ∀ o, o ∉ os → (s'.ltile l).rd o = (s.ltile l).rd o
  kept  : (s.ltile l).kept (s'.ltile l) i

theorem TileEffect.refl (s : State) (l i : Nat) (os : List Nat) : TileEffect s s l i os :=
  ⟨rfl, fun _ _ => rfl, fun _ _ => rfl, Tile.kept_rfl _ _⟩

theorem TileEffect.phys {s s' : State} {l i : Nat} {os : List Nat} (h : TileEffect s s' l i os) (k : Nat) : s'.physOf k = s.physOf k := by
  rw [h.rest]; rfl

/-- A change of the tile that writes control words at the offsets os only. -/
theorem TileEffect.onL {s s' : State} {l i : Nat} {os : List Nat} (h : TileEffect s s' l i os) (f : Tile → Tile)
    (hf : ∀ o, o ∉ os → (f (s'.ltile l)).rd o = (s'.ltile l).rd o) (hk : (s'.ltile l).kept (f (s'.ltile l)) i) :
    TileEffect s (s'.onL l f) l i os := by
  refine ⟨?_, fun q hq => ?_, fun o ho => ?_, ?_⟩
  · rw [h.rest]; rfl
  · rw [State.tile_onL, if_neg (by rw [h.phys]; exact hq), h.other q hq]
  · rw [State.ltile_onL, hf o ho, h.words o ho]
  · rw [State.ltile_onL]; exact h.kept.trans hk

theorem TileEffect.mono {s s' : State} {l i : Nat} {os ps : List Nat} (h : TileEffect s s' l i os) (hs : os ⊆ ps) : TileEffect s s' l i ps :=
  ⟨h.rest, h.other, fun o ho => h.words o fun hm => ho (hs hm), h.kept⟩

theorem TileEffect.frame {s s' : State} {l i : Nat} {os : List Nat} (h : TileEffect s s' l i os) : s.tileOnly s' l i os :=
  ⟨⟨h.rest, h.other, h.words⟩, h.kept⟩

/-- The words of an issue are none of the others that instructions write. -/
theorem notin_issueAt {i o : Nat} (h : o ∉ issueAt i) : o ≠ Reg.T_STATUS i ∧ o ≠ Reg.T_ISSUED i ∧ o ≠ Reg.CYCLES_ALL ∧ o ≠ Reg.CYCLES_C0 := by
  simpa [issueAt] using h

theorem scalar_notin_issueAt (i c : Nat) (h : c < 16) : Reg.S_REG i c ∉ issueAt i := by
  simp only [issueAt, List.mem_cons, List.not_mem_nil, or_false, Reg.S_REG, Reg.T_STATUS, Reg.T_ISSUED, Reg.CYCLES_ALL, Reg.CYCLES_C0]
  omega

theorem lane_notin_issueAt (i c j : Nat) (hj : j < 16) : Reg.V_REG i (c - 16) j ∉ issueAt i := by
  simp only [issueAt, List.mem_cons, List.not_mem_nil, or_false, Reg.V_REG, Reg.T_STATUS, Reg.T_ISSUED, Reg.CYCLES_ALL, Reg.CYCLES_C0]
  omega

theorem status_notin_scalarAt (i c : Nat) : Reg.T_STATUS i ∉ scalarAt i c := by
  unfold scalarAt
  split
  · simp only [List.mem_cons, List.not_mem_nil, or_false, Reg.S_REG, Reg.T_STATUS]; omega
  · exact List.not_mem_nil

theorem status_notin_vectorAt (i c : Nat) : Reg.T_STATUS i ∉ vectorAt i c := by
  unfold vectorAt
  simp only [List.mem_map, List.mem_range, Reg.V_REG, Reg.T_STATUS]
  rintro ⟨j, hj, e⟩; omega

/-- The end of an issue on a tile: its words outside issueAt are those of the effect. -/
theorem rd_issued_notin {t : Tile} {i p o : Nat} (h : o ∉ issueAt i) : ((t.setPc i p).issued i).rd o = t.rd o := by
  obtain ⟨a, b, c, d⟩ := notin_issueAt h
  rw [Tile.rd_issued_ne _ _ _ b c d, Tile.rd_setPc_ne _ _ _ _ a]

/-- An effect on one tile, then the pc and the counters of the issue. -/
theorem TileEffect.pass {s s' : State} {l i : Nat} {os : List Nat} (h : TileEffect s s' l i os) (p : Nat) (hst : Reg.T_STATUS i ∉ os)
    (h1 : (s.ltile l).tstate i = tRunning) (hp : p < 2048) :
    (s'.onL l (fun t => (t.setPc i p).issued i)).at l i tRunning p ∧
    s.tileOnly (s'.onL l (fun t => (t.setPc i p).issued i)) l i (os ++ issueAt i) ∧
    (∀ o, o ∉ issueAt i → ((s'.onL l (fun t => (t.setPc i p).issued i)).ltile l).rd o = (s'.ltile l).rd o) ∧
    ((s'.onL l (fun t => (t.setPc i p).issued i)).ltile l).thread i = (s'.ltile l).thread i := by
  refine ⟨⟨?_, ?_⟩, (TileEffect.onL (h.mono (List.subset_append_left _ _)) _ (fun o ho => ?_)
    ((Tile.kept_wr _ _ _ _).trans (Tile.kept_issued _ _ _))).frame, fun o ho => ?_, ?_⟩
  · rw [State.ltile_onL, Tile.tstate_issued, Tile.tstate_setPc, Tile.tstate_of_rd (h.words _ hst), h1]
  · rw [State.ltile_onL, Tile.pc_issued, Tile.pc_setPc _ _ _ hp]
  · simp only [List.mem_append, not_or] at ho
    exact rd_issued_notin ho.2
  · rw [State.ltile_onL]; exact rd_issued_notin ho
  · rw [State.ltile_onL]; simp

/-- What an instruction that goes on leaves: the thread at the next word, the effect's words, and nothing else. -/
theorem State.settle_next_frame {s s' : State} {l i : Nat} {os : List Nat} (h : TileEffect s s' l i os) (w : DWord) (hst : Reg.T_STATUS i ∉ os)
    (h1 : (s.ltile l).tstate i = tRunning) (hn : s.hasNext l i)
    (ht : (s'.ltile l).thread i = { (s.ltile l).thread i with isat := ((s'.ltile l).thread i).isat }) :
    s.wentOn (s.settle s' l i w .next) l i ∧ s.tileOnly (s.settle s' l i w .next) l i (os ++ issueAt i) ∧
    (∀ o, o ∉ issueAt i → ((s.settle s' l i w .next).ltile l).rd o = (s'.ltile l).rd o) ∧
    ((s.settle s' l i w .next).ltile l).thread i = (s'.ltile l).thread i := by
  rw [State.settle_next _ _ _ _ _ hn]
  obtain ⟨a, b, c, d⟩ := h.pass _ hst h1 (Tile.lt_of_inImage hn)
  refine ⟨⟨a, ?_⟩, b, c, d⟩
  rw [d]; exact ht

/-- A jump inside the image. -/
theorem State.settle_jump (s s' : State) (l i p : Nat) (w : DWord) (h : (s.ltile l).inImage i p = true) :
    s.settle s' l i w (.jump p) = s'.onL l (fun t => (t.setPc i p).issued i) := by
  unfold State.settle
  simp only [h, if_true]

/-- What a scalar result leaves. -/
theorem State.sput_effect (s : State) (l i : Nat) (c : BitVec 6) (v : Word) :
    TileEffect s (s.sput l i c v) l i (scalarAt i c.toNat) ∧ (c.toNat < 16 → ((s.sput l i c v).ltile l).rd (Reg.S_REG i c.toNat) = v) := by
  unfold State.sput
  refine ⟨(TileEffect.refl s l i _).onL _ (fun o ho => ?_) (Tile.kept_sput _ _ _ _ _), fun h => ?_⟩
  · rw [Tile.rd_sput, if_neg]
    rintro ⟨h, rfl⟩; apply ho; simp [scalarAt, h]
  · rw [State.ltile_onL, Tile.rd_sput, if_pos ⟨h, rfl⟩]

/-- What a vector result leaves. -/
theorem State.putVec_effect (s : State) (l i c : Nat) (f : Nat → Word) :
    TileEffect s (s.onL l (·.putVec i c f)) l i (vectorAt i c) ∧
    ∀ j < 16, ((s.onL l (·.putVec i c f)).ltile l).rd (Reg.V_REG i (c - 16) j) = f j := by
  refine ⟨(TileEffect.refl s l i _).onL _ (fun o ho => ?_) (Tile.kept_putVec _ _ _ _ _), fun j hj => ?_⟩
  · rw [Tile.rd_putVec, if_neg]
    rintro ⟨j, hj, rfl⟩; apply ho; exact List.mem_map.2 ⟨j, List.mem_range.2 hj, rfl⟩
  · rw [State.ltile_onL]; exact Tile.rd_putVec_lane _ _ _ _ _ hj

end Sys2Proof.Machine
end

