-- ==== Sys2Proof/Laws/Keeps.lean ====
section
/-! SUPPORT. What every part of every command keeps: the queue, the canonical form of the memories, the registers and the tiles, and each
programmed fuse bit. One relation, and for each operation of the model one lemma that it keeps it. -/

namespace Sys2Proof.Machine

/-- The queue, the registers, the tiles, the memories and the fuses of a later state, held against an earlier one. -/
def KeepsParts (s : State) (p : List Instr) (r : Sparse Word) (t : Sparse Tile) (m : Memory) (f : Word) : Prop :=
  p = s.pending ∧
  (s.mem.wf = true ∧ spWf chipReset s.regs = true ∧ spWf (fun _ => Tile.reset) s.tiles = true →
    m.wf = true ∧ spWf chipReset r = true ∧ spWf (fun _ => Tile.reset) t = true) ∧
  ∀ i, s.keys.fuses.getLsbD i = true → f.getLsbD i = true

/-- t has the queue of s, is in canonical form if s is, and has every fuse bit that s has. -/
def Keeps (s t : State) : Prop := KeepsParts s t.pending t.regs t.tiles t.mem t.keys.fuses

theorem Keeps.refl (s : State) : Keeps s s := ⟨rfl, id, fun _ => id⟩

theorem Keeps.trans {s t u : State} (h : Keeps s t) (g : Keeps t u) : Keeps s u :=
  ⟨g.1.trans h.1, fun w => g.2.1 (h.2.1 w), fun i w => g.2.2 i (h.2.2 i w)⟩

/-- A state that shares the five parts with one that keeps them keeps them. -/
theorem Keeps.same {s0 s t : State} (h : Keeps s0 s) (hp : t.pending = s.pending) (hr : t.regs = s.regs) (ht : t.tiles = s.tiles)
    (hm : t.mem = s.mem) (hf : t.keys.fuses = s.keys.fuses) : Keeps s0 t := by
  unfold Keeps; rw [hp, hr, ht, hm, hf]; exact h

theorem Keeps.parts {s0 s : State} (h : Keeps s0 s) : KeepsParts s0 s.pending s.regs s.tiles s.mem s.keys.fuses := h

theorem keeps_foldl {β : Type} {s0 : State} (f : State → β → State) (l : List β) (s : State) (h : Keeps s0 s)
    (hf : ∀ s b, Keeps s0 s → Keeps s0 (f s b)) : Keeps s0 (l.foldl f s) := by
  induction l generalizing s with
  | nil => exact h
  | cons b r ih => exact ih _ (hf _ _ h)

theorem keeps_foldl1 {β γ : Type} {s0 : State} (f : State × γ → β → State × γ) (l : List β) (s : State × γ) (h : Keeps s0 s.1)
    (hf : ∀ s b, Keeps s0 s.1 → Keeps s0 (f s b).1) : Keeps s0 (l.foldl f s).1 := by
  induction l generalizing s with
  | nil => exact h
  | cons b r ih => exact ih _ (hf _ _ h)

theorem keeps_overBelow {s0 : State} (n : Nat) (f : Nat → State → State) (s : State) (h : Keeps s0 s)
    (hf : ∀ i s, Keeps s0 s → Keeps s0 (f i s)) : Keeps s0 (overBelow n f s) := keeps_foldl _ _ _ h fun s i => hf i s

theorem keeps_overBelow1 {γ : Type} {s0 : State} (n : Nat) (f : Nat → State × γ → State × γ) (s : State × γ) (h : Keeps s0 s.1)
    (hf : ∀ i s, Keeps s0 s.1 → Keeps s0 (f i s).1) : Keeps s0 (overBelow n f s).1 := keeps_foldl1 _ _ _ h fun s i => hf i s

theorem keeps_ite {s0 : State} (c : Prop) [Decidable c] {a b : State} (ha : c → Keeps s0 a) (hb : ¬ c → Keeps s0 b) :
    Keeps s0 (if c then a else b) := by split <;> simp_all

theorem keeps_ite1 {γ : Type} {s0 : State} (c : Prop) [Decidable c] {a b : State × γ} (ha : c → Keeps s0 a.1) (hb : ¬ c → Keeps s0 b.1) :
    Keeps s0 (if c then a else b).1 := by split <;> simp_all

theorem keeps_getD {s0 : State} {o : Option State} {d : State} (ho : ∀ r, o = some r → Keeps s0 r) (h : Keeps s0 d) : Keeps s0 (o.getD d) := by
  cases o with
  | none => exact h
  | some r => exact ho r rfl

theorem keeps_some {s0 x : State} (h : Keeps s0 x) : ∀ r, some x = some r → Keeps s0 r := fun _ e => Option.some.inj e ▸ h

theorem keeps_none {s0 : State} : ∀ r, none = some r → Keeps s0 r := fun _ e => absurd e (by simp)

theorem keeps_iteO {s0 : State} (c : Prop) [Decidable c] {a b : Option State} (ha : c → ∀ r, a = some r → Keeps s0 r)
    (hb : ¬ c → ∀ r, b = some r → Keeps s0 r) : ∀ r, (if c then a else b) = some r → Keeps s0 r := by
  split
  · exact ha ‹_›
  · exact hb ‹_›

theorem keeps_some1 {γ : Type} {s0 : State} {x : State × γ} (h : Keeps s0 x.1) : ∀ r, some x = some r → Keeps s0 r.1 :=
  fun _ e => Option.some.inj e ▸ h

theorem keeps_none1 {γ : Type} {s0 : State} : ∀ r : State × γ, none = some r → Keeps s0 r.1 := fun _ e => absurd e (by simp)

theorem keeps_iteO1 {γ : Type} {s0 : State} (c : Prop) [Decidable c] {a b : Option (State × γ)} (ha : c → ∀ r, a = some r → Keeps s0 r.1)
    (hb : ¬ c → ∀ r, b = some r → Keeps s0 r.1) : ∀ r, (if c then a else b) = some r → Keeps s0 r.1 := by
  split
  · exact ha ‹_›
  · exact hb ‹_›

theorem keeps_of_some {s0 s : State} (h : ∀ r, some s = some r → Keeps s0 r) : Keeps s0 s := h s rfl

theorem keeps_foldlO {β : Type} {s0 : State} (f : Option State → β → Option State) (l : List β) (o : Option State)
    (ho : ∀ r, o = some r → Keeps s0 r) (hf : ∀ o b, (∀ r, o = some r → Keeps s0 r) → ∀ r, f o b = some r → Keeps s0 r) :
    ∀ r, l.foldl f o = some r → Keeps s0 r :=
  foldl_keeps (fun o : Option State => ∀ r, o = some r → Keeps s0 r) _ _ _ ho hf

theorem keeps_id {s0 s : State} (h : Keeps s0 s) : Keeps s0 (id s) := h

/-! A job's run keeps what its state keeps. -/

theorem keeps_foldlR {β : Type} {s0 : State} (f : Run → β → Run) (l : List β) (r : Run) (h : Keeps s0 r.s)
    (hf : ∀ r b, Keeps s0 r.s → Keeps s0 (f r b).s) : Keeps s0 (l.foldl f r).s := foldl_keeps (fun r : Run => Keeps s0 r.s) _ _ _ h hf

theorem keeps_foldlR1 {β γ : Type} {s0 : State} (f : Run × γ → β → Run × γ) (l : List β) (r : Run × γ) (h : Keeps s0 r.1.s)
    (hf : ∀ r b, Keeps s0 r.1.s → Keeps s0 (f r b).1.s) : Keeps s0 (l.foldl f r).1.s :=
  foldl_keeps (fun r : Run × γ => Keeps s0 r.1.s) _ _ _ h hf

theorem keeps_overBelowR {s0 : State} (n : Nat) (f : Nat → Run → Run) (r : Run) (h : Keeps s0 r.s)
    (hf : ∀ i r, Keeps s0 r.s → Keeps s0 (f i r).s) : Keeps s0 (overBelow n f r).s := keeps_foldlR _ _ _ h fun r i => hf i r

theorem keeps_iteR {s0 : State} (c : Prop) [Decidable c] {a b : Run} (ha : c → Keeps s0 a.s) (hb : ¬ c → Keeps s0 b.s) :
    Keeps s0 (if c then a else b).s := by split <;> simp_all

theorem wf_foldl {β : Type} (f : Memory → β → Memory) (l : List β) (m : Memory) (h : m.wf = true)
    (hf : ∀ (m : Memory) b, m.wf = true → (f m b).wf = true) : (l.foldl f m).wf = true := foldl_keeps (fun m : Memory => m.wf = true) _ _ _ h hf

theorem wf_overBelow (n : Nat) (f : Nat → Memory → Memory) (m : Memory) (h : m.wf = true)
    (hf : ∀ i (m : Memory), m.wf = true → (f i m).wf = true) : (overBelow n f m).wf = true := wf_foldl _ _ _ h fun m i => hf i m

/-! ### The updates everything is written with -/

theorem State.wr_keeps {s0 s : State} (k : Nat) (v : Word) (h : Keeps s0 s) : Keeps s0 (s.wr k v) :=
  ⟨h.1, fun w => ⟨(h.2.1 w).1, spWf_spSet _ _ _ _ (h.2.1 w).2.1, (h.2.1 w).2.2⟩, h.2.2⟩

theorem State.setTile_keeps {s0 s : State} (p : Nat) (t : Tile) (h : Keeps s0 s) : Keeps s0 (s.setTile p t) :=
  ⟨h.1, fun w => ⟨(h.2.1 w).1, (h.2.1 w).2.1, spWf_spSet _ _ _ _ (h.2.1 w).2.2⟩, h.2.2⟩

theorem State.onMem_keeps {s0 s : State} (f : Memory → Memory) (h : Keeps s0 s) (hf : ∀ m : Memory, m.wf = true → (f m).wf = true) :
    Keeps s0 (s.onMem f) := ⟨h.1, fun w => ⟨hf _ (h.2.1 w).1, (h.2.1 w).2⟩, h.2.2⟩

theorem State.filterRegs_keeps {s0 s : State} (f : Nat × Word → Bool) (h : Keeps s0 s) : Keeps s0 { s with regs := s.regs.filter f } :=
  ⟨h.1, fun w => ⟨(h.2.1 w).1, spWf_filter _ _ _ (h.2.1 w).2.1, (h.2.1 w).2.2⟩, h.2.2⟩

theorem Keys.setSlot_fuses (k : Keys) (n : Nat) (x : Option KeySlot) (i : Nat) (h : k.fuses.getLsbD i = true) :
    (k.setSlot n x).fuses.getLsbD i = true := by
  unfold Keys.setSlot
  split <;> exact h

theorem State.shadow_keeps {s0 s : State} (x : Sparse Tile) (h : Keeps s0 s) : Keeps s0 { s with shadow := x } := h

theorem State.lastStatus_keeps {s0 s : State} (x : BitVec 8) (h : Keeps s0 s) : Keeps s0 { s with lastStatus := x } := h

theorem State.readData_keeps {s0 s : State} (r : Word) (x : BitVec 8) (h : Keeps s0 s) : Keeps s0 { s with readData := r, lastStatus := x } := h

theorem State.integ_keeps {s0 s : State} (x : Integ) (h : Keeps s0 s) : Keeps s0 { s with integ := x } := h

end Sys2Proof.Machine
end

