-- ==== Sys2Proof/WellFormed.lean ====
section
/-! DEFINITION. Which commands are well-formed: what the types of their operands alone do not say. A command that is not well-formed is one
that nothing outside the device can give; its meaning is total all the same. -/

namespace Sys2Proof

/-- A source unit that is not reserved (Table 2.9). -/
def unitOk (u : BitVec 4) : Bool := decide (u.toNat ≤ 12) && u != 7

/-- A request carries at most 16 payload flits (Table 2.10) and comes from a unit that exists. -/
def ReqFlit.wellFormed (r : ReqFlit) : Bool := decide (r.payload.length ≤ 256) && unitOk r.srcUnit

/-- A response carries at most 64 payload flits (R59). -/
def RespFlit.wellFormed (r : RespFlit) : Bool := decide (r.payload.length ≤ 1024) && unitOk r.dstUnit

/-- What a packet carries is well-formed. -/
def Packet.wellFormed : Packet → Bool
  | .req r => r.wellFormed
  | .resp r => r.wellFormed
  | .credit c => unitOk c.issuer.unit
  | .notice _ n => n.bytes.length == 16

/-- The first flit of a packet carries a well-formed one. -/
def DataFlit.wellFormed : DataFlit → Bool
  | .head p => p.wellFormed
  | .body => true

/-- A frame has at most 21 data flits, as its COUNT says, in one of the six virtual channels (R528, Table 15.2). -/
def frameWellFormed (flit : BitVec 128) (data : List (DataFlit × BitVec 128)) : Bool :=
  decide (data.length ≤ 21) && data.length == (flit.extractLsb' 33 5).toNat && decide ((flit.extractLsb' 38 3).toNat < 6) &&
    data.all (fun d => d.1.wellFormed)

/-- A register stands at a word offset of its unit: 64 slots, 64 MB of tile control space, 64 MB of a block (R26, R492). -/
def RegRef.wellFormed (g : RegRef) : Bool :=
  g.off % 4 == 0 && (match g.unit with | .hostBus => decide (g.off < 0x100) | _ => decide (g.off < 2 ^ 26))

/-- The cells of the boundary register (R686). -/
def cellsOk (l : List Bool) : Bool := l.length == 254

/-- A board has 1 to 16 chips (R14). -/
def PeerView.wellFormed (v : PeerView) : Bool := decide (1 ≤ v.chips) && decide (v.chips ≤ 16)

/-- The lines of a range are of 64 bytes (R27). -/
def FarRead.wellFormed (f : FarRead) : Bool := f.lines.all (·.all (·.length == 64))

/-- A command is well-formed. -/
def Instr.wellFormed (i : Instr) : Bool :=
  match i with
  | .get r | .put r | .add r | .max r | .swap r | .cas r | .gatherSum r | .post r => r.wellFormed
  | .ringPush r | .ringClaim r | .ringPublish r | .ringTailMove r | .recordCommit r | .hintWrite r | .wakeReqWrite r => r.wellFormed
  | .responseArrival r => r.wellFormed
  | .creditArrival c => unitOk c.issuer.unit
  | .creditSend q _ => unitOk q.unit
  | .noticeSend n => (match n with | some x => x.bytes.length == 16 | none => true)
  | .rcCounterRead g | .registerWrite _ g _ _ => g.wellFormed
  | .contractCmdActivate _ v | .contractCmdCheck _ v => v.wellFormed
  | .linkFrameReceive _ w ds => frameWellFormed w ds
  | .loadChunk _ f | .seal _ f | .unseal _ f | .exportRecord _ f | .restore _ f => f.all FarRead.wellFormed
  | .nvCmdRead n | .nvCmdProgram n | .nvCmdErase n | .nvCmdPutRecord n => decide (n.toNat ≤ 256)
  | .limiterUpdate n _ => decide (n < 65536)
  | .extest c s | .samplePreload c s => cellsOk c && cellsOk s
  | .privateScan o _ => decide (0x80 ≤ o.toNat) && decide (o.toNat ≤ 0xFE)
  | _ => true

end Sys2Proof
end

