-- ==== Sys2Proof/Tests/Slice0.lean ====
section
/-! SUPPORT. Tests: for each statement, states and operands that meet its hypotheses, at the ends of their ranges; commands that WellFormed refuses; and
results worked out from the spec. Each theorem is checked before the next is read, since many at a time need more threads than a run may have. -/

namespace Sys2Proof.Tests

open Sys2Proof.Machine

set_option Elab.async false

/-! ### Small states -/

/-- The device after READY, 500 ms after its reset. -/
def dev : State :=
  { State.reset.setBit Reg.HB_STATUS 0 true with time := 500000, boot := { State.reset.boot with low := false } }

/-- The device before READY. -/
def early : State := { State.reset with time := 500000, boot := { State.reset.boot with low := false } }

/-- A word of a tile's control space. -/
def tw (s : State) (l o v : Nat) : State := s.onL l (·.wr o (BitVec.ofNat 32 v))

/-- A register of a chip block or of the host bus. -/
def cw (s : State) (k v : Nat) : State := s.wr k (BitVec.ofNat 32 v)

/-- Words in a row in a tile's SRAM. -/
def poke (s : State) (l o : Nat) (ws : List Nat) : State := s.onMem (fun m => m.store false (sramKey (s.physOf l) o) (ws.flatMap (toBytes 4)))

/-- Thread i of tile l is RUNNING at a pc. -/
def run (s : State) (l i pc : Nat) : State := s.onL l (fun t => (t.setTstate i tRunning).setPc i pc)

/-- Scalars from s0 on. -/
def regs (s : State) (l i : Nat) (ws : List Nat) : State := ws.zipIdx.foldl (fun s p => tw s l (Reg.S_REG i p.2) p.1) s

/-- The lanes of a vector from lane 0 on. -/
def lanes (s : State) (l i v : Nat) (ws : List Nat) : State := ws.zipIdx.foldl (fun s p => tw s l (Reg.V_REG i v p.2) p.1) s

/-- The operand fields of a microcode word. -/
def ui (d a b imm : Nat) : UInsn := { dst := BitVec.ofNat 6 d, srca := BitVec.ofNat 6 a, srcb := BitVec.ofNat 6 b, imm := BitVec.ofNat 36 imm }

/-- The hidden state of a thread. -/
def hid (s : State) (l i : Nat) (f : Thread → Thread) : State := s.onL l (·.onThread i f)

/-- Thread 1 of tile 3 at word 10 with scalars and vectors. -/
def th : State := lanes (lanes (regs (run dev 3 1 10) 3 1 [5, 0xFFFFFFFE, 7, 0x80000000, 33]) 3 1 0 [1, 2, 3, 4, 0x8000, 0x7FFF]) 3 1 1 [5, 0xFFFFFFFF, 0, 0x8000]

/-! ### States that meet the hypotheses of the statements, in their order -/

theorem test_ScalarInstructions_met : th.mayIssue 3 1 { dst := .sc, a := .sc, b := .sc } (ui 2 0 1 0) ∧ th.hasNext 3 1 ∧
    th.mayIssue 3 1 { dst := .sc, a := .no, b := .no } (ui 0 63 63 0xFFFFFFFFF) := by
  unfold State.mayIssue State.hasNext; decide +kernel

theorem test_Branches_met :
    (∀ p ∈ branchOps, th.mayIssue 3 1 p.2.1 (ui 0 0 1 20)) ∧ (th.ltile 3).inImage 1 20 = true ∧
    ((run dev 3 1 2047).ltile 3).inImage 1 2048 = false ∧ (run dev 3 1 2047).mayIssue 3 1 { dst := .no, a := .no, b := .no } (ui 0 0 0 20) ∧
    th.mayIssue 3 1 { dst := .sc, a := .no, b := .no } (ui 0 0 0 20) := by
  unfold State.mayIssue; decide +kernel

/-- th with a call stack. -/
def called (st : List Nat) : State := hid th 3 1 (fun h => { h with stack := st })

theorem test_CallsAndReturns_met :
    (∀ st ∈ [[], [4], [1, 2, 3, 4, 5, 6, 7], [1, 2, 3, 4, 5, 6, 7, 8]], (called st).mayIssue 3 1 { dst := .no, a := .no, b := .no } (ui 0 0 0 2047) ∧
      ((called st).ltile 3).inImage 1 2047 = true ∧ (((called st).ltile 3).thread 1).stack = st) ∧ ((called [4]).ltile 3).inImage 1 4 = true := by
  unfold State.mayIssue; decide +kernel

theorem test_NopHaltYieldIdle_met :
    th.mayIssue 3 1 { dst := .no, a := .no, b := .no } (ui 0 0 0 0) ∧ th.hasNext 3 1 ∧ ((th.ltile 3).thread 1).dispq = [] := by
  unfold State.mayIssue State.hasNext; decide +kernel

theorem test_LaneOperations_met : th.mayIssue 3 1 { dst := .vec, a := .vec, b := .vec } (ui 18 16 17 0) ∧ th.hasNext 3 1 := by
  unfold State.mayIssue State.hasNext; decide +kernel

theorem test_LaneMoves_met :
    th.hasNext 3 1 ∧ th.mayIssue 3 1 { dst := .vec, a := .either, b := .no } (ui 18 2 0 0) ∧
    th.mayIssue 3 1 { dst := .vec, a := .either, b := .no } (ui 18 16 0 15) ∧ (ui 18 2 0 31).imm.getLsbD 4 = true ∧
    th.mayIssue 3 1 { dst := .vec, a := .sc, b := .no } (ui 18 2 0 31) ∧ (ui 2 16 0 15).imm.getLsbD 4 = false ∧
    th.mayIssue 3 1 { dst := .sc, a := .vec, b := .no } (ui 2 16 0 15) := by
  unfold State.mayIssue State.hasNext; decide +kernel

theorem test_SaturatingLanes_met :
    th.hasNext 3 1 ∧ th.mayIssue 3 1 { dst := .vec, a := .vec, b := .vec } (ui 18 16 17 0) ∧
    th.mayIssue 3 1 { dst := .vec, a := .vec, b := .no } (ui 18 16 0 63) := by
  unfold State.mayIssue State.hasNext; decide +kernel

/-- SRAM of tile 3 written from 0x100 on and at its end; s0 to s2 address it, and the lanes of v1 are the indices 0 to 15. -/
def sramful : State :=
  lanes (regs (run (poke (poke dev 3 0x100 ((List.range 64).map (· * 0x1234567))) 3 0x3FFC0 (List.range 16)) 3 1 10) 3 1 [0x100, 0x3FFFC, 0x3FFC0])
    3 1 1 (List.range 16)

/-- An LDST word: operands, offset and element type. -/
def mem (d a b off ty : Nat) : UInsn := ui d a b (off + 2 ^ 18 * ty)

theorem test_Loads_met :
    elemType (mem 4 0 17 8 6) ≠ 7 ∧ sramful.hasNext 3 1 ∧
    sramful.mayIssue 3 1 { dst := .sc, a := .sc, b := .no } (mem 4 1 0 0 4) ∧
    sramful.readable 3 (sramful.ldstBase 3 1 (mem 4 1 0 0 4)) (elemSize (elemType (mem 4 1 0 0 4))) ∧
    sramful.mayIssue 3 1 { dst := .vec, a := .sc, b := .no } (mem 18 2 0 0 4) ∧
    sramful.readable 3 (sramful.ldstBase 3 1 (mem 18 2 0 0 4)) (16 * elemSize (elemType (mem 18 2 0 0 4))) ∧
    sramful.mayIssue 3 1 { dst := .vec, a := .sc, b := .vec } (mem 18 0 17 8 4) ∧
    ∀ j < 16, sramful.readable 3 (sramful.ldstBase 3 1 (mem 18 0 17 8 4) + ((sramful.ltile 3).lane 1 17 j).toNat * elemSize (elemType (mem 18 0 17 8 4)))
      (elemSize (elemType (mem 18 0 17 8 4))) := by
  unfold State.mayIssue State.hasNext State.readable State.cleanLine; decide +kernel

theorem test_Stores_met :
    elemType (mem 2 1 0 0 4) ≠ 7 ∧ sramful.hasNext 3 1 ∧
    sramful.mayIssue 3 1 { dst := .sc, a := .sc, b := .no } (mem 2 1 0 0 4) ∧
    sramful.writable 3 (sramful.ldstBase 3 1 (mem 2 1 0 0 4)) (elemSize (elemType (mem 2 1 0 0 4))) ∧
    sramful.mayIssue 3 1 { dst := .vec, a := .sc, b := .no } (mem 17 2 0 0 4) ∧
    sramful.writable 3 (sramful.ldstBase 3 1 (mem 17 2 0 0 4)) (16 * elemSize (elemType (mem 17 2 0 0 4))) ∧
    sramful.mayIssue 3 1 { dst := .vec, a := .sc, b := .vec } (mem 17 0 17 8 4) ∧
    ∀ j < 16, sramful.writable 3 (sramful.ldstBase 3 1 (mem 17 0 17 8 4) + ((sramful.ltile 3).lane 1 17 j).toNat * elemSize (elemType (mem 17 0 17 8 4)))
      (elemSize (elemType (mem 17 0 17 8 4))) := by
  unfold State.mayIssue State.hasNext State.writable State.cleanLine; decide +kernel

theorem test_StatInstructions_met :
    th.hasNext 3 1 ∧ th.mayIssue 3 1 { dst := .sc, a := .no, b := .no } (ui 2 0 0 0x11) ∧ (ui 2 0 0 0x11).imm.toNat % 32 ≤ 0x11 ∧
    th.mayIssue 3 1 { dst := .sc, a := .no, b := .no } (ui 2 0 0 0x12) ∧ 0x11 < (ui 2 0 0 0x12).imm.toNat % 32 ∧
    th.mayIssue 3 1 { dst := .no, a := .no, b := .no } (ui 0 0 0 0x3F) := by
  unfold State.mayIssue State.hasNext; decide +kernel

/-- th with sync object 1 PENDING. -/
def pending1 : State := tw th 3 (Reg.SYNC_CFG 1) (2 ^ 21 + 1)

/-- pending1 with the thread WAITING for objects 1 and 2, or for both, until a deadline. -/
def waiting (both : Bool) (d : Option Nat) : State :=
  hid (pending1.onL 3 (·.setTstate 1 tWaiting)) 3 1
    (fun h => { h with wait := some { syncs := 6, rings := 0, all := both, dst := 3, deadline := d } })

/-- The wait of such a state. -/
def waitFor (both : Bool) (d : Option Nat) : WaitState := { syncs := 6, rings := 0, all := both, dst := 3, deadline := d }

theorem test_Waits_met :
    pending1.hasNext 3 1 ∧ pending1.mayIssue 3 1 { dst := .sc, a := .sc, b := .no } (ui 2 2 0 0) ∧
    pending1.waitDone 3 { syncs := 7, rings := 0, all := false, dst := 2, deadline := none } = true ∧
    pending1.mayIssue 3 1 { dst := .sc, a := .sc, b := .sc } (ui 2 2 0 0x100) ∧
    pending1.waitDone 3 { syncs := 7, rings := 0, all := true, dst := 2, deadline := some 500005 } = false ∧
    (∀ p ∈ [(false, none), (true, none), (true, some 500000), (true, some 500001)], (waiting p.1 p.2).hasNext 3 1 ∧
      ((waiting p.1 p.2).ltile 3).tstate 1 = tWaiting ∧ (((waiting p.1 p.2).ltile 3).thread 1).wait = some (waitFor p.1 p.2)) ∧
    (waiting false none).waitDone 3 (waitFor false none) = true ∧ (waiting true none).waitDone 3 (waitFor true none) = false ∧
    500000 ≤ (waiting true (some 500000)).now ∧ (waiting true (some 500001)).now < 500001 := by
  unfold State.mayIssue State.hasNext; decide +kernel

theorem test_Signals_met :
    th.hasNext 3 1 ∧ th.mayIssue 3 1 { dst := .no, a := .no, b := .sc } (ui 0 0 0 31) ∧ th.fireTimes 3 31 5 = 0 ∧
    (tw (tw th 3 (Reg.SYNC_CFG 31) 3) 3 (Reg.SYNC_THRESHOLD 31) 2).fireTimes 3 31 5 = 2 := by
  unfold State.mayIssue State.hasNext; decide +kernel

theorem test_Pops_met : th.hasNext 3 1 ∧ th.mayIssue 3 1 { dst := .sc, a := .no, b := .sc } (ui 2 0 0 7) := by
  unfold State.mayIssue State.hasNext; decide +kernel

/-- Events of tile 3 enabled: 20 neurons, 4 beats of slots from 0x8000 on, EV_BEAT 1030; s0 to s2 are neurons. -/
def spiking : State :=
  let s := tw (tw (tw (tw (tw dev 3 Reg.EV_NEURON_BASE 0x8000) 3 Reg.EV_NEURON_COUNT 20) 3 Reg.EV_SYN_BASE 0x6000) 3 Reg.EV_CFG (1 + 2 * 2)) 3 Reg.EV_BEAT 1030
  lanes (regs (run (poke s 3 0x8000 (List.range 128)) 3 1 10) 3 1 [19, 16, 32]) 3 1 0 [1, 0, 3, 4]

theorem test_NeuronInstructions_met :
    spiking.hasNext 3 1 ∧ (spiking.ltile 3).bit Reg.EV_CFG 0 = true ∧ (spiking.ltile 3).evClear = false ∧
    spiking.mayIssue 3 1 { dst := .sc, a := .no, b := .no } (ui 2 0 0 1) ∧ spiking.mayIssue 3 1 { dst := .no, a := .sc, b := .vec } (ui 0 1 16 1) ∧
    (∀ k ∈ ((List.range 16).filter (fun j => (spiking.ltile 3).lane 1 16 j != 0)).map (16 + ·), k < 20) ∧
    (spiking.ltile 3).spikesFit ((spiking.ltile 3).tclass 1) 3 = true ∧ spiking.mayIssue 3 1 { dst := .no, a := .sc, b := .no } (ui 0 0 0 0) ∧
    (spiking.sget 3 1 0).toNat < (spiking.ltile 3).fld Reg.EV_NEURON_COUNT 16 0 ∧ spiking.mayIssue 3 1 { dst := .vec, a := .sc, b := .no } (ui 17 1 0 0) ∧
    spiking.localsDone 3 = true ∧ (spiking.ltile 3).npad ≤ (spiking.sget 3 1 2).toNat ∧ (spiking.sget 3 1 1).toNat < (spiking.ltile 3).npad ∧
    spiking.readable 3 (0x8000 + 4 * (32 * (1030 % 4) + 16)) 64 ∧ (ui 0 1 16 3).imm.toNat % 64 < 4 ∧
    spiking.readable 3 (0x8000 + 4 * (32 * (1033 % 4) + 16)) 64 := by
  unfold State.mayIssue State.hasNext State.readable State.cleanLine; decide +kernel

/-- An engine job of thread 1. -/
def job (e : Engine) (running : Bool) (ws : List Nat) : Job :=
  { engine := e, thread := 1, desc := takeBytes 64 (ws.flatMap (toBytes 4)), gdesc := [], cls := 3, ftz := false, seq := 1, running := running }

/-- A gate descriptor and a scan descriptor. -/
def gateDesc : List Nat := [0x400, 0, 0, 0, 0, 0, 0, 0, 0, 0, 0, 0x200500, 0, 0, 0, 0]
def scanDesc : List Nat := [0, 0, 0x200, 0, 0, 0x300, 0, 0]

/-- Descriptors of the three engines at s0, s1 and s2, the last matrix one forwarding at s3, and jobs queued. -/
def engines (js : List Job) : State :=
  let s := poke (poke (poke (tw dev 3 (Reg.GATE_PROG 0 0) 0x81) 3 0x100 (List.replicate 16 0)) 3 0x140 (scanDesc ++ List.replicate 8 0)) 3 0x180 gateDesc
  let s := poke (poke s 3 0x200 [0, 0, 0, 0, 0, 0, 1]) 3 0x240 (0 :: gateDesc.drop 1)
  (regs (run s 3 1 10) 3 1 [0x100, 0x140, 0x180, 0x200]).onL 3 (fun t => { t with jobs := js })

theorem test_EngineInstructions_met :
    (engines []).hasNext 3 1 ∧
    (∀ p ∈ [(startOps[0], 0), (startOps[1], 2), (startOps[2], 1)],
      let a := ((engines []).sget 3 1 (BitVec.ofNat 6 p.2)).toNat
      (engines []).mayIssue 3 1 { dst := .no, a := .sc, b := .no } (ui 0 p.2 0 0) ∧ ((engines []).ltile 3).queuedJobs p.1.2.1 1 < 4 ∧ a % 64 = 0 ∧
      (engines []).readable 3 a 64 ∧ p.1.2.2.2 ((engines []).sram 3 a 64) = false ∧
      p.1.2.2.1 ((engines []).ltile 3) (((engines []).ltile 3).tclass 1) ((engines []).sram 3 a 64) [] = none) ∧
    mmFwd ((engines []).sram 3 0x200 64) = true ∧ (engines []).readable 3 0x240 64 ∧
    (∀ p ∈ startOps, 4 ≤ ((engines (List.replicate 4 (job p.2.1 false []))).ltile 3).queuedJobs p.2.1 1) ∧
    (∀ p ∈ waitOps, p.2 ((engines []).ltile 3) 1 = false ∧
      p.2 ((engines [job .matrix false [], job .gate false gateDesc, job .scan false scanDesc]).ltile 3) 1 = true) ∧
    (engines []).mayIssue 3 1 { dst := .no, a := .no, b := .no } (ui 0 0 0 0) := by
  unfold State.mayIssue State.hasNext State.readable State.cleanLine; decide +kernel

theorem test_AccumulatorInstructions_met :
    th.hasNext 3 1 ∧ th.mayIssue 3 1 { dst := .vec, a := .sc, b := .no } (ui 17 0 0 4075) ∧ (th.sget 3 1 0).toNat + 4075 + 16 = 4096 ∧
    (∀ b < 8, (th.ltile 3).bankUsed b = false) ∧ (∀ j < 16, spGet (fun _ => 0) (th.ltile 3).accErr (4080 + j) = 0) ∧
    th.mayIssue 3 1 { dst := .vec, a := .sc, b := .no } (ui 17 0 0 4076) ∧ 4096 < (th.sget 3 1 0).toNat + 4076 + 16 ∧
    th.mayIssue 3 1 { dst := .no, a := .sc, b := .vec } (ui 0 0 17 4075) ∧ th.mayIssue 3 1 { dst := .no, a := .no, b := .no } (ui 0 0 0 7) ∧
    th.mayIssue 3 1 { dst := .sc, a := .no, b := .no } (ui 2 0 0 15) ∧ (th.ltile 3).hasGate 1 = false := by
  unfold State.mayIssue State.hasNext; decide +kernel

/-- s0 and s1 address chip 0, tile 3 (the tile itself) or tile 9, chip 2 by a route; s2 is an operand, s3 an operand's place, that of a descriptor. -/
def remote (chip tile : Nat) : State :=
  let a := (mkAddr chip 0 tile 0x40).toNat
  regs (run (poke (poke (cw dev (Reg.ROUTE 2) (2 ^ 21 + 8)) 3 0x100 (List.range 64)) 3 0x200 (2 ^ 26 * 3 :: List.replicate 15 0)) 3 1 10) 3 1
    [a % 2 ^ 32, a / 2 ^ 32, 7, 0x100, 0x200]

theorem test_RemoteInstructions_met :
    (∀ s ∈ [remote 0 3, remote 0 9, remote 2 7], s.hasNext 3 1 ∧ (s.ltile 3).awaits 1 1 = false ∧
      s.issueError (BitVec.ofNat 40 ((s.sget 3 1 0).toNat + 2 ^ 32 * ((s.sget 3 1 1).toNat % 256))) = none ∧
      (s.ltile 3).mayIssue s.now 1 2 true false = true ∧ (s.ltile 3).mayIssue s.now 1 2 false false = true) ∧
    (remote 0 3).selfServed 3 (mkAddr 0 0 3 0x40) = true ∧ (remote 0 9).selfServed 3 (mkAddr 0 0 9 0x40) = false ∧
    (∀ p ∈ (remote 2 7).remoteForms 3 1 (ui 5 0 2 0x82), p.2.reads = 0 → (remote 2 7).mayIssue 3 1 (remoteUses p.2.op (ui 5 0 2 0x82)) (ui 5 0 2 0x82)) ∧
    (∀ p ∈ (remote 2 7).remoteForms 3 1 (ui 5 0 3 0x82), p.2.reads = 8 → (remote 2 7).mayIssue 3 1 (remoteUses p.2.op (ui 5 0 3 0x82)) (ui 5 0 3 0x82)) ∧
    (remote 2 7).readable 3 ((remote 2 7).sget 3 1 3).toNat 8 ∧
    (∀ p ∈ (remote 2 7).remoteForms 3 1 (ui 5 0 4 0x82), p.2.op = 7 → p.2.reads = 48 ∧ p.2.result = 12 ∧
      (remote 2 7).mayIssue 3 1 (remoteUses p.2.op (ui 5 0 4 0x82)) (ui 5 0 4 0x82)) ∧
    (remote 2 7).readable 3 ((remote 2 7).sget 3 1 4).toNat 48 := by
  unfold State.mayIssue State.hasNext State.readable State.cleanLine; decide +kernel

/-- An operation of thread 1 under way. -/
def op (seq tag : Nat) (acked : Bool) (dst : ResultTo) : Outst :=
  { seq := seq, unit := 1, owner := 1, acked := acked, prio := 1, tag := BitVec.ofNat 10 tag, target := 5, size := 4, dst := dst, since := 5 }

/-- th with five operations issued, of which one is under way, for s7. -/
def issued : State := th.onL 3 (fun t => { t with seq := 5, out := [op 3 4 true (.reg 7)] })

/-- Where no hidden state of a thread differs from that at reset, no thread has a FENCE. -/
theorem noFences (s : State) (l : Nat) (h : (s.ltile l).thr = []) : ∀ j, ((s.ltile l).thread j).fences = [] := by
  intro j; unfold Tile.thread; rw [h]; rfl

theorem test_Fences_met :
    (th.hasNext 3 1 ∧ issued.hasNext 3 1 ∧ th.mayIssue 3 1 { dst := .sc, a := .no, b := .no } (ui 5 0 0 0) ∧
      issued.mayIssue 3 1 { dst := .sc, a := .no, b := .no } (ui 5 0 0 2) ∧
      (th.ltile 3).out = [] ∧ (th.ltile 3).spikes = [] ∧ (th.ltile 3).cursors = [] ∧
      ∃ o ∈ (issued.ltile 3).out, o.unit ≠ 5 ∧ o.owner = 1 ∧ o.seq < (issued.ltile 3).seq ∧ (2#3).getLsbD o.prio.toNat = true) ∧
    (∀ j, ((th.ltile 3).thread j).fences = []) ∧ ∀ j, ((issued.ltile 3).thread j).fences = [] := by
  refine ⟨?_, noFences _ _ (by decide +kernel), noFences _ _ (by decide +kernel)⟩
  unfold State.mayIssue State.hasNext; decide +kernel

theorem test_OperandChecks_met :
    (dev.ltile 3).tstate 1 ≠ tRunning ∧ (th.ltile 3).tstate 1 = tRunning ∧ (∀ o ∈ [uSaluAdd, uVadd, uLd, uSpike, uMmStart, uRemoteGet, uWait,
      uMaRead], (o.uses (ui 60 60 60 0)).ok (ui 60 60 60 0) = false) ∧
    (issued.ltile 3).tstate 1 = tRunning ∧ (uSaluAdd.uses (ui 7 0 1 0)).ok (ui 7 0 1 0) = true ∧
    (uSaluAdd.uses (ui 7 0 1 0)).blocked (issued.ltile 3) 1 (ui 7 0 1 0) = true := by decide +kernel

/-- Thread 1 of tile 3 in a state of Table 3.2. -/
def inState (st : Nat) : State := th.onL 3 (·.setTstate 1 st)

theorem test_ThreadCommands_met :
    (∀ st ∈ [tIdle, tHalted, tFault], ((inState st).ltile 3).tstate 1 = st ∧ ¬(st = tRunning ∨ st = tWaiting ∨ st = tStalled)) ∧
    (∀ st ∈ [tRunning, tWaiting, tStalled], ((inState st).ltile 3).tstate 1 = st ∧ ¬(st = tIdle ∨ st = tHalted ∨ st = tFault)) ∧
    (∀ st ≤ 5, (inState st).tileUp 3 = true) ∧ early.tileUp 3 = false ∧ (dev.setFld (Reg.TILE_MAP 3) 26 24 3).tileUp 3 = false := by decide +kernel

theorem test_StallRetry_met :
    let s := hid (inState tStalled) 3 1 (fun h => { h with stalled := some (uSaluAdd.word (ui 7 0 1 0)) })
    (s.ltile 3).tstate 1 = tStalled ∧ ((s.ltile 3).thread 1).stalled = some (uSaluAdd.word (ui 7 0 1 0)) := by decide +kernel

/-- The clock of physical tile 3 runs at a set frequency, with CLK_STATUS's other bits, or stands. -/
def clock (status : Nat) : State := tw dev 3 Reg.CLK_STATUS status

/-- Timer of tile 3: TIMER_CTRL, TIMER_CMP, TIMER_PERIOD. -/
def timer (ctrl cmp period : Nat) : State := tw (tw (tw dev 3 Reg.TIMER_CTRL ctrl) 3 Reg.TIMER_CMP cmp) 3 Reg.TIMER_PERIOD period

theorem test_TileClocks_met :
    (((tw (clock 0x5F4) 3 Reg.TILE_CONFIG (5 * 2 ^ 16)).tile 3).bit Reg.CLK_STATUS 10 = true ∧ (tw (clock 0x5F4) 3 Reg.TILE_CONFIG (5 * 2 ^ 16)).tileQuiet 3 = true ∧
      ((tw (clock 0x5F4) 3 Reg.TILE_CONFIG (5 * 2 ^ 16)).tile 3).fld Reg.TILE_CONFIG 23 16 = 5) ∧
    (clock 0x5F4).oscMhz 3 = 100 ∧ 10 * 89 < 9 * 100 ∧ ¬10 * 90 < 9 * 100 ∧ 11 * 100 < 10 * 111 ∧ (timer 5 500000 0).tileRuns 3 = true ∧
    (timer 5 500000 0).tileUp 3 = true ∧ early.tileUp 3 = false ∧
    ((clock 0x5F4).tile 3).bit Reg.CLK_STATUS 11 = false ∧ ((clock 0xDF4).tile 3).bit Reg.CLK_STATUS 11 = true ∧
    wbit (((timer 5 500000 0).ltile 3).rd Reg.TIMER_CTRL) 0 = true ∧
    ((timer 5 500000 0).now32 - ((timer 5 500000 0).ltile 3).rd Reg.TIMER_CMP).msb = false ∧
    ((timer 5 500001 0).now32 - ((timer 5 500001 0).ltile 3).rd Reg.TIMER_CMP).msb = true ∧
    wbit (((timer 0x45 499000 300).ltile 3).rd Reg.TIMER_CTRL) 6 = true ∧ ((timer 0x45 499000 300).ltile 3).rd Reg.TIMER_PERIOD ≠ 0 := by
  decide +kernel

/-- A request of another tile to an offset of tile 3. -/
def req (op off size : Nat) : ReqFlit :=
  { op := BitVec.ofNat 5 op, ack := true, anyEpoch := true, notice := true, prio := 1, epoch := 0, addr := mkAddr 0 0 3 off, size := BitVec.ofNat 4 size,
    type := 0, tag := 5, srcChip := 1, srcTile := 0x12, srcUnit := 1, arg0 := 2, payload := (List.range 64).map (fun k => BitVec.ofNat 8 (3 * k)), owner := 1 }

/-- The slots of tile 3 are being cleared, with POSTs held or none. -/
def clearing (held : List ReqFlit) : State := spiking.onL 3 (fun t => { t with evClear := true, posts := held })

theorem test_EventStateWrites_met :
    let t := spiking.ltile 3
    spiking.tileUp 3 = true ∧ (tw spiking 3 Reg.EV_CFG 4).tileUp 3 = true ∧ early.tileUp 3 = false ∧ wbit (t.rd Reg.EV_CFG) 0 = true ∧
      wfld (t.rd Reg.EV_CFG) 6 1 ≠ wfld 7 6 1 ∧ wfld (t.rd Reg.EV_CFG) 6 1 = wfld 5 6 1 ∧
    wbit ((dev.ltile 3).rd Reg.EV_CFG) 0 = false ∧ wfld 3 3 1 < 2 ∧ 2 ≤ wfld 5 3 1 ∧ wfld 5 3 1 ≤ 6 ∧ t.fld Reg.EV_NEURON_COUNT 16 0 = 20 ∧
    t.fld Reg.EV_NEURON_BASE 17 6 * 64 + 2 ^ wfld 5 3 1 * 32 * 4 ≤ 0x40000 ∧ t.fld Reg.EV_SYN_BASE 17 6 * 64 + 4 * 20 ≤ 0x40000 ∧
    wbit (((tw spiking 3 Reg.EV_CFG 4).ltile 3).rd Reg.EV_CFG) 0 = false ∧
    t.evClear = false ∧ ((clearing []).ltile 3).evClear = true ∧ ((clearing []).ltile 3).posts = [] ∧
    ((clearing [req 8 3 0]).ltile 3).evClear = true ∧ ((clearing [req 8 3 0]).ltile 3).posts ≠ [] ∧
    ((spiking.onL 3 (fun t => { t with spikes := [{ neuron := 3, neg := false, stamp := 3, thread := 1, class0 := false, prio := 1, seq := 2, locals := false }] })).ltile 3).spikes ≠ [] := by
  decide +kernel

/-- Ring 2 of tile 3 at 0x4000: 16 slots of 64 bytes, 3 of them reserved, with HEAD, COMMIT and TAIL. -/
def ring (h c t : Nat) : State := poke (tw (tw dev 3 (Reg.RING_BASE 2) 0x4000) 3 (Reg.RING_CFG 2) (0x80 + 4 * 8 + 2 + 3 * 256)) 3 0x4000 [h, c, t, 0]

/-- The same ring, disabled. -/
def ringOff (h c t : Nat) : State := tw (ring h c t) 3 (Reg.RING_CFG 2) 0x322

/-- ringOff with its header line poisoned. -/
def ringPoisoned : State := (ringOff 9 9 5).onMem (fun m => m.setPoison false (sramKey ((ringOff 9 9 5).physOf 3) 0x4000 / 64) true)

theorem test_RingSyncAndProbeWrites_met :
    (∀ s ∈ [ring 9 8 5, ring 9 5 5, ringOff 9 9 5, ringPoisoned, tw dev 3 (Reg.SYNC_CFG 31) 3], s.tileUp 3 = true) ∧ early.tileUp 3 = false ∧
    (ringOff 9 9 5).cleanLine 3 (0x4000 / 64) ∧ wbit ((ringPoisoned.ltile 3).rd (Reg.RING_CFG 2)) 7 = false ∧
    ringPoisoned.mem.written false (sramKey (ringPoisoned.physOf 3) 0x4000 / 64) = true ∧
    ringPoisoned.mem.poison false (sramKey (ringPoisoned.physOf 3) 0x4000 / 64) = true ∧ wbit 0x322 7 = false ∧
    (∀ s ∈ [ring 9 8 5, ring 9 5 5], wbit ((s.ltile 3).rd (Reg.RING_CFG 2)) 7 = true ∧ (s.ltile 3).heldFor 2 = []) ∧
    (ring 9 8 5).sramWord 3 0x4004 ≠ (ring 9 8 5).sramWord 3 0x4008 ∧ (ring 9 5 5).sramWord 3 0x4004 = (ring 9 5 5).sramWord 3 0x4008 ∧
    wfld (((ring 9 8 5).ltile 3).rd (Reg.RING_CFG 2)) 15 0 = wfld 0x103A2 15 0 ∧
    wbit (((ringOff 9 9 5).ltile 3).rd (Reg.RING_CFG 2)) 7 = false ∧ wbit 0x3A2 7 = true ∧ wfld 0x3A2 2 0 ≤ 4 ∧ 4 ≤ wfld 0x3A2 6 3 ∧ wfld 0x3A2 6 3 ≤ 10 ∧
    wfld 0x3A2 15 8 < 2 ^ wfld 0x3A2 6 3 ∧ (ringOff 9 9 5).sramWord 3 0x4000 = (ringOff 9 9 5).sramWord 3 0x4004 ∧
    0x4000 + 64 + 2 ^ wfld 0x3A2 6 3 * 2 ^ (wfld 0x3A2 2 0 + 4) ≤ 0x40000 ∧
    ((ringOff 9 9 5).sramWord 3 0x4004 - (ringOff 9 9 5).sramWord 3 0x4008).toNat ≤ 2 ^ wfld 0x3A2 6 3 ∧ ¬4 ≤ wfld 0x382 6 3 ∧
    wbit 3 0 = true ∧ wbit 3 1 = true ∧ ((tw dev 3 (Reg.SYNC_THRESHOLD 31) 0xFFFFFFFF).ltile 3).rd (Reg.SYNC_THRESHOLD 31) = 0xFFFFFFFF#32 ∧
    (0xFFFFFFFF#32).msb = true ∧ wbit (((tw dev 3 (Reg.SYNC_CFG 31) 3).ltile 3).rd (Reg.SYNC_CFG 31)) 1 = true := by
  unfold State.cleanLine; decide +kernel

/-- A run of lines that are written. -/
theorem writtenRun (n b i : Nat) (h : i < n) : spGet (fun _ => false) ((List.range' b n).map (fun j => (j, true))) (b + i) = true := by
  induction n generalizing b i with
  | zero => omega
  | succ n ih =>
    rw [List.range'_succ, List.map_cons]
    cases i with
    | zero => simp [spGet]
    | succ i =>
      rw [spGet, if_neg (by omega), if_neg (by omega), show b + (i + 1) = (b + 1) + i by omega]
      exact ih _ _ (by omega)

/-- Written lines without poison or errors can be read. -/
theorem readableRun (s : State) (l o n b m : Nat) (hw : s.mem.sramWr = (List.range' b m).map (fun j => (j, true))) (hp : s.mem.sramPo = [])
    (he : s.mem.sramErr = []) (hd : s.integ.odd = []) (ho : o + n ≤ 0x40000) (hb : b ≤ sramKey (s.physOf l) 0 / 64 + o / 64)
    (hm : sramKey (s.physOf l) 0 / 64 + o / 64 + ((o + n - 1) / 64 - o / 64) < b + m) : s.readable l o n := by
  refine ⟨ho, fun ln h => ⟨?_, ?_, fun k _ => ?_, ?_⟩⟩
  · unfold linesOf at h
    split at h
    · simp at h
    · obtain ⟨i, hi, rfl⟩ := List.mem_map.1 h
      rw [List.mem_range] at hi
      unfold Memory.written
      rw [if_neg (by simp), hw]
      have := writtenRun m b (sramKey (s.physOf l) 0 / 64 + (o / 64 + i) - b) (by omega)
      rwa [show b + (sramKey (s.physOf l) 0 / 64 + (o / 64 + i) - b) = sramKey (s.physOf l) 0 / 64 + (o / 64 + i) by omega] at this
  · simp [Memory.poison, hp]
  · simp [Memory.err, he]
  · simp [hd]

/-- One job of thread 1 in tile 3, whose SRAM is all written. -/
def solo (j : Job) : State :=
  let s := (tw dev 3 (Reg.GATE_PROG 0 0) 0x81).onL 3 (fun t => { t with jobs := [j] })
  { s with mem := { s.mem with sramWr := (List.range' (sramKey 3 0 / 64) 4096).map (fun i => (i, true)) } }

/-- Jobs of the three engines, queued or running. -/
def jobs (running : Bool) : State := engines [job .matrix running [], job .gate running gateDesc, job .scan running scanDesc]

theorem test_EngineJobs_alone :
    ∀ p ∈ [(Engine.matrix, List.replicate 16 0), (.gate, gateDesc), (.scan, scanDesc ++ List.replicate 8 0)],
      ((solo (job p.1 false p.2)).ltile 3).jobs = [job p.1 false p.2] ∧ ((solo (job p.1 true p.2)).ltile 3).jobs = [job p.1 true p.2] ∧
      (∀ ln < 4096, (solo (job p.1 true p.2)).readable 3 (64 * ln) 64) ∧ (∀ n : Fin 8, ((solo (job p.1 true p.2)).ltile 3).ringOn n = false) ∧
      (∀ e, spGet (fun _ => 0) ((solo (job p.1 true p.2)).ltile 3).accErr e = 0) := by
  intro p hp
  have h : sramKey ((solo (job p.1 true p.2)).physOf 3) 0 / 64 = sramKey 3 0 / 64 := by
    simp only [List.mem_cons, List.not_mem_nil, or_false] at hp
    rcases hp with rfl | rfl | rfl <;> decide +kernel
  refine ⟨?_, ?_, fun ln hl => readableRun _ _ _ _ (sramKey 3 0 / 64) 4096 rfl rfl rfl rfl (by omega) (by omega) (by omega), ?_, ?_⟩ <;>
    simp only [List.mem_cons, List.not_mem_nil, or_false] at hp <;> rcases hp with rfl | rfl | rfl <;> first | (intro _; rfl) | decide +kernel

theorem test_EngineJobs_checks :
    let t := (solo (job .gate true gateDesc)).ltile 3
    mmFault t 3 (job .matrix true (List.replicate 16 0)).desc [] = none ∧ gateFault t 3 (job .gate true gateDesc).desc = none ∧
      scFault (job .scan true (scanDesc ++ List.replicate 8 0)).desc = none := by decide +kernel

theorem test_EngineJobs_met :
    (∀ e ∈ [Engine.matrix, .gate, .scan], (∃ j, ((jobs false).ltile 3).nextJob e 1 = some j ∧ ((jobs false).ltile 3).mayBegin j = true) ∧
      ((jobs false).ltile 3).nextJob e 0 = none ∧ ((jobs false).ltile 3).runningJob e 1 = none) ∧
    (∀ p ∈ [(Engine.matrix, []), (.gate, gateDesc), (.scan, scanDesc)], ((jobs true).ltile 3).runningJob p.1 1 = some (job p.1 true p.2)) ∧
    ((jobs true).runJob 3 (job .matrix true [])).fault = none ∧
    (∃ c < 64, ((engines [job .scan true (0x3FFFF :: scanDesc)]).runJob 3 (job .scan true (0x3FFFF :: scanDesc))).fault = some c) ∧
    ((engines [job .matrix true [], job .matrix false []]).ltile 3).mayBegin (job .matrix false []) = false := by
  refine ⟨?_, by decide +kernel, by decide +kernel, ⟨4, by decide +kernel, by decide +kernel⟩, by decide +kernel⟩
  intro e he
  simp only [List.mem_cons, List.not_mem_nil, or_false] at he
  rcases he with rfl | rfl | rfl
  · exact ⟨⟨job .matrix false [], by decide +kernel⟩, by decide +kernel⟩
  · exact ⟨⟨job .gate false gateDesc, by decide +kernel⟩, by decide +kernel⟩
  · exact ⟨⟨job .scan false scanDesc, by decide +kernel⟩, by decide +kernel⟩

/-- A spike in the queue of tile 3's event engine: neuron 0 has no row, neuron 1 has a row of one LOCAL entry at 0x700 × 16, for neuron 5. -/
def queued (n : Nat) (neg : Bool) : State :=
  (poke (poke spiking 3 0x6000 [0, 0x4700, 0]) 3 0x7000 [0, 2 + 16 + 2 ^ 20, 0x00F30005]).onL 3
    (fun t => { t with spikes := [{ neuron := n, neg := neg, stamp := 1030, thread := 1, class0 := false, prio := 1, seq := 2, locals := true }] })

/-- The segment of that row. -/
def oneEntry : Segment := { delay := 2, loc := true, chip := 0, tile := 0, count := 1, first := 0x7008 }

theorem test_EventEngine_met :
    ((spiking.ltile 3).spikes = [] ∧ (spiking.ltile 3).cursors = [] ∧
      (∀ n < 2, ((queued n true).ltile 3).spikes.length = 1 ∧ ((queued n true).ltile 3).cursors = [] ∧
        ∀ h ∈ (queued n true).rowHead 3 n, (queued n true).readable 3 h.1 h.2) ∧
      wbit ((queued 0 true).sramWord 3 0x6000) 14 = false ∧ (queued 1 true).rowOf 3 1 = .segs [oneEntry] ∧ (queued 1 true).readable 3 0x7008 3 ∧
      (wd (ofBytes ((queued 1 true).sram 3 0x7008 2))).toNat = 5 ∧ (queued 1 true).readable 3 (0x8000 + 4 * (32 * ((1030 + 2) % 4) + 5)) 4) ∧
    ∀ n < 2, ∀ j, (((queued n true).ltile 3).thread j).fences = [] := by
  refine ⟨?_, ?_⟩
  · unfold State.readable State.cleanLine; decide +kernel
  · intro n hn
    have : n = 0 ∨ n = 1 := by omega
    rcases this with rfl | rfl <;> exact noFences _ _ (by decide +kernel)

/-- Tile 3's SRAM written from 0x100 on, and its events enabled. -/
def target : State := poke spiking 3 0x100 ((List.range 64).map (· * 0x1234567))

/-- A GATHER_SUM of three int8 rows, and a POST of weight 3 to neuron 19. -/
def gather : ReqFlit :=
  { req 7 0x100 2 with payload := toBytes 8 (5 + 2 * 16 + 3 * 2 ^ 16 + 6 * 2 ^ 26) ++ List.replicate 8 0 ++ toBytes 2 1 ++ toBytes 2 2 ++ List.replicate 28 0 }
def post : ReqFlit := { req 8 19 2 with arg0 := 0x00030000, tag := 6, ack := false }

theorem test_FabricOperations_met :
    Addr.space (mkAddr 0 0 3 0x100) = 0 ∧ (∀ r ∈ (List.range 9).flatMap (fun n => [req 1 0x100 n, req 2 0x100 n]), target.arrives r 3) ∧
    target.readable 3 0x100 256 ∧ target.writable 3 0x100 256 ∧ (target.ltile 3).touchesRing 0x100 8 = false ∧
    (∀ p ∈ wordAtomics, target.arrives { req p.2.1.toNat 0x100 2 with type := p.2.2.1 } 3) ∧
    (∀ p ∈ doubleAtomics, target.arrives { req p.2.1.toNat 0x100 3 with type := p.2.2.1 } 3) ∧
    target.arrives gather 3 ∧ gather.type = 0 ∧ (gatherOf gather.payload).wtd = false ∧
    (∀ i < (gatherOf gather.payload).count, target.readable 3 (gatherRow gather.payload (gatherOf gather.payload) 0x100 i) (2 ^ (gatherOf gather.payload).shift)) ∧
    target.arrives post 3 ∧ (target.ltile 3).bit Reg.EV_CFG 0 = true ∧ (target.ltile 3).evClear = false ∧
    post.tag.toNat = ((target.ltile 3).rd Reg.EV_BEAT).toNat % 1024 ∧ Addr.off post.addr < (target.ltile 3).fld Reg.EV_NEURON_COUNT 16 0 ∧
    target.readable 3 (0x8000 + 4 * (32 * (1030 % 4) + 19)) 4 ∧ (target.ltile 3).touchesRing (0x8000 + 4 * (32 * (1030 % 4) + 19)) 4 = false ∧ (target.ltile 3).posts = [] ∧
    (∀ r ∈ [req 0 0x100 2, req 9 0x100 2, req 31 0x100 2], target.meets r 3) ∧ (req 0 0x100 2).op = 0 ∧ 8 < (req 9 0x100 2).op.toNat ∧ 8 < (req 31 0x100 2).op.toNat := by
  unfold State.arrives State.meets State.readable State.writable State.cleanLine; and_intros <;> decide +kernel

/-- ring with a push held, a claim and a compare-and-claim, a publish of a claimed slot and a move of TAIL. -/
def holding (s : State) : State := s.onL 3 (fun t => { t with held := [req 2 0x4000 6] })
def claim (op k payload : Nat) : ReqFlit := { req op 0x4000 2 with arg0 := BitVec.ofNat 32 k, payload := toBytes 4 payload }
def publish (k : Nat) : ReqFlit := { req 2 0x400C 2 with arg0 := BitVec.ofNat 32 k }
def rings : List State := [ring 9 9 5, ring 17 17 5, ring 18 18 5, ring 10 8 5]
def move (k : Nat) : ReqFlit := { req 2 0x4008 2 with arg0 := BitVec.ofNat 32 k }

theorem test_RingOperations_met :
    (∀ o ∈ [0x4000, 0x4008, 0x400C], ((ring 9 9 5).ltile 3).ringHolds 2 o ∧ ((ring 18 17 5).ltile 3).ringHolds 2 o) ∧
    (∀ r ∈ [req 2 0x4000 6, claim 3 2 0, claim 6 9 11, publish 8, move 8], ∀ s ∈ rings, s.arrives r 3) ∧ (∀ s ∈ rings, (s.ltile 3).ready = []) ∧
    ((ring 9 9 5).ltile 3).ringBase 2 = 0x4000 ∧ ringSlotSize (((ring 9 9 5).ltile 3).rd (Reg.RING_CFG 2)) = 64 ∧
    (∀ ln ∈ linesOf (((ring 9 9 5).ltile 3).ringSlot 2 9) 64, (ring 9 9 5).cleanLine 3 ln) ∧
    ((ring 9 9 5).ltile 3).touchesRing (((ring 9 9 5).ltile 3).ringSlot 2 9) 64 = false ∧
    ((ring 9 9 5).ltile 3).fld (Reg.RING_CFG 2) 15 8 = 3 ∧ ringSlots (((ring 9 9 5).ltile 3).rd (Reg.RING_CFG 2)) = 16 ∧
    3 + 1 ≤ 16 - ((ring 17 17 5).ringWord 3 2 0 - (ring 17 17 5).ringWord 3 2 2).toNat ∧
    ¬3 + 1 ≤ 16 - ((ring 18 18 5).ringWord 3 2 0 - (ring 18 18 5).ringWord 3 2 2).toNat ∧
    (∀ s ∈ [holding (ring 17 17 5), holding (ring 18 18 5)], (s.ltile 3).held.find? (fun h => effPrio h.prio == 1) = some (req 2 0x4000 6) ∧ s.mapState 3 ≠ 3) ∧
    outOfRange (req 2 0x4000 6) = false ∧ misaligned (req 2 0x4000 6) = false ∧ notAllowed (req 2 0x4000 6) = false ∧
    (8#32 - (ring 10 8 5).ringWord 3 2 1).toNat < ((ring 10 8 5).ringWord 3 2 0 - (ring 10 8 5).ringWord 3 2 1).toNat ∧
    ¬(10#32 - (ring 10 8 5).ringWord 3 2 1).toNat < ((ring 10 8 5).ringWord 3 2 0 - (ring 10 8 5).ringWord 3 2 1).toNat ∧
    (8#32 - (ring 10 8 5).ringWord 3 2 2).toNat ≤ ((ring 10 8 5).ringWord 3 2 1 - (ring 10 8 5).ringWord 3 2 2).toNat ∧
    ¬(9#32 - (ring 10 8 5).ringWord 3 2 2).toNat ≤ ((ring 10 8 5).ringWord 3 2 1 - (ring 10 8 5).ringWord 3 2 2).toNat := by
  unfold State.arrives State.meets Tile.ringHolds State.cleanLine; and_intros <;> decide +kernel

/-- A response and a CREDIT for thread 1 of tile 3, whose operations out are under way, and what a target owes the thread. -/
def resp : RespFlit :=
  { prio := 1, epoch := 3, status := 0, flags := 0, tag := 4, dstChip := 0, dstTile := 3, dstUnit := 1, data0 := 0x55AA, aux := 0, payload := [] }
def issuer1 : IssuerId := { chip := 0, tile := 3, unit := 1, owner := 1, prio := 1 }
def credit : CreditFlit := { issuer := issuer1, target := 5, applied := 1, failed := 2 }
def note (time : Nat) : Notice := { dstChip := 2, dstTile := 4, addr := 5, op := 2, status := 7, epoch := 1, count := 3, time := time }
def returns (out : List Outst) (late : List (Nat × Nat)) : State :=
  { dev.onL 3 (fun t => { t with out := out, late := late, router := [req 1 0x100 2] }) with
    fab := { dev.fab with resps := [resp], credits := [credit], owed := [{ issuer := issuer1, target := 9, applied := 3, failed := 1, since := 4 }],
                          notices := [note 499991, note 499990] } }

/-- Tile 3 takes notices in ring 2, of slots of 16 bytes, with HEAD and COMMIT at h. -/
def noticeRing (h : Nat) : State := tw (tw (ring h h 5) 3 (Reg.RING_CFG 2) (0x80 + 4 * 8 + 3 * 256)) 3 Reg.TILE_CONFIG 10

theorem test_FabricReturns_met :
    (resp.dstChip = (returns [] []).chipId ∧ resp.dstUnit.toNat < 8 ∧ resp.dstTile.toNat = 3 ∧
      ((returns [op 3 4 true (.reg 15)] []).ltile 3).out.find? (fun o => o.acked && o.tag == resp.tag && o.unit == resp.dstUnit.toNat) = some (op 3 4 true (.reg 15)) ∧
      ((returns [op 3 4 true .nowhere] []).ltile 3).out.find? (fun o => o.acked && o.tag == resp.tag && o.unit == resp.dstUnit.toNat) = some (op 3 4 true .nowhere) ∧
      ((returns [] [(4, 600000)]).ltile 3).out = [] ∧ lateTag ((returns [] [(4, 600000)]).ltile 3).late resp.tag = true ∧
      lateTag ((returns [] [(7, 600000)]).ltile 3).late resp.tag = false ∧
      ((returns [] []).fab.owed.find? (fun o => o.issuer == issuer1 && o.target == 9)).isSome = true ∧
      (returns [] []).fab.owed.find? (fun o => o.issuer == issuer1 && o.target == 8) = none ∧
      credit.issuer.chip = (returns [] []).chipId ∧ credit.issuer.unit.toNat < 8 ∧ credit.issuer.tile.toNat = 3 ∧
      (returns [] []).fab.notices.find? (fun n => decide (n.time + 10 ≤ (returns [] []).now)) = some (note 499990) ∧ (note 499990).dstChip ≠ dev.chipId ∧
      ((returns [] []).ltile 3).router.find? (fun r => prioVc r.prio == 2) = some (req 1 0x100 2) ∧ Addr.chip (req 1 0x100 2).addr = dev.chipId.toNat ∧
      (returns [] []).fab.waiting = [] ∧ (req 1 0x100 2).srcUnit.toNat < 8 ∧ (∀ r ∈ ((returns [] []).ltile 3).router, prioVc r.prio ≠ 0) ∧
        ((returns [] []).ltile 3).chainWait = [] ∧ (returns [] []).meshFull (req 1 0x100 2) = false ∧
      ({ dev with fab := { dev.fab with inflight := List.replicate 3 (req 1 0x100 2) } }).meshFull (req 1 0x100 2) = true ∧
      1 + ((req 1 0x100 2).payload.length + 15) / 16 = 5 ∧ spGet (fun _ => 0) ((returns [] []).ltile 3).moved 2 + 1 < 5 ∧
      5 ≤ spGet (fun _ => 0) (((returns [] []).onL 3 (fun t => { t with moved := [(2, 4)] })).ltile 3).moved 2 + 1) ∧
    ((returns [op 3 4 true (.sram 0x100)] []).ltile 3).out.find? (fun o => o.acked && o.tag == resp.tag && o.unit == resp.dstUnit.toNat) =
      some (op 3 4 true (.sram 0x100)) ∧ (poke (returns [op 3 4 true (.sram 0x100)] []) 3 0x100 [1]).writable 3 0x100 4 ∧
    (dev.setFld (Reg.TILE_MAP 3) 26 24 3).mapState 3 = 3 ∧ ({ dev with pwr := { dev.pwr with gated := true } }).tileShut 3 = true ∧
    (dev.ltile 3).bit Reg.TILE_CONFIG 3 = false ∧ (noticeRing 17).cleanLine 3 (((noticeRing 17).ltile 3).ringBase 2 / 64) ∧
    (noticeRing 18).cleanLine 3 (((noticeRing 18).ltile 3).ringBase 2 / 64) ∧
    (∀ s ∈ [noticeRing 17, noticeRing 18], s.mapState 3 ≠ 3 ∧ s.tileShut 3 = false ∧ (s.ltile 3).bit Reg.TILE_CONFIG 3 = true ∧ (s.ltile 3).ringOn 2 = true ∧
      (s.ltile 3).fld Reg.TILE_CONFIG 2 0 = 2 ∧ (s.ltile 3).fld (Reg.RING_CFG 2) 2 0 = 0) ∧
    3 + 1 ≤ (noticeRing 17).ringFree 3 2 ∧ ¬3 + 1 ≤ (noticeRing 18).ringFree 3 2 ∧
    (∀ ln ∈ linesOf (((noticeRing 17).ltile 3).ringSlot 2 17) 16, (noticeRing 17).cleanLine 3 ln) ∧
    ((noticeRing 17).ltile 3).touchesRing (((noticeRing 17).ltile 3).ringSlot 2 17) 16 = false ∧ (returns [] []).routed issuer1.chip = true ∧
    ∀ j, (((returns [op 3 4 true (.reg 15)] []).ltile 3).thread j).fences = [] := by
  unfold State.writable State.cleanLine
  and_intros <;> first | decide +kernel | exact noFences _ _ (by decide +kernel)

/-- MAP_ARG names logical tile l and physical tile q. -/
def mapArg (l q : Nat) : State := cw dev Reg.MAP_ARG (l + q * 2 ^ 16)

/-- mapArg with the last bump of tile 3 at a time, and one under way. -/
def bumped (at_ : Nat) : State := { mapArg 3 16 with fab := { dev.fab with lastBump := [(3, some at_)], bump := some 3 } }

theorem test_MapCommands_met :
    (∀ s ∈ [mapArg 3 16, mapArg 255 271, bumped 499000, bumped 499001], s.ready = true ∧ s.bit Reg.BIST_BLOCKS 7 = false ∧ wbit (s.rd Reg.MAP_STATUS) 0 = false) ∧
    wbit ((cw (mapArg 3 16) Reg.MAP_STATUS 1).rd Reg.MAP_STATUS) 0 = true ∧ (mapArg 3 16).mapState 3 = 0 ∧
    ((mapArg 3 16).setFld (Reg.TILE_MAP 3) 26 24 1).mapState 3 ≠ 0 ∧ spGet (fun _ => none) (bumped 499000).fab.lastBump 3 = some 499000 ∧
    ¬(bumped 499000).now < 499000 + 1000 ∧ (bumped 499001).now < 499001 + 1000 ∧ (mapArg 3 16).phys 16 = phFree ∧ (mapArg 3 16).chosen 16 = false ∧
    (mapArg 255 271).mapState 255 = 0 ∧ 271 / 17 = 255 / 16 ∧ (mapArg 255 271).phys 271 = phFree ∧ ((mapArg 3 16).setPhys 16 2).phys 16 = phTesting ∧
    ((mapArg 3 16).setPhys 16 3).phys 16 ≠ phFree ∧ ((mapArg 3 16).setPhys 16 3).phys 16 ≠ phTesting ∧ ¬33 / 17 = 3 / 16 ∧ (mapArg 3 16).fab.bump = none ∧
    (bumped 499000).fab.bump = some 3 := by decide +kernel

/-- A relocation of logical tile 3 from physical tile 3 to 16, in a state of TILE_MAP. -/
def moving (takeover holding : Bool) (pass ms : Nat) : State :=
  { poke dev 3 0x100 [1, 2, 3] with
    fab := { dev.fab with relocs := [{ logical := 3, src := 3, dst := 16, pass := pass, paused := false, takeover := takeover, holding := holding, peal := false,
                                       host := true, fwd := [] }] } }.setFld (Reg.TILE_MAP 3) 26 24 ms

/-- A column that is not FAULTED refuses nothing. -/
theorem colWorks (s : State) (p : Nat) (h : wbit (s.col p).status 0 = false) : ∀ ln, s.colRefuses p ln = false := by
  intro ln; unfold State.colRefuses; simp [h]

/-- Physical tile 3 has failed: its spare oscillator too. -/
def failed : State := dev.onL 3 (fun t => { t with spareBad := true, router := [req 1 0x100 2] })

theorem test_Relocations_met :
    ((∀ s ∈ [dev, moving false false 2 1, moving false false 7 1, moving false true 3 1, moving true false 0 3, (moving false false 2 2).setFld (Reg.TILE_MAP 3) 8 0 16,
        failed], s.sound) ∧
      dev.relocOf 3 = none ∧ ((moving false false 2 1).relocOf 3).isSome = true ∧ (moving false false 2 1).mapState 3 = 1 ∧
      ((moving false false 2 1).tile 16).spareBad = false ∧ (moving false false 2 1).limiting = false ∧ 2 + 1 < 8 ∧ 8 ≤ 7 + 1 ∧
      (moving false true 3 1).mapState 3 = 1 ∧ (∀ s ∈ [moving false true 3 1, moving true false 0 3], s.physOf 3 = 3 ∧ s.mem.badLines false 3 = [] ∧
        s.mem.badLines true 3 = []) ∧
      (∀ s ∈ [dev, moving false false 2 1, moving false true 3 1, moving true false 0 3], ∀ x ∈ s.fab.relocs, x.logical ≠ 3 → x.takeover = false) ∧
      (∀ s ∈ [moving false true 3 1, moving true false 0 3], (s.tile 3).spareBad = false ∧ (s.tile 16).spareBad = false ∧ s.phys 16 = phFree) ∧
      (∀ x ∈ (moving true false 0 3).fab.relocs, x.logical = 3) ∧ (moving true false 0 3).peal.cols = [] ∧
      (moving false false 2 2).mapState 3 = 2 ∧ (moving false false 2 2).peal.cols = [] ∧ wbit ((moving false false 2 2).col 3).status 0 = false ∧
      (dev.tile (dev.physOf 3)).spareBad = false ∧ (failed.tile (failed.physOf 3)).spareBad = true ∧ failed.mapState 3 = 0 ∧ failed.relocOf 3 = none ∧
      failed.freeTile 0 = some 16) ∧
    (∀ ln, (moving false true 3 1).colRefuses 3 ln = false) ∧ ∀ ln, (moving true false 0 3).colRefuses 3 ln = false := by
  refine ⟨?_, colWorks _ _ (by decide +kernel), colWorks _ _ (by decide +kernel)⟩
  unfold State.sound; and_intros <;> decide +kernel

/-- Registers with something in them: CAPACITY and XCP_DOORS of tile 3's first counters, CONTRACT_ARG, and WAKE_CTRL with pins 0 and 1 asserted. -/
def registers : State := cw (cw (tw (tw dev 3 0x1004 0x55) 3 0x1000 7) Reg.CONTRACT_ARG 0x11223344) Reg.WAKE_CTRL 0x100303

theorem test_RegisterAccess_met :
    registers.tileUp 3 = true ∧ early.tileUp 3 = false ∧ registers.keys.halted = false ∧ registers.ready = true ∧ early.ready = false ∧
    (∃ row, tileRow 0x1004 = some row ∧ row.rc ≠ 0) ∧ (registers.ltile 3).rd 0x1004 ≠ 0 ∧ registers.ctlView 3 0x1004 = none ∧ (∀ n : Fin 16, 0x1004 ≠ Reg.MA_MAX n) ∧
    (∃ row, tileRow Reg.CLK_STATUS = some row ∧ row.ro = true) ∧ (∀ off ∈ [Reg.TIMER_CTRL, Reg.TIMER_CMP, Reg.TIMER_PERIOD], (tileRow off).isSome = true) ∧
    registers.unitUp 7 ∧ (∃ row, chipRow Reg.MAP_ARG = some row ∧ row.ro = false) ∧
    registers.boot.low = false ∧ registers.boot.safe = false ∧ registers.bit Reg.BIST_BLOCKS 4 = false ∧ (5#4 ≠ 0 ∧ 5#4 ≠ 15) ∧
    (∃ row, chipRow Reg.INT_CLEAR = some row ∧ row.ro = false ∧ Reg.INT_CLEAR < 0x100 ∧ wholeSlot Reg.INT_CLEAR = true) ∧
    registers.slotDead Reg.INT_CLEAR = false ∧ (registers.rd Reg.WAKE_CTRL ^^^ 0x100100#32) &&& 0x1FF00FF#32 ≠ 0 ∧
    (registers.rd Reg.WAKE_CTRL ^^^ 0x100103#32) &&& 0x1FF00FF#32 = 0 ∧ registers.bit Reg.WAKE_CTRL 8 = true ∧ registers.bit Reg.WAKE_CTRL 9 = true := by
  unfold State.unitUp; and_intros <;> decide +kernel

/-- Causes noted, a clap held or none, at a time within the tick of 4 µs. -/
def noted (held : Bool) (l : List (Nat × Nat)) : State :=
  { ((dev.setBit Reg.CLAP_CTRL 2 true).setBit Reg.CLAP_CTRL 4 false).setBit Reg.CLAP_CTRL 3 held with clap := { dev.clap with noted := l, armed := true } }

/-- The net pulled low by the device 2 µs ago, or low from outside for some time. -/
def net (pulled lowAt : Option Nat) : State :=
  { dev.setBit Reg.NET_STATUS 1 pulled.isSome with clap := { dev.clap with pulled := pulled, lowAt := lowAt, armed := true } }

/-- A cause of the slot in which a clap was taken. -/
def joined : State := { noted false [(1, 499993)] with clap := { (noted false [(1, 499993)]).clap with slot := some 499996, latched := true } }

theorem test_Claps_met :
    (∀ s ∈ [noted false [(1, 499996)], noted true [(6, 499999)], net (some 499998) (some 499998), net none (some 499996)], s.sound) ∧ dev.bit Reg.CLAP_CTRL 25 = true ∧
    (dev.setBit Reg.CLAP_CTRL 25 false).bit Reg.CLAP_CTRL 25 = false ∧ dev.clap.noted = [] ∧ early.ready = false ∧
    (noted false [(1, 499996)]).bit Reg.CLAP_CTRL 3 = false ∧ (noted true [(6, 499999)]).bit Reg.CLAP_CTRL 3 = true ∧
    (499999 + 1 + (4 - 499999 % 4) % 4 = 500001 ∧ 500001 > dev.now) ∧ (499996 + 1 + (4 - 499996 % 4) % 4 ≤ dev.now) ∧
    (499993 + 1 + (4 - 499993 % 4) % 4 ≤ dev.now) ∧ (noted true []).bit Reg.CLAP_CTRL 4 = false ∧ dev.clap.slot ≠ some 499996 ∧
    ((dev.setBit Reg.NET_STATUS 2 true).bit Reg.NET_STATUS 2 = true ∧ (noted false []).clap.armed = true ∧ dev.bit Reg.NET_STATUS 2 = false) ∧
    (499993 + 1 + (4 - 499993 % 4) % 4 - 1 = 499996 ∧ joined.clap.slot = some 499996 ∧ joined.clap.latched = true ∧ joined.clap.noted = [(1, 499993)] ∧ joined.sound) ∧
    (noted true []).clap.pulled ≠ some (dev.now - dev.now % 4) ∧ (noted true []).bit Reg.CLAP_CTRL 24 = true ∧ (noted true []).clap.slot ≠ some (dev.now - dev.now % 4) ∧
    (net (some 499998) (some 499998)).bit Reg.NET_STATUS 1 = true ∧ 499998 + 2 ≤ dev.now ∧ dev.clap.pulled = none ∧ (net none none).bit Reg.NET_STATUS 1 = false ∧
    (net none (some 499996)).clap.lowAt = some 499996 ∧ 499996 + 3 < dev.now ∧ dev.clap.lowAt = none ∧ dev.clap.missed = none := by
  unfold State.sound; and_intros <;> decide +kernel

/-- Word o/4 of a descriptor. -/
def desc (s : State) (e o v : Nat) : State := s.wr (Reg.DESC e (o / 4)) (BitVec.ofNat 32 v)

/-- Stream 5 in a state of Table 8.3: class 1 of generation 7 in slot 0, a source kind, its home tile 3 and thread 1, and its record and state area. -/
def stream (kind st : Nat) : State :=
  let s := desc (desc (desc (cw dev (Reg.GEN_SLOT 0) (7 + 3 * 2 ^ 24)) 5 0 (kind + 16 * 2)) 5 0x0C (7 + 2 ^ 24)) 5 0x18 0x100
  cw (desc (desc (desc (desc s 5 0x20 (3 + 256 + 2 ^ 12)) 5 0x24 (3 * 2 ^ 26 + 5 * 0x20000)) 5 0x28 4) 5 0x30 0x10000) (Reg.STAT 5 0) st

def alone : PeerView := { refuse := none, mhz := [], xcp := [], chips := 1 }

/-- What an ACTIVATE or a CHECK of stream 5 leaves before it is refused or not. -/
def asked (s : State) : State := State.lookHeader { s with cu := { s.cu with view := alone } } 5

/-- Stream 5 whose generation no slot holds. -/
def strict (st : Nat) : State := cw (stream 5 st) (Reg.GEN_SLOT 0) 0

theorem test_ContractCommands_met :
    ((∀ k ∈ [stFree, stRegistered, stActivating, stActive, stDraining, stSuspended], (stream 5 k).unitUp 4 ∧ (stream 5 k).strState 5 = k ∧
      (stream 5 k).bit Reg.CONTRACT_STATUS 0 = false) ∧
    ((stream 5 3).setBit Reg.CONTRACT_STATUS 0 true).bit Reg.CONTRACT_STATUS 0 = true ∧
    2047 / 2048 = dev.chipId.toNat ∧ 2048 / 2048 ≠ dev.chipId.toNat ∧ (desc (stream 5 0) 5 0 9).badField 5 = some 0 ∧ (stream 5 0).badField 5 = none ∧
    ¬((stream 5 3).strState 5 = stActive ∧ (stream 5 3).broken 5 = true) ∧ (stream 5 1).cu.asleep = false ∧
    (cw (stream 5 3) Reg.CONTRACT_ARG 500001).argTime ≠ dev.now32 ∧ (cw (stream 5 3) Reg.CONTRACT_ARG 500000).argTime = dev.now32 ∧
    (cw (stream 5 5) Reg.CONTRACT_ARG 500000).argTime = dev.now32 ∧ (cw (stream 5 5) Reg.CONTRACT_ARG 500000).strState 5 = stSuspended ∧ (stream 5 5).integ.due = []) ∧
    lowestFail ((asked (strict 1)).admission alone 5).1 = some (3, 7) ∧
    ((asked (stream 5 1)).floorEst ((asked (stream 5 1)).chargesOf 5 1 ++ (asked (stream 5 1)).otherCharges 5) ≤ (asked (stream 5 1)).fld Reg.POWER_CAP 11 0 →
      lowestFail ((asked (stream 5 1)).admission alone 5).1 = none) := by
  refine ⟨by unfold State.unitUp; decide +kernel, ?_, fun h => ?_⟩ <;> unfold State.admission <;> dsimp only [alone]
  · by_cases h : (asked (strict 1)).fld Reg.POWER_CAP 11 0 < (asked (strict 1)).floorEst ((asked (strict 1)).chargesOf 5 1 ++ (asked (strict 1)).otherCharges 5)
    · rw [if_pos h]; decide +kernel
    · rw [if_neg h]; decide +kernel
  · rw [if_neg (Nat.not_lt.2 h)]; decide +kernel

/-- A frame of stream 5 that ended at a time, with number 8, and what thread 1 of its home tile has written of its record. -/
def frameAt (ends : Nat) : FrameIn := { seq := 8, ends := ends, gap := false, hint := 0, done := none }
def framed (kind : Nat) (ends : Nat) : State :=
  (cw (stream kind 3) (Reg.STAT 5 1) 9).onRun 5 fun r =>
    { r with frames := [frameAt ends], expect := some 499000,
             stages := [{ unit := 1, tile := 3, prio := 1, bytes := toBytes 4 0 ++ toBytes 4 8 ++ toBytes 4 77 ++ toBytes 8 5 ++ List.replicate 12 0, hint := 8 }] }

/-- A PUT of thread 1 of tile 3 to a register of a chip block. -/
def toBlock (b off a : Nat) : ReqFlit :=
  { req 2 0 2 with addr := mkAddr 0 3 b off, srcChip := 0, srcTile := 3, arg0 := BitVec.ofNat 32 a, payload := [] }

theorem test_FramesAndRecords_met :
    ((framed 5 499000).accepts 5 dev.now32 = true ∧ (stream 5 4).accepts 5 dev.now32 = false ∧ ((stream 5 3).run 5).expect = none ∧
      ((framed 5 499000).run 5).expect = some 499000 ∧ 499000 + 1000 ≤ dev.now ∧ dev.now < 499001 + 1000 ∧ (framed 5 499000).accepts 5 (wd 499000) = true) ∧
    (framed 5 499000).arrivesBlock (toBlock 4 (0x10000 + 32 * 5 + 28) 3) 4 (0x10000 + 32 * 5 + 28) ∧
    (framed 5 499000).fromHome 5 (toBlock 4 (0x10000 + 32 * 5 + 28) 3) = true ∧
    (let bs := (((framed 5 499000).run 5).stage (toBlock 4 (0x10000 + 32 * 5 + 28) 3)).bytes.take 28 ++ toBytes 4 3
     (natAt bs 18 2).testBit 6 = false ∧ (natAt bs 18 2).testBit 8 = false ∧ (frameAt 499000).seq = wordAt bs 4) ∧
    ((framed 5 499000).strState 5 = stActive ∧ (framed 5 499000).broken 5 = false ∧ (framed 5 499000).desc 5 0x18 8 1 = 1 ∧
      ((framed 5 499000).run 5).isReset = false ∧ ((framed 5 499000).run 5).isLost = false ∧ (framed 5 499000).strClass 5 ≠ 3) ∧
    ((framed 5 499000).rd Reg.RES_HEAD - (framed 5 499000).rd Reg.RES_TAIL).toNat < 1024 ∧
    (∃ c, (framed 5 499000).cutAt 5 (frameAt 499000) = some c ∧ dev.now < c) ∧ (∃ c, (framed 5 400000).cutAt 5 (frameAt 400000) = some c ∧ c ≤ dev.now) ∧
    (framed 5 400000).wakes 5 = false ∧ ((framed 5 400000).setFld Reg.CU_CONFIG 23 16 0).fld Reg.CU_CONFIG 23 16 = 0 ∧
    ((stream 5 3).run 5).frames ++ ((stream 5 3).run 5).preroll = [] ∧
    (framed 5 499000).arrivesBlock (toBlock 4 (0x20000 + 8 * 5 + 4) 0x44) 4 (0x20000 + 8 * 5 + 4) ∧ (framed 5 499000).unitUp 4 ∧
    (((cw dev Reg.RES_HEAD 1024).rd Reg.RES_HEAD) - 0).toNat ≤ 1024 ∧ 1024 < (((cw dev Reg.RES_HEAD 1025).rd Reg.RES_HEAD) - 0).toNat := by
  refine ⟨by and_intros <;> decide +kernel, ?_, by decide +kernel, by decide +kernel, by decide +kernel, by decide +kernel, ⟨_, rfl, by decide +kernel⟩,
    ⟨_, rfl, by decide +kernel⟩, by decide +kernel, by decide +kernel, by decide +kernel, ?_, ?_, by decide +kernel, by decide +kernel⟩ <;>
    (try unfold State.arrivesBlock) <;> (try unfold State.unitUp) <;> decide +kernel

/-- Stream 5 with a swap under way: its record in clay with header flags and generation, and its state area, each with a few bytes set. -/
def swapping (st flags : Nat) (w : Swap) : State :=
  let rk := clayKey 3 (5 * 0x20000)
  let ak := sramKey 3 0x10000
  let m : Memory := { dev.mem with
      clay := [(rk + 2, 7#8), (rk + 4, BitVec.ofNat 8 flags), (rk + 100, 9), (rk + 0x7FFF, 3)].filter (fun e => e.2 != 0),
      clayWr := (List.range' (rk / 64) 512).map (fun i => (i, true)),
      sram := [(ak + 3, 4#8), (ak + 64, 5), (ak + 0x7FFE, 6)], sramWr := (List.range' (ak / 64) 512).map (fun i => (i, true)) }
  ({ stream 5 st with mem := m, cu := { dev.cu with swapq := [5] } } : State).onRun 5 (fun r => { r with swap := w })

/-- Stream 5 waits behind 32 swaps. -/
def crowded : State := let s := swapping 2 1 .inWaiting; { s with cu := { s.cu with swapq := List.range' 100 32 ++ [5] } }

/-- A context reset that is due, and a fall-back to residency. -/
def resetDue : State := { swapping 3 1 .none with integ := { dev.integ with due := [{ entry := 5, line := none, ripe := true }] } }
def falling : State := (swapping 3 1 .none).onRun 5 (fun r => { r with fallDue := .ripe, pinBytes := 3000, pinOff := 0x40 })

theorem test_ContextSwaps_met :
    (∀ f < 4, ((swapping 2 f .inWaiting).run 5).swap = .inWaiting ∧ ((swapping 2 f .inWaiting).run 5).pinBanks = 0 ∧
      (swapping 2 f .inWaiting).swapTurn 5 = true ∧ ((swapping 2 f .inWaiting).run 5).stale = false ∧
      (swapping 2 f .inWaiting).mem.seen true ((swapping 2 f .inWaiting).recordKey 5 + 4) = BitVec.ofNat 8 f) ∧
    ofBytes ((swapping 2 1 .inWaiting).mem.bytes true ((swapping 2 1 .inWaiting).recordKey 5 + 2) 2) = (swapping 2 1 .inWaiting).desc 5 0x0C 0 16 ∧
    (swapping 2 1 .inWaiting).recordFaulted 5 = false ∧ (swapping 2 1 .inWaiting).recordOff 5 % 64 = 0 ∧ (swapping 2 1 .inWaiting).areaOff 5 % 64 = 0 ∧
    (∀ ln, (swapping 2 1 .inWaiting).colRefuses ((swapping 2 1 .inWaiting).recordPhys 5) ln = false) ∧
    (∀ s ∈ [swapping 2 1 .inWaiting, swapping 4 1 .outWaiting], (s.ltile (s.areaTile 5)).touchesRing (s.areaOff 5) 0x8000 = false) ∧
    (∀ l ∈ resetDue.homeTiles 5, (resetDue.ltile l).touchesRing (resetDue.areaOff 5) 0x8000 = false) ∧
    (∀ i < 512, (swapping 2 1 .inWaiting).mem.written true
      (clayKey ((swapping 2 1 .inWaiting).recordPhys 5) 0 / 64 + (swapping 2 1 .inWaiting).recordOff 5 / 64 + i) = true) ∧
    (swapping 2 1 .inWaiting).mem.clayErr = [] ∧ (swapping 2 1 .inWaiting).mem.clayPo = [] ∧
    ((swapping 2 1 .inCopied).run 5).swap = .inCopied ∧ (swapping 2 1 .inCopied).strState 5 = stActivating ∧ (swapping 3 1 .inCopied).strState 5 = stActive ∧
    (((swapping 4 1 .outWaiting).run 5).swap = .outWaiting ∧ ((swapping 4 1 .outWaiting).run 5).fallback = false ∧ (swapping 4 1 .outWaiting).swapTurn 5 = true ∧
      (swapping 2 1 .inWaiting).integ.odd = [] ∧ (swapping 4 1 .outDone).integ.due = [] ∧ (crowded.swapTurn 5 = false ∧ (crowded.run 5).swap = .inWaiting)) ∧
    (swapping 4 1 .outWaiting).readable ((swapping 4 1 .outWaiting).areaTile 5) ((swapping 4 1 .outWaiting).areaOff 5) 0x8000 ∧
    ((swapping 4 1 .outDone).strState 5 = stDraining ∧ ((swapping 4 1 .outDone).run 5).frames = [] ∧ (swapping 4 1 .outDone).strClass 5 ≠ 3) ∧
    (∃ d ∈ resetDue.integ.due, d.entry = 5 ∧ d.ripe = true) ∧ (resetDue.run 5).pinBanks = 0 ∧
    ((falling.run 5).fallDue = .ripe ∧ falling.strState 5 = stActive ∧ (falling.run 5).pinBanks = 0 ∧ coreBanks (falling.run 5).pinBytes ≠ 0 ∧
      (falling.homeTiles 5).find? (fun l => (falling.freeBanks l (coreBanks (falling.run 5).pinBytes)).isSome) = some 3 ∧
      (falling.freeBanks 3 (coreBanks (falling.run 5).pinBytes)).isSome = true) ∧
      falling.readable (falling.areaTile 5) (falling.areaOff 5 + (falling.run 5).pinOff) (falling.run 5).pinBytes := by
  have h : clayKey ((swapping 2 1 .inWaiting).recordPhys 5) 0 / 64 + (swapping 2 1 .inWaiting).recordOff 5 / 64 = clayKey 3 (5 * 0x20000) / 64 := by decide +kernel
  refine ⟨?_, ?_, ?_, ?_, ?_, colWorks _ _ ?_, ?_, ?_, fun i hi => ?_, ?_, ?_, ?_, ?_, ?_, ?_,
    readableRun _ _ _ _ (sramKey 3 0x10000 / 64) 512 rfl rfl rfl rfl ?_ ?_ ?_, ?_, ?_, ?_, ?_,
    readableRun _ _ _ _ (sramKey 3 0x10000 / 64) 512 rfl rfl rfl rfl ?_ ?_ ?_⟩ <;>
    first | decide +kernel | (rw [h]; exact writtenRun 512 _ i hi)

/-- WAKE 3 pulsed until a time. -/
def pulsed (until_ : Nat) : State := { dev.setBit Reg.WAKE_CTRL 11 true with pins := { dev.pins with wakeEnd := [(3, some until_)] } }
def uncovered (st : Nat) : State := (stream 5 st).onRun 5 (fun r => { r with cover := .ripe })

/-- Expert 0 with instances on chips 0 and 2, expert 1 with one on chip 3; chip 2 is one hop away, chip 3 three. -/
def directory : State := cw (cw (cw (cw (cw (stream 5 3) (Reg.INSTANCE_LO 0) (2 + 5 * 16 + 2 ^ 28)) (Reg.INSTANCE_LO 1) (7 * 16 + 2 ^ 28)) (Reg.INSTANCE_LO 6) (3 + 2 ^ 28))
  (Reg.ROUTE 2) (2 ^ 21 + 2 ^ 22)) (Reg.ROUTE 3) (2 ^ 21 + 3 * 2 ^ 22)

theorem test_WakeAndCoverage_met :
    spGet (fun _ => none) (pulsed 500000).pins.wakeEnd 3 = some 500000 ∧ dev.now = 500000 ∧ spGet (fun _ => none) (pulsed 500001).pins.wakeEnd 3 = some 500001 ∧
    spGet (fun _ => none) (pulsed 500000).pins.wakeEnd 2 = none ∧ ((uncovered 3).run 5).cover = .ripe ∧ (uncovered 3).strState 5 ≠ stFree ∧
    (uncovered 3).strState 5 ≠ stRegistered ∧ ((stream 5 3).run 5).cover ≠ .ripe ∧
    directory.instHops 0 0 1 = some 0 ∧ (directory.instHops 0 0 0).any (fun h => decide (0 < h)) = true ∧ (directory.instHops 0 1 2).isSome = true ∧
    (∀ k < 4, directory.instHops 1 63 k = none) := by
  and_intros <;> decide +kernel

/-- The scrubber at line 4 of tile 3, with errors in words of that line, and a bank of its column failing. -/
def scrubbing (errs : List (Nat × Nat)) : State :=
  errs.foldl (fun s e => s.onMem (fun m => m.setErr false (sramKey 3 0x100 / 8 + e.1) e.2)) (poke (cw (cw dev Reg.SCRUB_CFG 0x00080031) Reg.SCRUB_STATUS (3 + 4 * 2 ^ 9)) 3 0x100 [1, 2, 3])
def failing (status : Nat) : State :=
  ({ dev with integ := { dev.integ with bankPois := [(16 * 3 + 2, 100)], bankCorr := [(16 * 3 + 2, 100000)] } }).onCol 3 (fun c => { c with status := BitVec.ofNat 32 status })

theorem test_MemoryIntegrity_met :
    (∀ s ∈ [scrubbing [], scrubbing [(1, 1), (3, 1)], scrubbing [(2, 2), (5, 1)]], s.bit Reg.SCRUB_CFG 0 = true ∧ s.ready = true ∧
      s.mapState (s.fld Reg.SCRUB_STATUS 7 0) = 0 ∧
      s.listening = false ∧ s.bit Reg.SCRUB_STATUS 8 = false ∧ s.fld Reg.SCRUB_STATUS 23 9 = 4 ∧ s.mem.written false (sramKey 3 0 / 64 + 4) = true ∧
      s.mem.poison false (sramKey 3 0 / 64 + 4) = false) ∧
    (∀ k < 8, (scrubbing []).mem.err false (8 * (sramKey 3 0 / 64 + 4) + k) = 0) ∧
    (∀ k < 8, (scrubbing [(1, 1), (3, 1)]).mem.err false (8 * (sramKey 3 0 / 64 + 4) + k) ≠ 2) ∧ (scrubbing [(1, 1)]).mem.err false (8 * (sramKey 3 0 / 64 + 4) + 1) = 1 ∧
    (scrubbing [(2, 2), (5, 1)]).mem.err false (8 * (sramKey 3 0 / 64 + 4) + 2) = 2 ∧
    (cw dev Reg.RET_CFG 20).fld Reg.RET_CFG 15 0 = 20 ∧ (cw dev Reg.RET_CFG 20).bit Reg.RET_CFG 16 = false ∧
    (wbit ((failing 0).col 3).status 3 = false ∧ wbit ((failing 0).col 3).status 0 = false ∧ (failing 0).bankFailing (16 * 3 + 2) = true ∧ (failing 0).integ.sparing = []) ∧
    (let s := scrubbing []
     let g := sramKey (s.physOf 3) 0 / 64 + 4
     ({ s with integ := { s.integ with odd := [(2 * g, 3)] } } : State).integ.odd = [(2 * g, 3)] ∧ spGet (fun _ => 0) s.integ.odd (2 * g) = 0) ∧
    ((scrubbing [(2, 2)]).regionOf 3 false 4).1 ≠ 2 ∧
    ((failing 0).integ.sparing = [] ∧ ({ failing 0 with integ := { (failing 0).integ with sparing := [((failing 0).physOf 3, 2)] } } : State).integ.sparing = [(3, 2)]) ∧
    (∀ s ∈ [failing 0, failing 8], s.boot.low = false ∧ s.boot.safe = false) ∧ (wbit ((failing 8).col 3).status 3 = true ∧
      wbit ((failing 8).col 3).status 0 = false ∧ (failing 8).bankFailing (16 * 3 + 2) = true) ∧
    dev.mem.badLines true 3 = [] ∧ dev.unitUp 14 ∧ dev.liveStreams = [] ∧ wfld 0x321 5 0 = 33 ∧ wfld 0x11 5 0 ≠ dev.fld Reg.POOL_CFG 5 0 ∧
    ((cw dev Reg.STALE_HEAD 100).rd Reg.STALE_HEAD - 36).toNat ≤ 64 ∧ 64 < ((cw dev Reg.STALE_HEAD 100).rd Reg.STALE_HEAD - 35).toNat := by
  unfold State.unitUp; and_intros <;> decide +kernel

/-- Host records as they stand on the die, from the journal's first sector on. -/
def kept (rs : List (Nat × List Nat)) (s : State) : State :=
  let h := [0xA5#8, 3] ++ toBytes 2 16 ++ toBytes 4 1 ++ toBytes 4 0xFFFFFFFF
  let bs := h ++ toBytes 4 (crc32 h).toNat ++
    rs.zipIdx.flatMap (fun r => recBytes 1 (BitVec.ofNat 32 r.1.1) (BitVec.ofNat 32 (r.2 + 1)) 0 (r.1.2.map (BitVec.ofNat 8)))
  { s with nv := { s.nv with die := (bs.zipIdx (4096 * 2048)).filterMap (fun p => if p.1 = 0xFF then none else some (p.2, p.1)) } }

/-- A calibration set: its header, and a record for each of four groups; one without a header, and one of another version. -/
def calibrated : State := kept [(0x10000, [1, 0]), (0x10001, []), (0x10002, []), (0x10003, []), (0x10004, [])] dev
def halfSet : State := kept [(0x10003, [])] dev
def newSet : State := kept [(0x10000, [2, 0])] dev

/-- Group 1 has a pre-roll, in LISTEN or not. -/
def preroll (listen : Bool) : State :=
  { (dev.setBit (Reg.PREROLL_CFG 1) 0 true).setFld Reg.PWR_STATUS 1 0 (if listen then 0 else 2) with fe := { dev.fe with listen := listen } }
def capturing : State := ((cw dev (Reg.FE_CLK 0) (5 * 16)).setBit (Reg.FE_CLK 0) 3 true).setBit (Reg.FE_CLK 0) 7 true

theorem test_FrontEndCommands_met :
    (early.ready = false ∧ dev.unitUp 0 ∧ dev.unitUp 1 ∧ (∀ g < 5, dev.nv.value (wd (0x10000 + g)) = none)) ∧
    ((halfSet.nv.value 0x10000).isNone && (halfSet.nv.value (wd (0x10001 + 2))).isSome) = true ∧
    (newSet.nv.value 0x10000).any (fun h => natAt h 0 2 != 1) = true ∧
    ((List.range 4).all (fun g => (calibrated.nv.value (wd (0x10001 + g))).isSome) && (calibrated.nv.value 0x10000).any (fun h => natAt h 0 2 == 1)) = true ∧
    calibrated.unitUp 0 ∧ (∀ g < 4, calibrated.bit (Reg.FE_CLK g) 7 = false) ∧
    ((preroll true).pwr.target ≠ some 0 ∧ (preroll true).inListen = true ∧ (preroll false).inListen = false ∧ (preroll false).pwr.target ≠ some 0 ∧
      (preroll true).fe.wakeAt ≠ some dev.now ∧
      (List.range 4).filter (fun g => (15 : Nat).testBit g && (preroll true).bit (Reg.PREROLL_CFG g) 0) ≠ [] ∧
      (List.range 4).filter (fun g => (preroll true).prerollGroups.testBit g && (preroll true).bit (Reg.PREROLL_CFG g) 0) ≠ []) ∧
    dev.arrivesBlock (toBlock 0 0xC 15) 0 0xC ∧ capturing.captured 3 = true ∧ dev.captured 3 = false ∧
    ((dev.onGrp 1 (fun g => { g with settle := some 500000 })).grp 1).settle = some 500000 ∧
    ((dev.onGrp 1 (fun g => { g with settle := some 500001 })).grp 1).settle = some 500001 := by
  unfold State.unitUp State.arrivesBlock
  and_intros <;> decide +kernel

/-- Channel 3 set for 48 kHz of a clock of 3.072 MHz, and the fine chain 2 on it; a chain in a state. -/
def chained : State := cw (cw capturing (Reg.CH_CFG0 3) (7 + 4 * 8 + 4 * 256 + 32 * 4096)) (Reg.FINE_CFG0 2) (3 + 64 + 7 * 256 + 4 * 2048 + 7 * 2 ^ 16)
def chain (k : Nat) (f : DcPath → DcPath) : State := chained.onPath k f
def running (k : Nat) : State := chain k (fun p => { p with st := 2, src := 3, shifts := chained.rd (Reg.CH_CFG1 3), startAt := 499995, warm := 5 })

/-- Fine chain 2 runs on channel 9; a switch to channel 3 is due. -/
def switched : State := (running 66).onPath 66 (fun p => { p with src := 9 })

theorem test_DecimationChains_met :
    chained.unitUp 1 ∧ 3 ∈ dcChains 0 8 ∧ (chained.path 3).st = 0 ∧ chained.chainValid 3 = true ∧ dev.chainValid 3 = false ∧ ((running 3).path 3).st ≠ 0 ∧
    (wfld 7 2 0 = 7 ∧ wfld 3 2 0 = 3 ∧ wfld 6 2 0 = 6) ∧ (chained.path 66).st = 0 ∧ wfld 0x743 10 8 = 7 ∧
    (wbit 0x743 6 = true ∧ chained.bit (Reg.FINE_CFG0 2) 6 = true ∧ chained.fld (Reg.FINE_CFG0 2) 5 0 = wfld 0x743 5 0) ∧
    (((running 66).path 66).st = 2 ∧ wfld (chained.rd (Reg.FINE_CFG0 2)) 10 8 = 7 ∧ chained.rd (Reg.FINE_CFG0 2) &&& ~~~0x03FFFF7F#32 = 0 ∧
      wfld (chained.rd (Reg.FINE_CFG0 2)) 5 0 = 3 ∧ ∀ j < 8, j ≠ 2 → chained.bit (Reg.FINE_CFG0 j) 6 = false) ∧
    (((running 3).path 3).st = 2 ∧ ((running 3).path 3).fastOn = false ∧ (running 3).captured 3 = true ∧ (running 3).settling 0 = false ∧
      ((running 3).path 3).shifts = (running 3).rd (Reg.CH_CFG1 3) ∧ (List.replicate 64 true).length = 2 * (running 3).fld (Reg.CH_CFG0 3) 19 12) ∧
    (66 ∈ dcChains 2 4 ∧ chained.bit (Reg.FINE_CFG0 2) 6 = true ∧ chained.chainValid 66 = true ∧ dev.bit (Reg.FINE_CFG0 2) 6 = false ∧
      chained.captured (chained.chanOf 66) = true ∧
      chained.startWaits (chained.chanOf 66) = false ∧ dev.captured (dev.chanOf 66) = false) ∧
    (let v := wd (4 * 8)
     wfld v 2 0 < 3 ∧ coarseValid (wd (4 * 8 + 2 ^ 8 * (presetOf 0).1 + 2 ^ 12 * (chained.pdmOf 3 / (2 * outRate 4) % 256) + 2 ^ 20 * (presetOf 0).2.2.1 + 2 ^ 24 * (presetOf 0).2.1))
       (chained.pdmOf 3) = true ∧ chained.pdmOf 3 / (2 * outRate 4) < 256 ∧ wfld (wd 2) 2 0 = 2 ∧
       coarseValid (wd (2 + 2 ^ 8 * (presetOf 2).1 + 2 ^ 20 * (presetOf 2).2.2.1 + 2 ^ 24 * (presetOf 2).2.1)) (dev.pdmOf 3) = false) ∧
    (let w := switched.rd (Reg.FINE_CFG0 2)
     (switched.path 66).st = 2 ∧ (switched.path 66).src = 9 ∧ wfld w 5 0 = 3 ∧ wbit w 6 = true ∧ fineValid w (switched.pdmOf 3) = true) ∧
    ((running 66).captured ((running 66).chanOf 66) = true ∧ wfld ((running 66).rd (Reg.FINE_CFG0 2)) 5 0 ≠ (9 : Fin 64).val) := by
  unfold State.unitUp; and_intros <;> decide +kernel

/-- Samples. -/
def samples (n : Nat) : List Int := (List.range n).map (fun k => (k : Int) * 3000 - 9000)

/-- A pushed block of the front end under way. -/
def block : ReqFlit := { req 2 0x4000 8 with ack := false, srcChip := 0, srcTile := 0xFF, srcUnit := 10, payload := [] }
def blocked (n : Nat) (s : State) : State := s.onL 3 (fun t => { t with held := List.replicate n block })

/-- Delivery of group 1 with channels 17 and 20, its listen feed, and TDM port 1 in a state, each with samples queued for ring 2 of tile 3. -/
def delivery (hi n : Nat) : State :=
  cw (cw (((dev.onPath 17 (fun p => { p with st := 2 })).onPath 20 (fun p => { p with st := 2 })).onGrp 1
    (fun g => { g with begun := true, queues := [(1, samples n), (4, samples (n + 2))] })) (Reg.FE_DELIV_LO 1) 0x0C004000) (Reg.FE_DELIV_HI 1) hi
def feed (n : Nat) : State := cw (cw (dev.onGrp 1 (fun g => { g with feedQ := samples n })) (Reg.FE_FEED_LO 1) 0x0C004000) (Reg.FE_FEED_HI 1) 0x100
def tdm (cfg hi st n : Nat) : State :=
  (cw (cw (cw (cw dev (Reg.TDM_CFG 1) cfg) (Reg.TDM_STATUS 1) st) (Reg.TDM_DELIV_LO 1) 0x0C004000) (Reg.TDM_DELIV_HI 1) hi).onTdm 1
    (fun t => { t with queue := List.replicate n (samples 16), fails := n })

theorem test_Deliveries_met :
    (let a := (delivery 0x100 8).addrAt (Reg.FE_DELIV_LO 1) (Reg.FE_DELIV_HI 1)
     Addr.chip a = dev.chipId.toNat ∧ (delivery 0x100 8).issueError a = none ∧ (blocked 3 (delivery 0x100 8)).heldPushes 10 a < 4 ∧
       4 ≤ (blocked 4 (delivery 0x100 8)).heldPushes 10 a) ∧
    ((delivery 0x100 8).inListen = false ∧ wbit ((delivery 0x100 8).rd (Reg.FE_DELIV_HI 1)) 8 = true ∧ ((delivery 0x100 8).grp 1).begun = true ∧
      (delivery 0x100 8).runningChannels 1 ≠ [] ∧
      (∀ j ∈ (delivery 0x100 8).runningChannels 1, 8 ≤ (spGet (fun _ => []) ((delivery 0x100 8).grp 1).queues j).length) ∧
      ¬(∀ j ∈ (delivery 0x100 7).runningChannels 1, 8 ≤ (spGet (fun _ => []) ((delivery 0x100 7).grp 1).queues j).length) ∧
      wbit ((delivery 0x4300 4).rd (Reg.FE_DELIV_HI 1)) 9 = true) ∧
    ((feed 32).bit (Reg.FE_FEED_HI 1) 8 = true ∧ 32 ≤ ((feed 32).grp 1).feedQ.length ∧ ((feed 31).grp 1).feedQ.length < 32) ∧
    ((tdm 1 0x100 2 7).tdmState 1 = tdmLocked ∧ (tdm 1 0x100 0 7).tdmState 1 ≠ tdmLocked ∧ (tdm 0x2001 0x100 2 3).bit (Reg.TDM_CFG 1) 13 = true ∧
      ((tdm 1 0x100 2 7).tdm 1).queue.length < 8 ∧ 8 ≤ (((tdm 1 0x100 2 7).tdm 1).queue ++ [samples 16]).length ∧
      wbit ((tdm 1 0x100 2 7).rd (Reg.TDM_DELIV_HI 1)) 8 = true ∧ wbit ((tdm 1 0 2 7).rd (Reg.TDM_DELIV_HI 1)) 8 = false ∧ (tdm 1 0x100 2 7).inListen = false) := by
  decide +kernel

/-- Address-event port 1 with an entry of its map, events queued, one withheld, and its rate's window. -/
def aer (cfg lo hi : Nat) : State := cw (cw (cw dev (Reg.AE_CFG 1) cfg) (Reg.MAP_ENTRY_LO 1 3) lo) (Reg.MAP_ENTRY_HI 1 3) hi
def eventPost : ReqFlit := { req 8 0x40 0 with ack := false, srcChip := 0, srcTile := 0xFF, srcUnit := 11, arg0 := 0, payload := [] }
def posts (n : Nat) : State := (aer 1 (3 * 2 ^ 16 + 7 + 2 ^ 28) 0x50302).onAer 1 (fun p => { p with normal := List.replicate n (eventPost, 3) })
def withheld (cfg lo window taken k : Nat) : State := (aer cfg lo 0x302).onAer 1 (fun p => { p with held := some (0x305, k), window := window, taken := taken })

/-- In LISTEN; and an activating class-0 stream of the events of map 3. -/
def listening16 (s : State) : State := s.setFld Reg.PWR_STATUS 1 0 0
def mapUrgentOn : State := desc (desc (stream 4 2) 5 0 (4 + 16 * 3)) 5 0x0C 7

/-- TDM port 1 sends from ring 2 of tile 3, of slots of 256 bytes, one of which waits. -/
def sending : State :=
  let s := poke (poke (tdm (2 ^ 19 + 1) 0 2 1) 3 0x4000 (9 :: 9 :: 8 :: List.replicate 13 0)) 3 (0x4040 + 8 * 256) ((List.range 64).map (· * 0x1234567))
  cw (cw (tw (tw s 3 (Reg.RING_BASE 2) 0x4000) 3 (Reg.RING_CFG 2) (0x80 + 4 * 8 + 4 + 3 * 256)) (Reg.TX_LO 1) 0x0C004000) (Reg.TX_HI 1) 0x100

theorem test_PortEvents_met :
    ((tdm 1 0 0 3).bit (Reg.TDM_CFG 1) 0 = true ∧ (tdm 1 0 tdmSeeking 3).tdmState 1 = tdmSeeking ∧ (tdm 1 0 tdmLost 3).tdmState 1 = tdmLost ∧
      (tdm 0 0 2 3).bit (Reg.TDM_CFG 1) 0 = false ∧ ((tdm 1 0 2 4).tdm 1).fails = 4 ∧ (tdm 1 0 2 4).tdmState 1 = tdmLocked) ∧
    (let s := cw (cw (tdm (2 ^ 19 + 1) 0 2 1) (Reg.TX_LO 1) 0x10) (Reg.TX_HI 1) 0x110
     s.bit (Reg.TDM_CFG 1) 19 = true ∧ s.tdmState 1 = tdmLocked ∧ s.inListen = false ∧ s.bit (Reg.TX_HI 1) 8 = true ∧
       Addr.chip (s.addrAt (Reg.TX_LO 1) (Reg.TX_HI 1)) ≠ s.chipId.toNat ∧ (cw s (Reg.ROUTE 1) (2 ^ 21 + 8)).issueError (s.addrAt (Reg.TX_LO 1) (Reg.TX_HI 1)) = none ∧
       s.issueError (s.addrAt (Reg.TX_LO 1) (Reg.TX_HI 1)) ≠ none ∧ (cw s (Reg.TX_HI 1) 0x10).bit (Reg.TX_HI 1) 8 = false) ∧
    (let a := sending.addrAt (Reg.TX_LO 1) (Reg.TX_HI 1)
     sending.bit (Reg.TDM_CFG 1) 19 = true ∧ sending.tdmState 1 = tdmLocked ∧ sending.inListen = false ∧ sending.bit (Reg.TX_HI 1) 8 = true ∧ sending.issueError a = none ∧
       Addr.chip a = sending.chipId.toNat ∧ Addr.space a = 0 ∧ Addr.tile a = 3 ∧ sending.tileShut 3 = false ∧ sending.relocOf 3 = none ∧
       (sending.ltile 3).vcHeld (mkReq sending 1 true 1 a 6 0 0xFF 10 0 []) = false ∧ sending.fab.inflight ++ sending.fab.waiting = [] ∧
       sending.epochEntry sending.chipId.toNat 3 = sending.epochOf 3 ∧ (sending.ltile 3).ringHolds 2 (Addr.off a) ∧ (sending.ltile 3).ringBase 2 = Addr.off a ∧
       ringSlotSize ((sending.ltile 3).rd (Reg.RING_CFG 2)) = 256 ∧ sending.readable 3 (Addr.off a) 64 ∧
       sending.sramWord 3 (Addr.off a + 4) ≠ sending.sramWord 3 (Addr.off a + 8) ∧
       sending.readable 3 ((sending.ltile 3).ringSlot 2 (sending.sramWord 3 (Addr.off a + 8)).toNat) 256) ∧
    ((posts 15).bit (Reg.AE_CFG 1) 0 = true ∧ ((posts 15).aer 1).held = none ∧ (posts 15).fld (Reg.AE_CFG 1) 8 1 = 0 ∧
      wbit ((posts 15).rd (Reg.MAP_ENTRY_LO 1 (0x305 / 256))) 28 = true ∧ wbit ((aer 1 0 0).rd (Reg.MAP_ENTRY_LO 1 3)) 28 = false ∧
      (posts 15).mapUrgent (wfld ((posts 15).rd (Reg.MAP_ENTRY_HI 1 3)) 15 8) = false ∧ wbit ((posts 15).rd (Reg.MAP_ENTRY_LO 1 3)) 29 = false ∧
      ((posts 15).aer 1).normal.length < 16 ∧ 16 ≤ ((posts 16).aer 1).normal.length) ∧
    (let s := (aer (1 + 4 * 2) 0 0).onAer 1 (fun p => { p with window := 50000, taken := 4 })
     (s.aer 1).window = s.now / 10 ∧ 0 < s.fld (Reg.AE_CFG 1) 8 1 ∧ s.fld (Reg.AE_CFG 1) 8 1 ≤ (s.aer 1).taken) ∧
    (8 < eventPost.srcUnit.toNat ∧ eventPost.ack = false ∧ Addr.chip eventPost.addr = dev.chipId.toNat ∧ (posts 1).issueError eventPost.addr = none ∧
      ((posts 1).aer 1).normal = [(eventPost, 3)]) ∧
    ((withheld (1 + 4 * 2) 0 49999 4 499999).aer 1).held = some (0x305, 499999) ∧ ((withheld (1 + 4 * 2) 0 49999 4 499999).aer 1).window ≠ dev.now / 10 ∧
    (withheld (1 + 40 * 512) 0 0 0 499960).fld (Reg.AE_CFG 1) 24 9 = 40 ∧ 499960 + 40 ≤ dev.now ∧ dev.now < 499961 + 40 ∧
    ((stream 4 3).desc 5 0 0 4 = 4 ∧ (stream 4 3).accepts 5 dev.now32 = true ∧ dev.now % (stream 4 3).hopUs 5 = 0 ∧
      (stream 4 3).heldPushes 11 ((stream 4 3).descAddr 5 4) < 4) ∧ (stream 5 3).desc 5 0 0 4 ≠ 4 ∧
    (stream 5 3).liveStreams.filter (fun e => (stream 5 3).desc e 0 0 4 == 5 && (stream 5 3).desc e 0 4 12 == 2) = [5] ∧
    (stream 5 3).liveStreams.filter (fun e => (stream 5 3).desc e 0 0 4 == 5 && (stream 5 3).desc e 0 4 12 == 3) = [] ∧
    early.ready = false ∧ (stream 5 3).unitUp 2 ∧ ((stream 5 3).run 5).lastEnd = none ∧ (stream 5 3).accepts 5 dev.now32 = true ∧
    (let s := listening16 (aer 1 (3 * 2 ^ 16 + 7 + 2 ^ 28) 0x50302)
     s.bit (Reg.AE_CFG 1) 0 = true ∧ s.inListen = true ∧ wbit (s.rd (Reg.MAP_ENTRY_LO 1 3)) 28 = true ∧ ¬(wfld (s.rd (Reg.MAP_ENTRY_LO 1 3)) 27 24 = s.chipId.toNat ∧
       240 ≤ wfld (s.rd (Reg.MAP_ENTRY_LO 1 3)) 23 16)) ∧
    ((stream 4 3).strState 5 = stActive ∧ Addr.chip ((stream 4 3).descAddr 5 4) = dev.chipId.toNat ∧ (stream 4 3).issueError ((stream 4 3).descAddr 5 4) = none ∧
      4 ≤ ((stream 4 3).onL (Addr.tile ((stream 4 3).descAddr 5 4)) (fun t => { t with held := List.replicate 4 { block with addr := (stream 4 3).descAddr 5 4, srcUnit := 11 } })).heldPushes 11
        ((stream 4 3).descAddr 5 4)) ∧
    (let s := (stream 5 3).onRun 5 (fun r => { r with lastEnd := some 497501 })
     let at_ := (stream 5 3).onRun 5 (fun r => { r with lastEnd := some 497500 })
     s.unitUp 2 ∧ (s.run 5).lastEnd = some 497501 ∧ 2 * s.now < 2 * 497501 + s.hopUs 5 ∧ (at_.run 5).lastEnd = some 497500 ∧ ¬2 * at_.now < 2 * 497500 + at_.hopUs 5 ∧
       at_.accepts 5 at_.now32 = true) ∧
    (((aer (1 + 40 * 512) 0 0).aer 1).held = none ∧ (withheld (40 * 512) 0 0 0 499960).bit (Reg.AE_CFG 1) 0 = false ∧
      (mapUrgentOn.mapUrgent 3 = true ∧ (posts 1).mapUrgent 3 = false)) := by
  unfold Tile.ringHolds State.readable State.cleanLine State.unitUp; and_intros <;> decide +kernel

/-- The parameter store after its spare map is loaded, at an address, with commands of the host waiting. -/
def store (addr : Nat) (queue : List NvWork) : State :=
  { cw dev Reg.NV_ADDR addr with nv := { dev.nv with loaded := true, queue := queue.map (fun w => { work := w, host := true }) } }

/-- An operation of one act: the act under way is that one. -/
theorem oneAct (s : State) (w : NvStep) (h : s.nvActs = [w]) : s.nvView.2 = { act := some w, die := s.nv } := by
  simp [State.nvView, h, Nat.mod_one, Nv.doSteps]

/-- The core runs. -/
def core (s : State) : State := cw s Reg.MB_STATUS 2

theorem test_StoreReads_busy :
    (store 0x980FFC [.erase 0x980000]).nvView.2.busySector 0x980FFC 4 = true ∧
    (let s := store 0x9800F0 [.program 0x9800F0 (List.replicate 16 1)]
     s.nvView.2.busySector 0x9800F0 4 = false ∧ s.nvView.2.busyPage 0x9800F0 4 = true) := by
  rw [oneAct (store 0x980FFC [.erase 0x980000]) (.erase 0x980) (by decide +kernel)]
  dsimp only
  rw [oneAct (store 0x9800F0 [.program 0x9800F0 (List.replicate 16 1)]) (.program 0x9800F0 (List.replicate 16 1)) (by decide +kernel)]
  decide +kernel

theorem test_StoreReads_met :
    (store 0 []).storeOpen ∧ early.storeOpen ∧ early.ready = false ∧ (dev.setBit Reg.NV_STATUS 1 true).nvPending = true ∧
    (2 % 4 ≠ 0 ∧ 256 < (260#9).toNat ∧ (0#9).toNat < 4) ∧
    (¬(0xFFFFC % 4 ≠ 0 ∨ 256 % 4 ≠ 0 ∨ 256 < 4 ∨ 256 < 256 ∨ 2 ^ 24 < 0xFFFFC + 256) ∧ ¬(0x100000 ≤ 0xFFFFC ∧ 0xFFFFC + 256 ≤ 0xF80000)) ∧
    (0x100000 ≤ 0xF7FFFC ∧ 0xF7FFFC + 4 ≤ 0xF80000 ∧ (store 0xF7FFFC []).nvView.2.busySector 0xF7FFFC 4 = false ∧ (store 0xF7FFFC []).nvView.2.busyPage 0xF7FFFC 4 = false ∧
      (store 0xF7FFFC []).nv.weak = [] ∧ (store 0xF7FFFC []).nvActs = []) ∧ dev.nv.loaded = false ∧ (store 0x980FFC [.erase 0x980000]).storeOpen ∧
    (store 0x9800F0 [.program 0x9800F0 (List.replicate 16 1)]).storeOpen ∧
    ((kept [(0x55, [])] (store 0x55 [])).nv.value ((store 0x55 []).rd Reg.NV_ADDR)).isSome = true ∧
    (store 0x55 []).nv.value ((store 0x55 []).rd Reg.NV_ADDR) = none ∧ ((store 63 []).rd Reg.NV_ADDR).toNat = 63 ∧ ((store 64 []).rd Reg.NV_ADDR).toNat = 64 ∧
    (store 0 []).nv.hostTx = none := by
  unfold State.storeOpen; decide +kernel

/-- Whole sector headers of a region, as after a number of sectors in use. -/
def header (v : Nv) (r : Region) (sec sseq : Nat) : Nv :=
  let h := [0xA5#8] ++ toBytes 1 r.code ++ toBytes 2 1 ++ toBytes 4 sseq ++ toBytes 4 0xFFFFFFFF
  v.program (4096 * sec) (h ++ toBytes 4 (crc32 h).toNat)
def inUse (n : Nat) : State := let s := store 0 []; { s with nv := header (header s.nv .journal Region.journal.base 1) .journal (Region.journal.base + n - 1) n }
def records (n : Nat) (addr : Nat) : State :=
  { store addr [] with nv := { (store addr []).nv with audit := List.replicate n { payload := List.replicate 32 7, device := false, extra := none, due := false } } }

/-- A log entry that waits, and an audit record whose command has no reply yet. -/
def logs : State := let s := store 0 []; { s with nv := { s.nv with logq := [{ code := 3, sev := 0, src := 0, arg := 0, count := 1, first := 5, last := 5 }] } }
def reserved : State := let s := records 1 0; { s with nv := { s.nv with audit := s.nv.audit.map (fun e => { e with due := true }) } }

theorem test_StoreWrites_met :
    (∀ a ∈ [0x980000, 0xBFFFF0, 0xC00000], (store a []).storeOpen) ∧ (0xBFFFF0 % 16 = 0 ∧ 0xBFFFF0 + 16 ≤ 0xC00000 ∧ 0xC00000 < 0xBFFFF0 + 32) ∧
    (rawWritable 0x97FFF0 16 = false ∧ rawWritable 0x980000 256 = true ∧ (cw (store 0x980000 []) Reg.NV_PROTECT 3).bpCovers 0x980000 = true ∧
      (store 0x980000 []).bpCovers 0x980000 = false) ∧
    (rawWritable 0xC00000 256 = true ∧ (store 0xC00000 []).auditRefuses = false ∧ (records 64 0xC00000).auditRefuses = true) ∧
    (hostKey 5 = true ∧ hostKey 0x80000001 = false ∧ (store 5 []).bpCovers 0x800000 = false ∧ (store 55 []).bpCovers 0x900000 = false) ∧
    ((store 0 [.program 0x980010 [1, 2, 3]]).nvCurrent = some { work := .program 0x980010 [1, 2, 3], host := true } ∧ (store 0 []).nv.rawRo 0x980010 3 = false ∧
      (store 0 [.erase 0x981005]).nvCurrent = some { work := .erase 0x981005, host := true } ∧ (store 0 []).nv.rawRo 0x981005 1 = false ∧ (store 0 []).nvCurrent = none) ∧
    ((store 0 []).nv.row (0x981005 / 4096)).readOnly = false ∧
    (∀ n ∈ [200, 240], (core (inUse n)).coreUp = true ∧ (core (inUse n)).dieIdle = true ∧ (inUse n).nv.compactDue .journal = true ∧
      (core (inUse n)).mailUrgent = false ∧ (core (inUse n)).mailBusy = false ∧ (inUse n).nv.queue = [] ∧ (inUse n).nv.audit = []) ∧
    (¬9 * Region.journal.size < 10 * (inUse 200).nv.used .journal ∧ (inUse 200).coreUp = false ∧ (inUse 200).keys.halted = false ∧
      9 * Region.journal.size < 10 * (inUse 240).nv.used .journal ∧ (inUse 200).bit Reg.MGMT_LOAD 16 = false ∧ dev.nv.compactDue .journal = false) ∧
    ((store 0 []).nv.found = NvVerify.clean ∧ (core (inUse 200)).mayCompact .journal = true ∧ (core logs).coreUp = true ∧ (core logs).keysGoing = false ∧
      (core logs).mailBusy = false ∧ (core (records 1 0)).coreUp = true ∧ (core (records 1 0)).dieTakes = true ∧ (core (records 1 0)).mailUrgent = false ∧
      logs.nv.logq ≠ [] ∧ logs.nv.compactDue .enroll = false ∧ logs.nv.compactDue .journal = false ∧ logs.nv.queue = [] ∧ logs.nv.audit = []) ∧
    (∀ e ∈ (records 1 0).nv.audit, e.due = false ∧ e.extra = none) ∧ reserved.nv.audit.map (·.due) = [true] ∧
    (records 1 0).nv.audit ≠ [] ∧ ((store 0 []).nv.append .journal 0x10 0x8A000000 0 (List.replicate 32 7)).2 = .ok := by
  unfold State.storeOpen; decide +kernel

/-- The fabric window and the remote-operation port at SRAM of tile 3, WIN_CTRL, and the host port's queues. -/
def window (f : HostPort → HostPort) : State :=
  let s := cw (cw (cw (cw dev Reg.WIN_ADDR_LO 0x0C000040) Reg.WIN_CTRL 0xA) Reg.OP_ADDR_LO 0x0C000040) Reg.OP_ARG 5
  { s with host := f s.host }
def near : Addr := 0x0C000040
def winEntry : HostEntry := .window near 2 1 55
def opEntry (w : Nat) : HostEntry := .op near 5 6 (BitVec.ofNat 32 w)
def hostOut (n : Nat) : List HostOut := (List.range n).map (fun k => { seq := k, use := .op, acked := true, prio := 1, tag := 3, target := targetKey near, since := 5 })
def hostResp : RespFlit := { resp with dstTile := 0xFF, dstUnit := 8 }
def winRead (active : Bool) (since : Nat) (r : Option RespFlit) : WinRead := { addr := near, size := 2, active := active, since := since, tag := some 4, resp := r }

/-- The window at the last word of the parameter store before READY, its spare map loaded or not. -/
def earlyWindow : State := cw (cw (cw early Reg.WIN_ADDR_LO ((mkAddr 0 3 9 0xF7FFFC).toNat % 2 ^ 32)) Reg.WIN_ADDR_HI ((mkAddr 0 3 9 0xF7FFFC).toNat / 2 ^ 32)) Reg.WIN_CTRL 2
def loadedWindow : State := { earlyWindow with nv := { earlyWindow.nv with loaded := true } }

/-- The window at LC_RESULT after a life cycle transition. -/
def resultWindow : State :=
  let s := cw (cw (cw dev Reg.WIN_ADDR_LO ((mkAddr 0 3 10 0x60).toNat % 2 ^ 32)) Reg.WIN_ADDR_HI ((mkAddr 0 3 10 0x60).toNat / 2 ^ 32)) Reg.WIN_CTRL 2
  { s with keys := { s.keys with halted := true } }

theorem test_WindowAndOperations_met :
    ((window id).ready = true ∧ (window id).boot.low = false ∧ (window id).boot.safe = false ∧ (window id).bit Reg.WIN_STATUS 21 = false ∧
      early.bit Reg.WIN_STATUS 21 = false ∧ early.bit Reg.WIN_STATUS 24 = false ∧ (window id).host.read = none ∧ (window id).hostAcked < 16 ∧
      (window id).hostHeld near 1 = false ∧ (window id).hostRoom = true ∧ (window id).winAddr = near ∧ (window id).issueError near = none) ∧
    (List.replicate 15 winEntry).length < 16 ∧ 16 ≤ (List.replicate 16 winEntry).length ∧
    ((window (fun h => { h with out := hostOut 15 })).hostRoom = true ∧ (window (fun h => { h with out := hostOut 16 })).hostRoom = false) ∧
    ((window id).setBit Reg.WIN_STATUS 21 true).bit Reg.WIN_STATUS 21 = true ∧ hostResp.status = 0 ∧
    ((winRead true 499998 none).since + 2 ≤ dev.now ∧ dev.now < (winRead true 499999 none).since + 2) ∧
    (winEntry.needsResponse = true ∧ (window id).entryHeld (opEntry 0x21) = false ∧ wfld 0x21 4 0 = 1 ∧ wbit 0x21 5 = true ∧ wfld 0x1462 4 0 = 2 ∧ wbit 0x1462 5 = true) ∧
    (early.winOnStore = false ∧ earlyWindow.ready = false ∧ earlyWindow.winOnStore = true ∧ earlyWindow.bit Reg.BIST_BLOCKS 9 = false ∧ earlyWindow.winSize = 2 ∧
      Addr.off earlyWindow.winAddr = 0xF7FFFC ∧ earlyWindow.nv.loaded = false ∧ loadedWindow.nv.loaded = true ∧ loadedWindow.nvActs = [] ∧
      loadedWindow.nvView.2.busyPage 0xF7FFFC 4 = false ∧ loadedWindow.nvView.2.busySector 0xF7FFFC 4 = false ∧ loadedWindow.nv.weak = [] ∧
      earlyWindow.keys.halted = false) ∧
    (resultWindow.keys.halted = true ∧ resultWindow.winAddr = mkAddr resultWindow.chipId.toNat 3 10 0x60 ∧ resultWindow.winSize = 2) ∧
    (window id).host.stalled = none ∧ (window id).bit Reg.OP_STATUS 0 = false ∧ ((window id).setBit Reg.OP_STATUS 0 true).bit Reg.OP_STATUS 0 = true := by
  and_intros <;> decide +kernel

/-- Audit records waiting, and replies of the management core. -/
def mgmtSt (f : Mgmt → Mgmt) : State := { dev with mgmt := f dev.mgmt }

theorem test_HostRegisters_met :
    dev.mgmt.replies = [] ∧ (mgmtSt (fun m => { m with replies := [1, 2, 3], heldReplies := [9] })).mgmt.replies ≠ [] ∧ early.boot.low = false ∧
    early.boot.safe = false ∧ early.ready = false ∧ (records 64 0).auditRefuses = true ∧ dev.auditRefuses = false ∧ dev.keys.event = none ∧
    ({ cw dev Reg.ALARM_POLICY 0x2AAA2AAA with nv := dev.nv.onRow 2048 (fun r => { r with readOnly := true }) }).journalRo = true ∧
    policyRank (wfld 0x2AA8 1 0) < policyRank ((cw dev Reg.ALARM_POLICY 0x2AAA2AAA).fld Reg.ALARM_POLICY 1 0) ∧
    dev.fld Reg.MB_STATUS 1 0 = 0 ∧ (cw dev Reg.MB_STATUS 2).fld Reg.MB_STATUS 1 0 ≠ 0 := by
  decide +kernel

/-- Port 2 in a state of Table 15.6, with LINK_CFG, four lanes and a spare. -/
def link (st cfg lanes : Nat) (f : LinkPort → LinkPort) : State :=
  (cw (cw (cw dev (Reg.LINK_STATUS 2) (st + 3 * 2 ^ 10)) (Reg.LINK_CFG 2) cfg) (Reg.LANE_STATUS 2) lanes).onPort 2 f
def frame (fseq : Nat) (data : List DataFlit) : LinkFrame :=
  { fseq := BitVec.ofNat 12 fseq, ack := 0, nak := false, vc := 1, subLane := 0, subReq := false, subAck := false, credits := List.replicate 6 0, data := data }
def training (chip revMax revMin : Nat) : TsFlit :=
  { chip := BitVec.ofNat 4 chip, port := 5, revMax := BitVec.ofNat 4 revMax, revMin := BitVec.ofNat 4 revMin, locked := 31, time := 5 }
def linkNote (o : Nat) : LinkNotice := { origin := BitVec.ofNat 4 o, number := 4, map := 0x1234567890ABCDEF1234567890ABCDEF, routes := 0x55 }
def caught (due : Nat) : State :=
  { link 2 0x13 0x3C1F id with links := { dev.links with caught := [(due, 16 * 0xFF + 8, 0)] }, host := { dev.host with out := hostOut 1 } }

/-- A push of the front end to another chip whose time is over. -/
def caughtBlock : State :=
  { dev with
    links := { dev.links with caught := [(500000, 16 * 0xFF + 10, 7)] }
    fab := { dev.fab with blockOut := [{ unit := 10, seq := 7, acked := false, prio := 1, tag := 0, target := targetKey (mkAddr 2 0 4 0), req := { block with addr := mkAddr 2 0 4 0 } }] } }

/-- The control flit of a frame of one data flit. -/
def control : BitVec 128 := 261813236665767057988265564667134345682

/-- Such a frame as its receiver reads it. -/
def onWire (k : Nat) : LinkFrame := ctlFrame (control + BitVec.ofNat 128 (256 * k)) [.body]

theorem test_LinkCommands_met :
    dev.unitUp 13 ∧ early.ready = false ∧ (∀ st < 5, (link st 0x13 0x3C1F id).linkState 2 = st) ∧
    (wbit 0x13 0 = true ∧ wbit 0x12 0 = false ∧ dev.bit Reg.BIST_BLOCKS 18 = false) ∧
    (((link 3 0x13 0x3C1F (fun x => { x with downAt := some 499000 })).port 2).downAt = some 499000 ∧ 499000 + 1000 ≤ dev.now ∧ dev.now < 499001 + 1000) ∧
    (((List.range 5).filter (fun l => (7#5).getLsbD l)).length < 4 ∧ 4 ≤ ((List.range 5).filter (fun l => (15#5).getLsbD l)).length) ∧
    ((training 0 3 2).chip = dev.chipId ∧ (training 4 3 2).chip ≠ dev.chipId ∧ min 3 (training 4 1 1).revMax.toNat < max 2 (training 4 1 1).revMin.toNat ∧
      max 2 (training 4 2 1).revMin.toNat ≤ min 3 (training 4 2 1).revMax.toNat) ∧
    (((link 2 0x13 0x3C1F id).port 2).parked = false ∧ dev.fab.waiting = [] ∧ ((link 2 0x13 0x3C1F id).port 2).resend = [] ∧
      (∀ v < 6, (link 2 0x13 0x3C1F id).readyFlits 2 v = []) ∧
      ((link 2 0x13 0x3C1F (fun x => { x with resend := [frame 1 []], parked := false })).port 2).resend = [frame 1 []]) ∧
    ((onWire 0).fseq = ((link 2 0x13 0x3C1F id).port 2).expect ∧ (onWire 7).fseq ≠ ((link 2 0x13 0x3C1F id).port 2).expect ∧ (onWire 0).nak = false ∧
       (onWire 0).subReq = false ∧ (onWire 0).data ≠ [] ∧ ((link 2 0x13 0x3C1F id).port 2).subReq = none) ∧
    ((frame 0 [.body]).credits.length = 6 ∧ (frame 0 (List.replicate 21 .body)).data.length ≤ 21) ∧
    (control = ctlFlit (frame 1 [.body]) [5] ∧ control.extractLsb' 0 8 = 0xD2 ∧
      control.extractLsb' 96 32 = crc32 (toBytes 12 (control.extractLsb' 0 96).toNat ++ [(5 : BitVec 128)].flatMap (fun d => toBytes 16 d.toNat)) ∧
      ¬(control ^^^ 2#128).extractLsb' 0 8 = 0xD2) ∧
    ((link 2 0x13 0x3C1F id).fld (Reg.LINK_STATUS 2) 13 10 = 3 ∧ wbit 0x13 4 = true ∧ (link 2 0x13 0x3C1F id).bit (Reg.LINK_STATUS 2) 28 = false ∧
      (∀ k < 4, wbit 0x3C1F (10 + k) = true) ∧ wbit 0x3C1F 14 = false ∧ wbit 0x3C1F 4 = true ∧ wbit 0x3C1F 9 = false ∧ wbit 0x7C1F 14 = true) ∧
    (((link 2 0x13 0x3C1F (fun x => { x with heard := 499990, resends := [(7, 16)] })).port 2).heard + 10 ≤ dev.now ∧ dev.now < 499991 + 10) ∧
    (linkNote 3 ∉ dev.links.known ∧ (linkNote 3).origin ≠ dev.chipId ∧ (linkNote 0).origin = dev.chipId) ∧ dev.links.caught = [] ∧
    ((caught 500000).links.caught = [(500000, 16 * 0xFF + 8, 0)] ∧ (caught 500000).host.out = hostOut 1 ∧ (caught 500000).host.fence = none ∧
      (caught 500000).host.read = none ∧ caughtBlock.links.caught = [(500000, 16 * 0xFF + 10, 7)] ∧ caughtBlock.fab.blockOut.length = 1 ∧
      ∀ o ∈ caughtBlock.fab.blockOut, o.unit = 10 ∧ o.seq = 7 ∧ o.acked = false ∧ 8 < o.unit) ∧
    ((link 2 0x13 0x3C1F (fun x => { x with skewHigh := true, parked := true })).port 2).parked = true ∧ dev.pwr.waking = none ∧ dev.bit Reg.PWR_CFG 3 = true ∧
    (cw dev Reg.PWR_STATUS 0).fld Reg.PWR_STATUS 1 0 = 0 ∧ { dev.pwr with waking := some 5 }.waking ≠ none ∧ readFlits [(.body, 5)] = [.body] := by
  unfold State.unitUp; and_intros <;> decide +kernel

/-- FULL mode, the life cycle, and a test of tile 16. -/
def peal (lc : Nat) (tests : List PealTest) : State :=
  tests.foldl (fun s t => s.setPhys t.phys 2) { (dev.setFld Reg.LC_STATE 2 0 lc) with peal := { dev.peal with tests := tests } }
def pealTest (slice elem origin : Nat) : PealTest :=
  { phys := 16, origin := origin, slice := slice, elem := elem, seed := none, sigs := [], step := false, unretire := false, spared := false, fixed := [] }
def arg (v : Nat) (s : State) : State := cw s Reg.BIST_ARG v

theorem test_PealCommands_met :
    (let s : State := { peal lcField [] with peal := { dev.peal with due := [(0, some 500000)] } }
     s.ready = true ∧ s.stepping 0 = false ∧ s.lcState ≠ lcScrapped ∧ s.pealMayRun = true ∧ s.freeTile 0 = some 16 ∧ s.victim 0 = some 0 ∧ s.logicalOf 0 = some 0 ∧
       s.untested 16 = false ∧ s.mapState 0 = 0 ∧ spGet (fun _ => none) s.peal.due 0 = some 500000 ∧ s.bit Reg.PEAL_CFG 0 = true ∧ s.bit Reg.PEAL_ROWS 0 = true) ∧
    (cw dev Reg.PWR_STATUS 0).pealMayRun = false ∧ dev.testOf 16 = none ∧ dev.peal.retest = [] ∧ dev.peal.cols = [] ∧
    (∀ x ∈ [pealTest 23 0 0, pealTest 24 22 0, pealTest 24 23 2, pealTest 24 24 1], (peal lcField [x]).testOf 16 = some x) ∧ (dev.tile 16).spareBad = false ∧
    128 * (1151 % 8) + 1151 / 8 / 4 ∉ (pealTest 24 22 0).fixed ∧
    dev.unitUp 14 ∧ dev.bit Reg.BIST_STATUS 0 = false ∧ (dev.setBit Reg.BIST_STATUS 0 true).bit Reg.BIST_STATUS 0 = true ∧
    (∀ k ∈ [lcBlank, lcProvision, lcField, lcService, lcScrapped], (peal k []).lcState = k) ∧
    ((arg (16 + 2 ^ 20) (peal lcField [])).bit Reg.BIST_ARG 20 = true ∧ (arg 272 dev).fld Reg.BIST_ARG 8 0 = 272 ∧ (arg 16 dev).fld Reg.BIST_ARG 8 0 = 16 ∧
      dev.phys 16 = 1 ∧ dev.chosen 16 = false ∧ dev.phys 3 ≠ 1 ∧ ((peal lcService []).setPhys 33 3).phys 33 = 3) ∧
    ((peal lcField [{ pealTest 0 0 0 with step := true }]).stepping 0 = true ∧ (dev.setPhys 16 3).phys 16 ≠ 1 ∧ ∀ c < 16, (dev.setPhys 16 3).phys c ≠ 1) := by
  unfold State.unitUp; decide +kernel

/-- Keys stored, a life-cycle state, and SEC_STATUS.ENTROPY_OK. -/
def key32 (n : Nat) : List Byte := List.replicate 32 (BitVec.ofNat 8 n)
def slot (n : Nat) : KeySlot := { key := key32 n, group := 3, seq := 7 }
def keyed (lc : Nat) (f : Keys → Keys) : State :=
  { (dev.setFld Reg.LC_STATE 2 0 lc).setBit Reg.SEC_STATUS 4 true with
    keys := f { dev.keys with wk := some (key32 1), duk := some (key32 2), image := some (slot 3), site := some (slot 4), enroll := some (slot 5), keyIn := key32 9 } }

/-- KEYS is to be erased. -/
def erasing (s : State) : State := { s with keys := { s.keys with erase := some 1 } }

theorem test_KeysAndTocsin_met :
    (∀ s ∈ [erasing dev, erasing early], s.keys.erase = some 1 ∧ s.nv.started = none ∧ s.keysRo = false ∧ s.nv.found = NvVerify.clean) ∧ dev.keys.halted = false ∧
    (erasing early).ready = false ∧ (keyed lcProvision (fun k => { k with unlock := some (key32 7) })).keys.unlock ≠ none ∧
    (cw (keyed lcProvision id) Reg.ALARM_STATUS 0x10000).bit Reg.ALARM_STATUS 16 = true ∧
    (State.reset.boot.low = true ∧ dev.boot.low = false ∧ dev.boot.safe = false ∧ (0x7F#7).toNat &&& (127 - dev.fld Reg.ALARM_STATUS 6 0) = 127 ∧
      (4#7).toNat &&& (127 - (cw dev Reg.ALARM_STATUS 4).fld Reg.ALARM_STATUS 6 0) = 0 ∧ dev.mgmt.load = none ∧ dev.keys.event = none) ∧
    ((cw dev Reg.ALARM_POLICY 0x1555).policyOf 127 = 1 ∧ (cw dev Reg.ALARM_POLICY 0x2AAA).policyOf 127 = 2 ∧ (cw dev Reg.ALARM_POLICY 0).policyOf 127 = 0) ∧
    (dev.bit Reg.ALARM_STATUS 4 = false ∧ (cw dev Reg.ALARM_STATUS 16).bit Reg.ALARM_STATUS 4 = true) ∧ dev.keys.erase = none ∧ early.ready = false ∧
    dev.unitUp 10 ∧ (records 64 0).auditRefuses = true ∧ (keyed lcProvision id).auditRefuses = false ∧ (keyed lcProvision id).keys.halted = false ∧
    (∀ k ∈ [lcBlank, lcProvision, lcField, lcService], (keyed k id).lcState = k) ∧ (keyed lcProvision id).bit Reg.ALARM_STATUS 16 = false ∧
    (keyed lcProvision id).keys.unlock = none ∧ (keyed lcProvision id).keys.wk ≠ none ∧ (keyed lcService id).keys.duk ≠ none ∧
    (keyed lcProvision id).bit Reg.SEC_STATUS 4 = true ∧ (keyed lcProvision id).keysRo = false ∧
    ({ keyed lcProvision id with nv := dev.nv.onRow 3968 (fun r => { r with readOnly := true }) }).keysRo = true := by
  unfold State.unitUp; decide +kernel

/-- An exchange under way, with the words received and the time of its start, and the right answer to RETURN's. -/
def exchange (cmd start : Nat) (ws : List Word) : Exchange := { cmd := cmd, challenge := key32 3, words := ws, start := start }
def opened (lc : Nat) (e : Option Exchange) : State := keyed lc (fun k => { k with unlock := some (key32 7), exchange := e })

/-- HMAC-SHA-256 under UNLOCK_KEY of that challenge and the command word of RETURN (R623). -/
def rightAnswer : List Word := [4104835108, 1945090889, 1635034248, 1638340107, 3726194781, 3808642986, 956765717, 86706478]

theorem test_UnlockExchanges_met :
    ((opened lcField none).ready = true ∧ (opened lcField none).bit Reg.BIST_BLOCKS 10 = false ∧ (opened lcField none).keys.halted = false ∧
      (keyed lcField (fun k => { k with halted := true })).keys.halted = true ∧ (opened lcField (some (exchange 3 5 []))).keys.exchange ≠ none) ∧
    ((opened lcField none).lcRefused 2 = true ∧ (opened lcBlank none).lcRefused 1 = false ∧ (opened lcProvision none).lcRefused 2 = false ∧
      (opened lcField none).lcRefused 3 = false ∧ (opened lcService none).lcRefused 4 = false ∧ (opened lcField none).lcRefused 5 = false) ∧
    lcCmdOf 0x4C430006 = none ∧ (exchange 2 5 [1, 2]).words.length ≠ 7 ∧ (exchange 4 5 (rightAnswer.take 7)).words.length = 7 ∧
    (opened lcService none).keys.response (exchange 4 5 (rightAnswer.take 7)) = some (((exchange 4 5 (rightAnswer.take 7)).words ++ [rightAnswer.getD 7 0]).flatMap (fun x => toBytes 4 x.toNat)) ∧
    lcCmdOf (rightAnswer.getD 7 0) = none ∧ (opened lcService none).mgmt.load = none ∧ dev.now < (exchange 4 5 []).start + 10000000 ∧
    (exchange 4 5 []).start + 10000000 ≤ ({ dev with time := 10000005 } : State).now := by
  and_intros <;> decide +kernel

theorem test_UnlockExchanges_wrong : ∃ w ∈ [0#32, 1#32], (opened lcService none).keys.response (exchange 4 5 (List.replicate 7 0)) ≠
    some (((exchange 4 5 (List.replicate 7 0)).words ++ [w]).flatMap (fun x => toBytes 4 x.toNat)) := by
  by_cases h : (opened lcService none).keys.response (exchange 4 5 (List.replicate 7 0)) =
      some (((exchange 4 5 (List.replicate 7 0)).words ++ [0#32]).flatMap (fun x => toBytes 4 x.toNat))
  · refine ⟨1, by simp, ?_⟩
    rw [h]; decide +kernel
  · exact ⟨0, by simp, h⟩

/-- A power mode, and the controller's state. -/
def power (status : Nat) (f : Power → Power) : State := { cw dev Reg.PWR_STATUS status with pwr := f dev.pwr }

/-- LISTEN is being entered, the tiles closed or gated or not yet; the same with a copy under way; and a wake. -/
def entering (closed gated : Bool) : State := power 6 (fun p => { p with target := some 0, closed := closed, gated := gated })
def moved (s : State) : State := { s with fab := { s.fab with relocs := (moving false false 2 1).fab.relocs } }
def waking (begun restored : Bool) : State := power 0 (fun p => { p with waking := some 5, begun := begun, restored := restored, gated := true, closed := true })

theorem test_PowerCommands_met :
    (State.reset.boot.low = true ∧ early.boot.low = false ∧ early.boot.safe = false ∧ early.ready = false ∧ dev.fld Reg.PWR_STATUS 1 0 = 2) ∧
    ((power 6 id).bit Reg.PWR_STATUS 2 = true ∧ (power 0 id).bit Reg.PWR_STATUS 2 = false ∧ (desc (stream 2 3) 5 0x0C 7).urgentServed = true ∧ dev.urgentServed = false ∧
      dev.matched = true ∧ (cw dev Reg.FE_CTRL 0).matched = false ∧ (cw dev Reg.FE_CTRL 0).urgentServed = false) ∧
    (dev.pwr.target ≠ some 0 ∧ (entering false false).entryReady = true ∧ (entering false false).pwr.target = some 0 ∧ dev.liveStreams = [] ∧ dev.peal.tests = [] ∧
      dev.pwr.heldWake = none ∧ (entering true false).entryQuiet = true ∧ (entering true true).pwr.gated = true ∧ (entering true true).pwr.closed = true ∧
      ¬((entering true true).fld Reg.PWR_ACT 13 12 = 0 ∨ ((entering true true).setBit Reg.PWR_CFG 0 true).bit Reg.PWR_CFG 0 = false) ∧
      ((entering true true).setFld Reg.PWR_ACT 13 12 0).fld Reg.PWR_ACT 13 12 = 0) ∧
    (∀ s ∈ [moved (entering false false), moved (entering true false)], s.entryReady = false ∧ s.entryQuiet = false) ∧
    (dev.pwr.waking = none ∧ (∀ b : Bool, (waking b false).pwr.waking ≠ none ∧ (waking b false).pwr.restored = false ∧ (waking b false).fld Reg.PWR_STATUS 1 0 = 0 ∧
      (waking b false).pwr.begun = b ∧ (waking b false).pwr.saved = none ∧ (waking b false).fld Reg.PWR_ACT 13 12 = 3 ∧
      ¬(((waking b false).setFld Reg.PWR_ACT 13 12 2).fld Reg.PWR_ACT 13 12 = 3 ∨ ((waking b false).setBit Reg.PWR_CFG 0 true).bit Reg.PWR_CFG 0 = false))) ∧
    ((waking true true).pwr.restored = true ∧ (∀ k < 8, ((waking true true).port k).parked = false) ∧
      ((waking true true).onPort 2 (fun x => { x with parked := true }) |>.port 2).parked = true) ∧
    ((power 2 (fun p => { p with ranFor := 9 })).pwr.ranFor < 10 ∧ 10 ≤ (power 2 (fun p => { p with ranFor := 10, ran := 256 })).pwr.ranFor) ∧ dev.cu.held = [] ∧
    (let s := power 0 (fun p => { p with droops := [(3, List.replicate 64 499000)], droopAt := [(3, some 500)] })
     s.fld Reg.DROOP_CFG 7 0 + 1 ≤ ((spGet (fun _ => []) s.pwr.droops 3).filter (fun e => decide (s.now < e + 1000000)) ++ [s.now]).length ∧
       (spGet (fun _ => none) s.pwr.droopAt 3 = some 500 ∧ s.now < 500 + 1000000)) ∧
    ((spGet (fun _ => []) dev.pwr.droops 3).filter (fun e => decide (dev.now < e + 1000000)) ++ [dev.now]).length < max 1 (dev.fld Reg.DROOP_CFG 7 0) ∧
    ((dev.setFld Reg.PWR_ACT 13 12 1).fld Reg.PWR_ACT 13 12 ≠ (dev.setFld Reg.PWR_ACT 13 12 1).levelWanted ∧ dev.pwr.stepAt = none) ∧
    (∃ k, (power 2 (fun p => { p with stepAt := some 499951 })).pwr.stepAt = some k ∧ dev.now < k + 50) ∧
    (dev.liveStreams = [] ∧ ∀ x < 240, dev.rd (Reg.LOAD0 x) = 0 ∧ dev.rd (Reg.LOAD12 x) = 0 ∧
      max 100 (min 1000 ((dev.tileFloor [] x + 24) / 25 * 25)) + 25 ≤ dev.capMhz x ∧ dev.capMhz x ≤ 1000) ∧
    (105 ≤ (105#16).toInt ∧ (104#16).toInt < 105 ∧ 2500 < 2501) ∧ 1 ≤ (power 2 (fun p => { p with above := 1 })).pwr.above := by
  refine ⟨?_, ?_, ?_, ?_, ?_, ?_, ?_, ?_, ?_, ?_, ?_, ⟨499951, by decide +kernel⟩, ?_, ?_, ?_⟩
  all_goals and_intros
  all_goals decide +kernel

/-- Device time and chip id, TIME_STATUS.ARM with TIME_SET, and the last edge of SYNC. -/
def synced (time chip : Nat) (edge : Option Nat) (streak : Nat) : State :=
  { dev with time := BitVec.ofNat 64 time, chipId := BitVec.ofNat 4 chip, sync := { dev.sync with edgeAt := edge, streak := streak } }
def armed (s : State) : State := cw (cw (s.setBit Reg.TIME_STATUS 3 true) Reg.TIME_SET_LO 0x1234) Reg.TIME_SET_HI 5

/-- What power-up finds. -/
def powerUp (control hostBus : Bool) : PowerUpIn :=
  { chipId := 5, syncBus := true, mon := 0x55, lifeRow := false, fuseRow := false, control := control, hostBus := hostBus, slices := [(3, 5)],
    oscs := [(7, false)], cells := [],
    keyStore := false, blocks := [], ports := [] }

theorem test_SyncAndPowerUp_met :
    ((synced 2000000 0 none 0).now % 1000000 = 0 ∧ (synced 2000001 0 none 0).now % 1000000 ≠ 0 ∧ (synced 2000000 5 none 0).chipId ≠ 0 ∧
      (synced 2000000 0 none 0).now ≠ 0 ∧ (synced 0 0 none 0).now = 0 ∧ (synced 2000000 0 none 0).syncPin = false ∧
      (synced 2000000 0 none 0).syncDrive.syncPin = true ∧
      (armed (synced 2000000 0 none 0)).bit Reg.TIME_STATUS 3 = true ∧ dev.bit Reg.TIME_STATUS 3 = false) ∧
    (¬(dev.boot.low = true ∨ dev.boot.safe = true) ∧ State.reset.boot.low = true) ∧
    ((50 : Int) * 1000 + 0 ≤ 50000 ∧ 50000 < (50 : Int) * 1000 + 1 ∧ (synced 2000050 5 none 0).now % 1000000 = 50 ∧
      (synced 1999950 5 (some 1000000) 1).now % 1000000 = 999950) ∧
    (1000000 + 1000050 < (synced 2000051 5 (some 1000000) 1).now ∧ (synced 2000050 5 (some 1000000) 1).now ≤ 1000000 + 1000050) ∧
    dev.unitUp 15 ∧ early.ready = false ∧ early.keys.halted = false ∧ dev.nvUnderWay = [] ∧
    ((powerUp true false).control = true ∧ (powerUp false true).hostBus = true ∧ (powerUp false false).control = false ∧ (powerUp false false).hostBus = false) := by
  unfold State.unitUp; decide +kernel

/-- The management core runs and a mailbox command is alone in its queue. -/
def mail (code argument : Nat) (page : List Byte) : MailCmd := { word := BitVec.ofNat 32 (code + 5 * 2 ^ 10 + argument * 2 ^ 16), page := page }
def inTurn (s : State) (c : MailCmd) : State := { cw s Reg.MB_STATUS 1 with mgmt := { s.mgmt with queue := [c] } }

/-- An image's envelope, and a load. -/
def envelope (enc len : Nat) (tag : Byte) : List Byte :=
  toBytes 4 0x314E4841 ++ toBytes 2 1 ++ toBytes 2 0x77 ++ toBytes 1 enc ++ List.replicate 3 0 ++ toBytes 4 len ++ List.replicate 12 3 ++ List.replicate 4 0 ++
    List.replicate 60 2 ++ List.replicate 4 0 ++ List.replicate 16 tag ++ List.replicate 16 0
def loadOf (enc : Bool) (n : Nat) (ended : Bool) (tag : Byte) : Load :=
  { envelope := envelope enc.toNat 64 tag, key := if enc then some (key32 4) else none, body := List.replicate n 6, rest := [], sect := none,
    ended := ended, held := [], chunks := 2 }
def loading (l : Load) (s : State) : State := { s with mgmt := { s.mgmt with load := some l } }
def farRow : Nat := (mkAddr 1 1 3 0x400).toNat

theorem test_MailboxCommands_met :
    (∀ p ∈ [(0x01, 0), (0x02, 0), (0x03, 0), (0x04, 8), (0x04, 24), (0x04, 16), (0x10, 0), (0x11, 0), (0x12, 0), (0x13, 0), (0x30, 0x878), (0x30, 0x880), (0x31, 0)],
      (inTurn dev (mail p.1 p.2 [])).ownTurn (mail p.1 p.2 []) p.1) ∧ dev.corePending = false ∧ dev.mgmt.job = none ∧
    ({ dev with fab := { dev.fab with waiting := [{ req 2 0x100 2 with srcUnit := 12, owner := 0 }] } }).corePending = true ∧
    dev.coreWaits 2 (BitVec.ofNat 40 (natAt [] 0 5)) = false ∧ dev.nv.found = NvVerify.clean ∧ dev.nv.ro .log = false ∧
    (dev.nv.onRow 1792 (fun r => { r with readOnly := true })).ro .log = true ∧
    ((0#8).toNat = dev.epochEntry 1 3 ∧ (1#8).toNat ≠ dev.epochEntry 1 3 ∧ (cw dev (Reg.ROUTE 1) (2 ^ 21 + 8)).issueError (BitVec.ofNat 40 farRow) = none ∧
      [List.replicate 64 (5 : Byte)].length = natAt (toBytes 8 farRow ++ toBytes 4 64) 8 4 / 64) ∧
    (dev.mgmt.queue = [] ∧ dev.mgmt.run = none ∧ (mail 0x04 8 []).arg / 8 = 1 ∧ (mail 0x04 24 []).arg / 8 = 3 ∧ (mail 0x04 16 []).arg / 8 = 2 ∧
      dev.nv.ro .journal = false ∧ ({ dev with nv := dev.nv.onRow 2050 (fun r => { r with readOnly := true }) }).nv.ro .journal = true) ∧
    ((keyed lcService id).lcState = lcService ∧ (mail 0x30 0x880 []).arg / 8 % 512 = 272 ∧ (mail 0x30 0x878 []).arg / 8 % 512 = 271) ∧
    (envelopeOk ((envelope 0 64 5).take 128) = true ∧ envelopeOk ((envelope 1 64 5).take 128) = true ∧ envelopeOk (([] : List Byte).take 128) = false ∧
      natAt (envelope 0 64 5) 8 1 ≠ 1 ∧ natAt (envelope 1 64 5) 8 1 = 1 ∧ (keyed lcProvision id).lcState ≠ lcScrapped ∧
        (keyed lcService id).deriveEn = false ∧ dev.mgmt.load = none) ∧
    (let page := toBytes 8 farRow ++ toBytes 4 64
     64 ≤ natAt page 8 4 ∧ natAt page 8 4 % 64 = 0 ∧ natAt (loadOf false 0 true 5).envelope 12 4 = (loadOf false 0 true 5).body.length + natAt page 8 4 ∧
       Addr.space (BitVec.ofNat 40 (natAt page 0 5)) = 1 ∧ Addr.chip (BitVec.ofNat 40 (natAt page 0 5)) ≠ dev.chipId.toNat) ∧
    ((loading (loadOf false 64 true 5) dev).mgmt.load = some (loadOf false 64 true 5) ∧ dev.mgmt.ranges = [] ∧
      (loadOf false 64 true 5).body.length = natAt (loadOf false 64 true 5).envelope 12 4 ∧
        (loadOf false 63 true 5).body.length ≠ natAt (loadOf false 63 true 5).envelope 12 4) ∧
    (dev.fld Reg.MB_STATUS 1 0 = 0 ∧ (cw dev Reg.MB_STATUS 2).fld Reg.MB_STATUS 1 0 ≠ 0) ∧
    ((cw dev Reg.MGMT_LOAD 0x10000).bit Reg.MGMT_LOAD 16 = true ∧ 400000 + 100000 ≤ dev.now ∧ dev.now < 400001 + 100000) := by
  unfold State.ownTurn; and_intros <;> decide +kernel

/-- Of two tags at most one is right. -/
theorem test_MailboxCommands_tag : ∃ t ∈ [0#8, 1#8], let l := loadOf true 64 true t
    gcmTag (key32 4) ((l.envelope.drop 16).take 12) (l.envelope.take 16) l.body ≠ (l.envelope.drop 96).take 16 := by
  by_cases h : gcmTag (key32 4) (((loadOf true 64 true 0).envelope.drop 16).take 12) ((loadOf true 64 true 0).envelope.take 16) (loadOf true 64 true 0).body =
      ((loadOf true 64 true 0).envelope.drop 96).take 16
  · refine ⟨1, by simp, ?_⟩
    intro l
    have e : gcmTag (key32 4) ((l.envelope.drop 16).take 12) (l.envelope.take 16) l.body =
        gcmTag (key32 4) (((loadOf true 64 true 0).envelope.drop 16).take 12) ((loadOf true 64 true 0).envelope.take 16) (loadOf true 64 true 0).body := by
      congr 1
    rw [e, h]; decide +kernel
  · exact ⟨0, by simp, h⟩

/-- An enrollment row of speaker 0x55, and commands about it; its place is on another chip. -/
def enrollRow (seq valid : Nat) : List Byte := toBytes 4 0x55 ++ toBytes 4 seq ++ toBytes 4 valid ++ List.replicate 1012 7
def enrolling (c : MailCmd) : State := inTurn (keyed lcProvision id) c

/-- A record that speaker 0x55 has in ENROLL, too short to open. -/
def shortRecord : State :=
  let h := [0xA5#8, 1] ++ toBytes 2 16 ++ toBytes 4 1 ++ toBytes 4 0xFFFFFFFF
  let bs := h ++ toBytes 4 (crc32 h).toNat ++ recBytes 0x20 0x55 1 0 []
  { keyed lcProvision id with nv := { dev.nv with die := (bs.zipIdx (4096 * 256)).filterMap (fun p => if p.1 = 0xFF then none else some (p.2, p.1)) } }

/-- The lines of a row, and a command whose writes are answered. -/
def rowLines (row : List Byte) : List (List Byte) := (List.range 16).map (fun i => (row.drop (64 * i)).take 64)
def written (c : MailCmd) : State :=
  { cw dev Reg.MB_STATUS 1 with mgmt := { dev.mgmt with job := some { cmd := c, todo := [], anyEpoch := false, prio := 1, waits := false, code := 4, status := 0, data := 9 } } }

theorem test_EnrollmentRecords_met :
    ((rowLines (enrollRow 2 1)).length = 16 ∧ (∀ x ∈ rowLines (enrollRow 2 1), x.length = 64) ∧ (rowLines (enrollRow 2 1)).flatten = enrollRow 2 1 ∧
      (written (mail 0x20 0 [])).mgmt.queue = [] ∧ (written (mail 0x20 0 [])).coreTakes = true ∧ (written (mail 0x20 0 [])).mgmt.replies = [] ∧
      dev.nv.found = NvVerify.clean ∧ ((keyed lcProvision id).nv.append .enroll 0x20 0x55 0 (List.replicate 1024 3)).2 = .ok) ∧
    (enrollRow 2 1).length = 1024 ∧ (∀ k ∈ [0x20, 0x21, 0x22, 0x23, 0x24], (enrolling (mail k 0 [])).ownTurn (mail k 0 []) k) ∧
    ((keyed lcProvision id).deriveEn = true ∧ (keyed lcBlank id).deriveEn = false ∧ (keyed lcProvision id).entropyOk = true ∧ (keyed lcProvision id).enrollProtected = false ∧
      (cw (keyed lcProvision id) Reg.NV_PROTECT 3).enrollProtected = true ∧ (keyed lcProvision id).keys.enroll = some (slot 5)) ∧
    ((keyed lcProvision id).rowAddr (BitVec.ofNat 40 farRow) = true ∧ Addr.chip (BitVec.ofNat 40 farRow) ≠ dev.chipId.toNat ∧
      (keyed lcProvision id).rowAddr (BitVec.ofNat 40 (farRow + 4)) = false ∧ (enrolling (mail 0x20 0 [])).issueError (mkAddr 0 1 3 0x400) = none ∧
      (cw (enrolling (mail 0x21 0 [])) (Reg.ROUTE 1) (2 ^ 21 + 8)).issueError (BitVec.ofNat 40 farRow) = none) ∧
    (sealable (enrollRow 2 1) = true ∧ sealable (enrollRow 3 1) = false ∧ sealable (enrollRow 2 0) = false) ∧
    (keyed lcProvision id).nv.resident 0x55 = none ∧ (keyed lcProvision id).nv.residents < 4096 ∧
    (shortRecord.nv.resident 0x55).any (fun r => (r.drop 1008).isEmpty) = true ∧
    (natAt (toBytes 8 farRow ++ toBytes 2 2) 8 2 = 2 ∧ natAt (toBytes 8 farRow ++ toBytes 2 4) 8 2 = 4) ∧
    ((keyed lcProvision id).exportKey 2 = some (siteKey (slot 4)) ∧ (keyed lcProvision id).exportKey 3 = some (deviceKey (slot 5)) ∧
      (keyed lcBlank id).exportKey 2 = none) := by
  unfold State.ownTurn; refine ⟨?_, ?_, ?_, ?_, ?_, ?_, ?_, ?_, ?_, ?_, rfl, rfl, ?_⟩ <;> decide +kernel

/-- What SEAL makes of the row opens under its key, so a record with a body exists for UNSEAL and RESTORE. -/
theorem test_EnrollmentRecords_opens :
    openRecord (key32 5) (sealRecord (key32 5) (List.replicate 12 3) (enrollRow 2 1) 1 3 9) = some (((enrollRow 2 1).drop 8).take 16 ++ (enrollRow 2 1).drop 64) ∧
    natAt (sealRecord (key32 5) (List.replicate 12 3) (enrollRow 2 1) 2 3 9) 4 2 = 3 ∧ natAt (sealRecord (key32 5) (List.replicate 12 3) (enrollRow 2 1) 2 3 9) 6 2 = 2 :=
  ⟨openRecord_sealRecord _ _ _ _ _ _ (by decide +kernel) (by decide +kernel) (by decide +kernel), by decide +kernel, by decide +kernel⟩

theorem test_TestAccessPort_met :
    State.reset.boot.low = true ∧ dev.boot.low = false ∧ (List.replicate 254 true).length = 254 ∧ (4#8).toNat < 5 ∧ 5 ≤ (5#8).toNat ∧
      (0x7F#8).toNat < 0x80 ∧ 0x80 ≤ (0x80#8).toNat ∧ (0xFE#8).toNat ≠ 0xFF ∧
    (keyed lcField id).lcState ≠ lcBlank ∧ (keyed lcField id).lcState ≠ lcService ∧ (keyed lcService id).lcState = lcService ∧
    lcDecode State.reset.keys.fuses State.reset.keys.lcFail = lcBlank ∧ boundaryCells[0]? = some ⟨.pdmClkL 0, .data⟩ ∧ dev.devicePin (.pdmClkL 0) ≠ .signal ∧
    boundaryCells[1]? = some ⟨.pdmClkL 0, .enable⟩ ∧ boundaryCells[253]? = some ⟨.gpio 7, .input⟩ := by decide +kernel

/-- R686: 98 pins are inputs, 24 outputs and 36 bidirectional. -/
theorem test_boundaryCells :
    (topPins ++ bottomPins).countP (fun p => p.cells == [.input]) = 98 ∧ (topPins ++ bottomPins).countP (fun p => p.cells == [.data, .enable]) = 24 ∧
    (topPins ++ bottomPins).countP (fun p => p.cells == [.input, .data, .enable]) = 36 ∧ (topPins ++ bottomPins).length = 158 := by decide +kernel

theorem test_StepRunsFront_met : State.reset.pending = [] := rfl

theorem test_StepKeepsSound_met : State.reset.sound ∧ dev.sound := by
  unfold State.sound; decide +kernel

/-! ### Ill-formed commands -/

/-- A request with n payload bytes of a unit, a credit and a notice. -/
def reqOf (n unit : Nat) : ReqFlit := { req 2 0x100 2 with payload := List.replicate n 0, srcUnit := BitVec.ofNat 4 unit }
def creditOf (unit : Nat) : CreditFlit := { credit with issuer := { issuer1 with unit := BitVec.ofNat 4 unit } }
def arrived (n : Nat) : Instr := .noticeSend (some { tile := 3, bytes := List.replicate n 0 })

theorem test_wellFormed_packets :
    (Instr.put (reqOf 256 12)).wellFormed = true ∧ (Instr.put (reqOf 257 12)).wellFormed = false ∧ (Instr.put (reqOf 256 13)).wellFormed = false ∧
    (Instr.put (reqOf 256 7)).wellFormed = false ∧ (Instr.responseArrival { resp with payload := List.replicate 1025 0 }).wellFormed = false ∧
    (Instr.responseArrival { resp with dstUnit := 7 }).wellFormed = false ∧ (Instr.creditArrival (creditOf 12)).wellFormed = true ∧
    (Instr.creditArrival (creditOf 13)).wellFormed = false ∧ (Instr.creditSend (creditOf 7).issuer 3).wellFormed = false ∧
    (arrived 16).wellFormed = true ∧ (arrived 15).wellFormed = false := by decide +kernel

theorem test_wellFormed_registers :
    (Instr.rcCounterRead { unit := .hostBus, off := 0xFC }).wellFormed = true ∧ (Instr.rcCounterRead { unit := .hostBus, off := 0x100 }).wellFormed = false ∧
    (Instr.rcCounterRead { unit := .tile 3, off := 2 }).wellFormed = false ∧ (Instr.rcCounterRead { unit := .block 4, off := 2 ^ 26 }).wellFormed = false ∧
    (Instr.registerWrite .host { unit := .tile 3, off := 2 ^ 26 } 15 0).wellFormed = false := by decide +kernel

theorem test_wellFormed_operands :
    (Instr.contractCmdActivate 5 { alone with chips := 0 }).wellFormed = false ∧ (Instr.contractCmdCheck 5 { alone with chips := 17 }).wellFormed = false ∧
    (Instr.contractCmdCheck 5 { alone with chips := 16 }).wellFormed = true ∧ (Instr.linkFrameReceive 2 (2 ^ 33 * 22) (List.replicate 22 (.body, 5))).wellFormed = false ∧
    (Instr.linkFrameReceive 2 (2 ^ 33 * 20) (List.replicate 21 (.body, 5))).wellFormed = false ∧ (Instr.linkFrameReceive 2 (2 ^ 38 * 6) []).wellFormed = false ∧
    (Instr.linkFrameReceive 2 (2 ^ 33) [(.head (.req (reqOf 257 1)), 5)]).wellFormed = false ∧
    (Instr.linkFrameReceive 2 (2 ^ 33) [(.head (.credit (creditOf 13)), 5)]).wellFormed = false ∧
    (Instr.linkFrameReceive 2 (2 ^ 33 * 21 + 2 ^ 38 * 5) (List.replicate 21 (.body, 5))).wellFormed = true ∧
    (Instr.nvCmdRead 257).wellFormed = false ∧ (Instr.nvCmdRead 256).wellFormed = true ∧ (Instr.seal 5 (some { epoch := 0, lines := [none, some []] })).wellFormed = false ∧
    (Instr.limiterUpdate 65536 0).wellFormed = false ∧ (Instr.extest (List.replicate 253 true) (List.replicate 254 true)).wellFormed = false ∧
    (Instr.samplePreload (List.replicate 254 true) []).wellFormed = false ∧ (Instr.privateScan 0x7F []).wellFormed = false ∧ (Instr.privateScan 0xFF []).wellFormed = false ∧
    (Instr.privateScan 0x80 []).wellFormed = true := by decide +kernel

/-- The table gives no row any bits, so no word spells a command and withFetchWord changes nothing. -/
theorem test_decodeTableWord : ∀ n w s, decodeTableWord n w = none ∧ State.withFetchWord s n w = s := fun _ _ _ => ⟨rfl, rfl⟩

/-! ### Results worked out from the spec -/

/-- A register of the state a command gives. -/
def after (c : Instr) (s : State) (f : State → Nat) : Option Nat :=
  match exec c s with
  | .next t => some (f t)
  | _ => none
def sreg (n : Nat) (t : State) : Nat := ((t.ltile 3).rd (Reg.S_REG 1 n)).toNat

/-- s4 = 33 and s1 = -2: a sum wraps, a product keeps its low half, a right shift of -2 by s0 = 5 is -1, -2 is below 5 only signed, and LIH keeps bits
[15:0]. -/
theorem test_results :
    after (.saluAdd 3 1 (ui 2 4 1 0)) th (sreg 2) = some 31 ∧ after (.mul 3 1 (ui 2 4 1 0)) th (sreg 2) = some (2 ^ 32 - 66) ∧
    after (.sra 3 1 (ui 2 1 0 0)) th (sreg 2) = some (2 ^ 32 - 1) ∧ after (.lih 3 1 (ui 4 63 63 0x8001)) th (sreg 4) = some 0x80010021 ∧
    after (.brlt 3 1 (ui 0 1 0 20)) th (fun t => (t.ltile 3).pc 1) = some 20 ∧ after (.brltu 3 1 (ui 0 1 0 20)) th (fun t => (t.ltile 3).pc 1) = some 11 ∧
    after (.add { req 3 0x100 2 with arg0 := 0xFFFFFFFF }) target (fun t => (t.sramWord 3 0x104).toNat) = some 0x1234567 := by decide +kernel

/-- Bits [95:0] of a control flit, field by field from Table 15.2: FSEQ 0xABC, ACK 0x123, NAK, two data flits of VC 5, SUB_LANE 4 asked for, and the
credits 1 to 6 of VC0 to VC5. -/
theorem test_controlFlit :
    ctlBits { fseq := 0xABC, ack := 0x123, nak := true, vc := 5, subLane := 4, subReq := true, subAck := false, credits := [1, 2, 3, 4, 5, 6], data := [.body, .body] } =
      0xD2#96 + 0xABC#96 <<< 8 + 0x123#96 <<< 20 + 1#96 <<< 32 + 2#96 <<< 33 + 5#96 <<< 38 + 4#96 <<< 41 + 1#96 <<< 44 + 1#96 <<< 48 + 2#96 <<< 56 + 3#96 <<< 64 +
        4#96 <<< 72 + 5#96 <<< 80 + 6#96 <<< 88 := by decide +kernel

end Sys2Proof.Tests
end

/-! PROOF. The SALU class: one lemma for what an instruction with a scalar result leaves, then the values of Table 4.5 and R697. -/

namespace Sys2Proof.Machine

/-- A scalar operand of code 0 to 15 is the word of its register (R113). -/
theorem State.sget_eq_rd (s : State) (l i : Nat) (c : BitVec 6) (h : c.toNat < 16) :
    s.sget l i c = (s.ltile l).rd (Reg.S_REG i c.toNat) := by
  unfold State.sget Tile.sget
  exact if_pos h

/-- An instruction whose whole effect is to write v to s[DST] and to go on: the thread goes on, s[DST] holds v, and nothing else changes but the words
of every issue. -/
theorem State.issueInsn_sput {s : State} {l i : Nat} {o : UOp} {u : UInsn} {v : Word} (hi : s.mayIssue l i (o.uses u) u) (hn : s.hasNext l i)
    (he : o.eff l i u s = (s.sput l i u.dst v, .next)) :
    s.wentOn (s.issueInsn l i o u) l i ∧
    (u.dst.toNat < 16 → ((s.issueInsn l i o u).ltile l).rd (Reg.S_REG i u.dst.toNat) = v) ∧
    s.tileOnly (s.issueInsn l i o u) l i (scalarAt i u.dst.toNat ++ issueAt i) := by
  obtain ⟨hrun, hok, hfree⟩ := hi
  obtain ⟨heff, hval⟩ := s.sput_effect l i u.dst v
  have hthr : ((s.sput l i u.dst v).ltile l).thread i = (s.ltile l).thread i := by
    unfold State.sput
    rw [State.ltile_onL, Tile.thread_sput]
  obtain ⟨hwent, honly, hwords, -⟩ :=
    State.settle_next_frame heff (o.word u) (status_notin_scalarAt i u.dst.toNat) hrun hn (by rw [hthr])
  rw [State.issueInsn_ready s l i o u hrun hok hfree, he]
  exact ⟨hwent, fun hd => (hwords _ (scalar_notin_issueAt i _ hd)).trans (hval hd), honly⟩

/-- Each operation of scalarOps is issued as a scalar operation of two operands, under its OP of Table 3.6. -/
theorem exec_scalarOps : ∀ p ∈ scalarOps, ∃ op, ∀ (l : Fin 256) (i : Fin 4) (u : UInsn) (s : State),
    exec (p.1 l i u) s = .next (s.issueInsn l i (salu2 op p.2) u) := by
  simp only [scalarOps, List.forall_mem_cons, List.not_mem_nil, false_implies, implies_true, and_true]
  exact ⟨⟨0, fun _ _ _ _ => rfl⟩, ⟨1, fun _ _ _ _ => rfl⟩, ⟨2, fun _ _ _ _ => rfl⟩, ⟨3, fun _ _ _ _ => rfl⟩, ⟨4, fun _ _ _ _ => rfl⟩,
    ⟨5, fun _ _ _ _ => rfl⟩, ⟨6, fun _ _ _ _ => rfl⟩, ⟨7, fun _ _ _ _ => rfl⟩, ⟨8, fun _ _ _ _ => rfl⟩, ⟨9, fun _ _ _ _ => rfl⟩,
    ⟨10, fun _ _ _ _ => rfl⟩, ⟨11, fun _ _ _ _ => rfl⟩, ⟨12, fun _ _ _ _ => rfl⟩, ⟨13, fun _ _ _ _ => rfl⟩, ⟨14, fun _ _ _ _ => rfl⟩,
    ⟨15, fun _ _ _ _ => rfl⟩, ⟨16, fun _ _ _ _ => rfl⟩⟩

/-- LI writes the low 32 bits of the immediate (R697). -/
theorem wd_uimm_low (u : UInsn) : wd (uimm u 31 0) = BitVec.ofNat 32 u.imm.toNat :=
  BitVec.eq_of_toNat_eq (by simp [uimm])

/-- The scalar that LIH leaves: IMM[15:0] in bits [31:16], bits [15:0] of the one before (R697). -/
theorem wfld_lih (w : Word) (u : UInsn) :
    wfld (wSetFld w 31 16 (uimm u 15 0)) 31 16 = u.imm.toNat % 2 ^ 16 ∧ wfld (wSetFld w 31 16 (uimm u 15 0)) 15 0 = wfld w 15 0 := by
  constructor
  · rw [wfld_wSetFld_same _ _ _ _ (by decide) (by decide)]
    exact Nat.mod_mod _ _
  · exact wfld_wSetFld_ne _ _ _ _ _ _ (by decide) (by decide)

/-- Settles O1: each instruction's effect is one scalar result, so State.issueInsn_sput gives the thread, the value and the frame; for LIH the value is
then read field by field. -/
theorem scalarInstructions : Obligations.ScalarInstructions := by
  unfold Obligations.ScalarInstructions
  refine ⟨fun l i u s p hp hi hn => ?_, fun l i u s hi hn => ⟨?_, ?_⟩⟩
  · obtain ⟨op, hexec⟩ := exec_scalarOps p hp
    exact ⟨_, hexec l i u s, State.issueInsn_sput (o := salu2 op p.2) hi hn rfl⟩
  · rw [← wd_uimm_low]
    exact ⟨_, rfl, State.issueInsn_sput (o := uLi) hi hn rfl⟩
  · obtain ⟨hwent, hval, honly⟩ := State.issueInsn_sput (o := uLih) hi hn rfl
    refine ⟨_, rfl, hwent, fun hd => ?_, honly⟩
    rw [hval hd, State.sget_eq_rd _ _ _ _ hd]
    exact wfld_lih _ _

end Sys2Proof.Machine

/-! PROOF. The STAT class (R134, R176, R199): what an instruction that goes on leaves, what a probe's restart leaves, the words of the float flags, and
from these the statement. -/

namespace Sys2Proof.Machine

/-! ### Instructions that go on -/

/-- Two effects on the same tile, one after the other. -/
theorem TileEffect.trans {s s' s'' : State} {l i : Nat} {os ps : List Nat} (h : TileEffect s s' l i os) (k : TileEffect s' s'' l i ps) :
    TileEffect s s'' l i (ps ++ os) := by
  refine ⟨?_, fun q hq => ?_, fun o ho => ?_, h.kept.trans k.kept⟩
  · rw [k.rest, h.rest]
  · rw [k.other q (by rwa [h.phys]), h.other q hq]
  · rw [List.mem_append, not_or] at ho
    rw [k.words o ho.1, h.words o ho.2]

/-- An instruction that may issue and whose effect goes on: the thread at the next word, the effect's words and ISAT, and nothing else but the words of
every issue. -/
theorem State.issueInsn_next {s s' : State} {l i : Nat} {o : UOp} {u : UInsn} {os : List Nat} (hi : s.mayIssue l i (o.uses u) u) (hn : s.hasNext l i)
    (he : o.eff l i u s = (s', .next)) (h : TileEffect s s' l i os) (hst : Reg.T_STATUS i ∉ os)
    (ht : (s'.ltile l).thread i = { (s.ltile l).thread i with isat := ((s'.ltile l).thread i).isat }) :
    s.wentOn (s.issueInsn l i o u) l i ∧ s.tileOnly (s.issueInsn l i o u) l i (os ++ issueAt i) ∧
    (∀ k, k ∉ issueAt i → ((s.issueInsn l i o u).ltile l).rd k = (s'.ltile l).rd k) ∧
    ((s.issueInsn l i o u).ltile l).thread i = (s'.ltile l).thread i := by
  obtain ⟨hrun, hok, hfree⟩ := hi
  rw [State.issueInsn_ready s l i o u hrun hok hfree, he]
  exact State.settle_next_frame h (o.word u) hst hrun hn ht

/-- An instruction that may issue and whose effect faults: the thread is in FAULT with the code. -/
theorem State.issueInsn_fault {s s' : State} {l i : Nat} {o : UOp} {u : UInsn} {c : Nat} (hi : s.mayIssue l i (o.uses u) u)
    (he : o.eff l i u s = (s', .fault c)) : s.issueInsn l i o u = s'.faultThread l i c := by
  obtain ⟨hrun, hok, hfree⟩ := hi
  rw [State.issueInsn_ready s l i o u hrun hok hfree, he]
  rfl

theorem State.thread_sput (s : State) (l i : Nat) (c : BitVec 6) (v : Word) (j : Nat) :
    ((s.sput l i c v).ltile l).thread j = (s.ltile l).thread j := by
  unfold State.sput
  rw [State.ltile_onL, Tile.thread_sput]

/-! ### Probes (R134) -/

/-- The words of probe p that a restart writes. -/
def probeAt (p : Nat) : List Nat := [Reg.MA_MAX p, Reg.MA_SAT p, Reg.MA_STAMP p]

/-- Probe p of a tile has restarted at a device time. -/
def Tile.restarted (t : Tile) (p : Nat) (now : Word) : Prop :=
  t.rd (Reg.MA_MAX p) = 0 ∧ t.rd (Reg.MA_SAT p) = 0 ∧ t.rd (Reg.MA_STAMP p) = now

theorem Tile.restarted_of_rd {t t' : Tile} {p : Nat} {now : Word} (h : ∀ o ∈ probeAt p, t'.rd o = t.rd o) (hr : t.restarted p now) :
    t'.restarted p now := by
  obtain ⟨hmax, hsat, hstamp⟩ := hr
  exact ⟨(h _ (by simp [probeAt])).trans hmax, (h _ (by simp [probeAt])).trans hsat, (h _ (by simp [probeAt])).trans hstamp⟩

/-- The probes' words lie below the counters and the threads' words. -/
theorem probeAt_lt {p o : Nat} (hp : p < 16) (h : o ∈ probeAt p) : o < 0x1000 := by
  simp only [probeAt, List.mem_cons, List.not_mem_nil, or_false, Reg.MA_MAX, Reg.MA_SAT, Reg.MA_STAMP] at h
  omega

theorem issueAt_ge {i o : Nat} (h : o ∈ issueAt i) : 0x1000 ≤ o := by
  simp only [issueAt, List.mem_cons, List.not_mem_nil, or_false, Reg.T_STATUS, Reg.T_ISSUED, Reg.CYCLES_ALL, Reg.CYCLES_C0] at h
  omega

theorem scalarAt_ge {i c o : Nat} (h : o ∈ scalarAt i c) : 0x1000 ≤ o := by
  unfold scalarAt at h
  split at h
  · rw [List.mem_singleton] at h
    simp only [h, Reg.S_REG]; omega
  · cases h

theorem probe_notin_issueAt {p o : Nat} (i : Nat) (hp : p < 16) (h : o ∈ probeAt p) : o ∉ issueAt i :=
  fun hm => (issueAt_ge hm).not_gt (probeAt_lt hp h)

theorem probe_notin_scalarAt {p o : Nat} (i c : Nat) (hp : p < 16) (h : o ∈ probeAt p) : o ∉ scalarAt i c :=
  fun hm => (scalarAt_ge hm).not_gt (probeAt_lt hp h)

theorem status_notin_probeAt {p : Nat} (i : Nat) (hp : p < 16) : Reg.T_STATUS i ∉ probeAt p :=
  fun hm => probe_notin_issueAt i hp hm (by simp [issueAt])

theorem State.restarted_probeRestart (s : State) (l p : Nat) (now : Word) : ((s.onL l (·.probeRestart p now)).ltile l).restarted p now := by
  rw [State.ltile_onL]
  refine ⟨?_, ?_, Tile.rd_wr_same _ _ _⟩ <;> simp [Tile.probeRestart, Tile.rd_wr]

@[simp] theorem Tile.thread_probeRestart (t : Tile) (p : Nat) (now : Word) (j : Nat) : (t.probeRestart p now).thread j = t.thread j := rfl

/-- A restart writes the probe's words and nothing else. -/
theorem State.probeRestart_effect (s : State) (l i p : Nat) (now : Word) : TileEffect s (s.onL l (·.probeRestart p now)) l i (probeAt p) := by
  refine (TileEffect.refl s l i _).onL _ (fun o ho => ?_) ⟨rfl, fun _ _ => rfl⟩
  simp only [probeAt, List.mem_cons, List.not_mem_nil, or_false, not_or] at ho
  obtain ⟨hmax, hsat, hstamp⟩ := ho
  rw [Tile.probeRestart, Tile.rd_wr_ne _ _ _ _ hstamp, Tile.rd_wr_ne _ _ _ _ hsat, Tile.rd_wr_ne _ _ _ _ hmax]

/-- A scalar result after a restart leaves the probe as it restarted. -/
theorem State.restarted_sput {s : State} {l i p : Nat} (c : BitVec 6) (v : Word) {now : Word} (hp : p < 16) (h : (s.ltile l).restarted p now) :
    ((s.sput l i c v).ltile l).restarted p now :=
  Tile.restarted_of_rd (fun o ho => (s.sput_effect l i c v).1.words o (probe_notin_scalarAt i _ hp ho)) h

/-! ### Float flags and ISAT (R176, R199) -/

/-- Five flags and ISAT in one word, read field by field. -/
theorem wfld_flags (f : Nat) (b : Bool) (hf : f < 32) :
    wfld (wd (f + 32 * b.toNat)) 4 0 = f ∧ wbit (wd (f + 32 * b.toNat)) 5 = b ∧ wfld (wd (f + 32 * b.toNat)) 31 6 = 0 := by
  have hb : b.toNat < 2 := Bool.toNat_lt b
  have hw : (wd (f + 32 * b.toNat)).toNat = f + 32 * b.toNat := Nat.mod_eq_of_lt (by omega)
  refine ⟨?_, ?_, ?_⟩
  · simp only [wfld, hw]; omega
  · have hbit : (f + 32 * b.toNat) / 2 ^ 5 % 2 = b.toNat := by omega
    rw [wbit, BitVec.getLsbD, hw, Nat.testBit_eq_decide_div_mod_eq, hbit]
    cases b <;> rfl
  · simp only [wfld, hw]; omega

/-- Each bit of the float flags after a clear: those of IMM[4:0] go, the rest stay. -/
theorem wbit_clear (w : Word) (u : UInsn) (n : Nat) :
    wbit (w &&& ~~~ (wd (uimm u 4 0))) n = (wbit w n && !(decide (n < 5) && u.imm.getLsbD n)) := by
  have himm : (uimm u 4 0).testBit n = (decide (n < 5) && u.imm.getLsbD n) := Nat.testBit_mod_two_pow _ 5 n
  simp only [wbit, BitVec.getLsbD_and, BitVec.getLsbD_not, BitVec.getLsbD_ofNat, himm]
  by_cases h : n < 32
  · simp [h]
  · simp [BitVec.getLsbD_of_ge w n (by omega)]

theorem flags_notin_issueAt (i : Nat) : Reg.T_FLAGS i ∉ issueAt i := by
  simp only [issueAt, List.mem_cons, List.not_mem_nil, or_false, Reg.T_FLAGS, Reg.T_STATUS, Reg.T_ISSUED, Reg.CYCLES_ALL, Reg.CYCLES_C0]
  omega

/-- A clear of float flags and of ISAT by thread i writes T_FLAGS only. -/
theorem State.flagsClear_effect (s : State) (l i : Nat) (w : Tile → Word) (f : Thread → Thread) :
    TileEffect s (s.onL l (fun t => (t.wr (Reg.T_FLAGS i) (w t)).onThread i f)) l i [Reg.T_FLAGS i] := by
  refine (TileEffect.refl s l i _).onL _ (fun o ho => ?_) ((Tile.kept_wr _ _ _ _).trans (Tile.kept_onThread _ _ _))
  rw [Tile.rd_onThread, Tile.rd_wr_ne _ _ _ _ (List.ne_of_not_mem_cons ho)]

/-! ### The instructions -/

/-- MA_READ: the probe's maximum goes to s[DST] and the probe restarts. -/
theorem State.issueInsn_maRead {s : State} {l i : Nat} {u : UInsn} (hi : s.mayIssue l i { dst := .sc, a := .no, b := .no } u) (hn : s.hasNext l i) :
    s.wentOn (s.issueInsn l i uMaRead u) l i ∧ ((s.issueInsn l i uMaRead u).ltile l).restarted (u.imm.toNat % 16) s.now32 ∧
    (u.dst.toNat < 16 →
      ((s.issueInsn l i uMaRead u).ltile l).rd (Reg.S_REG i u.dst.toNat) = (s.ltile l).rd (Reg.MA_MAX (u.imm.toNat % 16))) ∧
    s.tileOnly (s.issueInsn l i uMaRead u) l i (scalarAt i u.dst.toNat ++ probeAt (u.imm.toNat % 16) ++ issueAt i) := by
  have hp : u.imm.toNat % 16 < 16 := Nat.mod_lt _ (by decide)
  set p := u.imm.toNat % 16
  set r := s.onL l (·.probeRestart p s.now32) with r_eq
  have he : uMaRead.eff l i u s = (r.sput l i u.dst ((s.ltile l).rd (Reg.MA_MAX p)), .next) := rfl
  obtain ⟨heff, hval⟩ := r.sput_effect l i u.dst ((s.ltile l).rd (Reg.MA_MAX p))
  have hst : Reg.T_STATUS i ∉ scalarAt i u.dst.toNat ++ probeAt p := by
    rw [List.mem_append, not_or]
    exact ⟨status_notin_scalarAt i _, status_notin_probeAt i hp⟩
  have hthr : ((r.sput l i u.dst ((s.ltile l).rd (Reg.MA_MAX p))).ltile l).thread i = (s.ltile l).thread i := by
    rw [State.thread_sput, r_eq, State.ltile_onL, Tile.thread_probeRestart]
  obtain ⟨hwent, honly, hwords, -⟩ :=
    State.issueInsn_next hi hn he ((s.probeRestart_effect l i p s.now32).trans heff) hst (by rw [hthr])
  have hrestarted := State.restarted_sput (i := i) u.dst ((s.ltile l).rd (Reg.MA_MAX p)) hp (s.restarted_probeRestart l p s.now32)
  exact ⟨hwent, Tile.restarted_of_rd (fun o ho => hwords o (probe_notin_issueAt i hp ho)) hrestarted,
    fun hd => (hwords _ (scalar_notin_issueAt i _ hd)).trans (hval hd), honly⟩

/-- MA_CLEAR: the probe restarts. -/
theorem State.issueInsn_maClear {s : State} {l i : Nat} {u : UInsn} (hi : s.mayIssue l i { dst := .no, a := .no, b := .no } u) (hn : s.hasNext l i) :
    s.wentOn (s.issueInsn l i uMaClear u) l i ∧ ((s.issueInsn l i uMaClear u).ltile l).restarted (u.imm.toNat % 16) s.now32 ∧
    s.tileOnly (s.issueInsn l i uMaClear u) l i (probeAt (u.imm.toNat % 16) ++ issueAt i) := by
  have hp : u.imm.toNat % 16 < 16 := Nat.mod_lt _ (by decide)
  obtain ⟨hwent, honly, hwords, -⟩ := State.issueInsn_next (o := uMaClear) hi hn rfl
    (s.probeRestart_effect l i (u.imm.toNat % 16) s.now32) (status_notin_probeAt i hp) (by rw [State.ltile_onL, Tile.thread_probeRestart])
  exact ⟨hwent, Tile.restarted_of_rd (fun o ho => hwords o (probe_notin_issueAt i hp ho)) (s.restarted_probeRestart l _ _), honly⟩

/-- FLAGS_READ: the float flags and ISAT go to s[DST]. -/
theorem State.issueInsn_flagsRead {s : State} {l i : Nat} {u : UInsn} (hi : s.mayIssue l i { dst := .sc, a := .no, b := .no } u) (hn : s.hasNext l i) :
    s.wentOn (s.issueInsn l i uFlagsRead u) l i ∧
    (u.dst.toNat < 16 →
      wfld (((s.issueInsn l i uFlagsRead u).ltile l).rd (Reg.S_REG i u.dst.toNat)) 4 0 = (s.ltile l).fld (Reg.T_FLAGS i) 4 0 ∧
      wbit (((s.issueInsn l i uFlagsRead u).ltile l).rd (Reg.S_REG i u.dst.toNat)) 5 = ((s.ltile l).thread i).isat ∧
      wfld (((s.issueInsn l i uFlagsRead u).ltile l).rd (Reg.S_REG i u.dst.toNat)) 31 6 = 0) ∧
    s.tileOnly (s.issueInsn l i uFlagsRead u) l i (scalarAt i u.dst.toNat ++ issueAt i) := by
  obtain ⟨hwent, hval, honly⟩ := State.issueInsn_sput (o := uFlagsRead) hi hn rfl
  refine ⟨hwent, fun hd => ?_, honly⟩
  rw [hval hd]
  exact wfld_flags _ _ (wfld_lt _ 4 0)

/-- FLAGS_CLEAR: the float flags and ISAT lose the bits of the immediate. -/
theorem State.issueInsn_flagsClear {s : State} {l i : Nat} {u : UInsn} (hi : s.mayIssue l i { dst := .no, a := .no, b := .no } u) (hn : s.hasNext l i) :
    s.wentOn (s.issueInsn l i uFlagsClear u) l i ∧
    ((s.issueInsn l i uFlagsClear u).ltile l).rd (Reg.T_FLAGS i) = (s.ltile l).rd (Reg.T_FLAGS i) &&& ~~~ (wd (uimm u 4 0)) ∧
    (((s.issueInsn l i uFlagsClear u).ltile l).thread i).isat = (((s.ltile l).thread i).isat && !u.imm.getLsbD 5) ∧
    s.tileOnly (s.issueInsn l i uFlagsClear u) l i (Reg.T_FLAGS i :: issueAt i) := by
  have hst : Reg.T_STATUS i ∉ [Reg.T_FLAGS i] := by
    simp only [List.mem_singleton, Reg.T_STATUS, Reg.T_FLAGS]; omega
  obtain ⟨hwent, honly, hwords, hthr⟩ := State.issueInsn_next (o := uFlagsClear) hi hn rfl (s.flagsClear_effect l i _ _) hst
    (by rw [State.ltile_onL, Tile.thread_onThread_same, Tile.thread_wr])
  refine ⟨hwent, ?_, ?_, honly⟩
  · rw [hwords _ (flags_notin_issueAt i), State.ltile_onL, Tile.rd_onThread, Tile.rd_wr_same]
  · rw [hthr, State.ltile_onL, Tile.thread_onThread_same, Tile.thread_wr]; rfl

/-- CNT_READ of a counter of Table 3.25: it goes to s[DST]. -/
theorem State.issueInsn_cntRead {s : State} {l i : Nat} {u : UInsn} (hi : s.mayIssue l i { dst := .sc, a := .no, b := .no } u) (hn : s.hasNext l i)
    (hc : u.imm.toNat % 32 ≤ 0x11) :
    s.wentOn (s.issueInsn l i uCntRead u) l i ∧
    (u.dst.toNat < 16 →
      ((s.issueInsn l i uCntRead u).ltile l).rd (Reg.S_REG i u.dst.toNat) = (s.ltile l).rd (0x1000 + 4 * (u.imm.toNat % 32))) ∧
    s.tileOnly (s.issueInsn l i uCntRead u) l i (scalarAt i u.dst.toNat ++ issueAt i) :=
  State.issueInsn_sput (o := uCntRead) hi hn (if_neg (not_lt.2 hc))

/-- CNT_READ beyond the counters faults ILLEGAL. -/
theorem State.issueInsn_cntRead_illegal {s : State} {l i : Nat} {u : UInsn} (hi : s.mayIssue l i { dst := .sc, a := .no, b := .no } u)
    (hc : 0x11 < u.imm.toNat % 32) : s.issueInsn l i uCntRead u = s.faultThread l i ftIllegal :=
  State.issueInsn_fault (o := uCntRead) hi (if_pos hc)

/-- Settles O10: one lemma per instruction above gives the thread, the values and the frame; the flags' bits are then read off the word. -/
theorem statInstructions : Obligations.StatInstructions := by
  unfold Obligations.StatInstructions
  intro l i u s hn
  refine ⟨fun hi => ⟨⟨_, rfl, State.issueInsn_maRead hi hn⟩, ⟨_, rfl, State.issueInsn_flagsRead hi hn⟩,
    fun hc => ⟨_, rfl, State.issueInsn_cntRead hi hn hc⟩, fun hc => ⟨_, rfl, ?_⟩⟩,
    fun hi => ⟨⟨_, rfl, State.issueInsn_maClear hi hn⟩, ⟨_, rfl, ?_⟩⟩⟩
  · obtain ⟨hstate, hcode, -⟩ := s.faultThread_tile l i ftIllegal (by decide)
    rw [State.issueInsn_cntRead_illegal hi hc]
    exact ⟨hstate, hcode⟩
  · obtain ⟨hwent, hflags, hisat, honly⟩ := State.issueInsn_flagsClear hi hn
    refine ⟨hwent, fun n => ?_, hisat, honly⟩
    rw [hflags]
    exact wbit_clear _ _ _

end Sys2Proof.Machine

/-! PROOF. Writes of EV_CFG and the end of the slot clear (R207 to R209, R226): the frame of a command on tile control space, the header lines that a
zeroing of whole SRAM lines leaves out, then the branches of the write. -/

namespace Sys2Proof.Machine

/-! ### Frames of a command on one tile -/

/-- A change of one tile that writes control words at the offsets os only. -/
theorem State.wordsOnly_onL (s : State) (l : Nat) {f : Tile → Tile} {os : List Nat} (hf : ∀ t : Tile, ∀ o, o ∉ os → (f t).rd o = t.rd o) :
    s.wordsOnly (s.onL l f) l os := by
  refine ⟨rfl, fun q hq => ?_, fun o ho => ?_⟩
  · rw [State.tile_onL, if_neg hq]
  · rw [State.ltile_onL, hf _ _ ho]

theorem State.wordsOnly_refl (s : State) (l : Nat) (os : List Nat) : s.wordsOnly s l os := ⟨rfl, fun _ _ => rfl, fun _ _ => rfl⟩

/-- A restart of the clock writes CLK_STATUS alone. -/
theorem Tile.rd_wake_ne (t : Tile) {o : Nat} (h : o ≠ Reg.CLK_STATUS) : t.wake.rd o = t.rd o := Tile.rd_wr_ne _ _ _ _ h

theorem Tile.bit_wake (t : Tile) : t.wake.bit Reg.CLK_STATUS 10 = true := by
  unfold Tile.wake Tile.setBit Tile.bit
  rw [Tile.rd_wr_same, wbit_wSetBit_same _ _ _ (by decide)]

/-- At a tile that works, a command restarts the clock (R100). -/
theorem State.wakeL_of_up {s : State} {l : Nat} (h : s.tileUp l = true) : s.wakeL l = s.onL l Tile.wake := by
  simp only [State.tileUp, State.tileShut, Bool.and_eq_true, bne_iff_ne, Bool.not_eq_true', Bool.and_eq_false_iff, Bool.or_eq_false_iff] at h
  obtain ⟨⟨-, hmap⟩, hopen⟩ := h
  have hdark : s.tileDark l = false := Bool.and_eq_false_iff.2 (hopen.imp_left And.left)
  rw [State.wakeL, if_neg (by simp [hmap, hdark])]

/-- What changes only words of a tile whose clock has restarted is a command at that tile with a completion code. -/
theorem State.atTile_of_wordsOnly {s t : State} {l : Nat} {os : List Nat} (code : Nat) (hclk : Reg.CLK_STATUS ∉ os)
    (h : (s.onL l Tile.wake).wordsOnly t l os) : s.atTile { t with lastStatus := BitVec.ofNat 8 code } l code os := by
  obtain ⟨hrest, hother, hwords⟩ := h
  refine ⟨?_, ?_, fun q hq => ?_, fun o ho => ?_⟩
  · change (t.ltile l).bit _ _ = _
    rw [Tile.bit, hwords _ hclk, State.ltile_onL]
    exact Tile.bit_wake _
  · rw [hrest]; rfl
  · change t.tile q = s.tile q
    have hq : q ≠ s.physOf l := hq
    rw [hother q hq, State.tile_onL, if_neg hq]
  · change (t.ltile l).rd o = (s.ltile l).rd o
    rw [List.mem_cons, not_or] at ho
    rw [hwords o ho.2, State.ltile_onL, Tile.rd_wake_ne _ ho.1]

/-! ### Zeroing lines of SRAM around the header lines of rings (R136) -/

/-- Beside memory and the copies of its bits, t is s. -/
def State.storedOnly (s t : State) : Prop := t = { s with mem := t.mem, integ := { s.integ with odd := t.integ.odd } }

theorem State.storedOnly_refl (s : State) : s.storedOnly s := rfl

theorem State.storedOnly.trans {s t u : State} (h : s.storedOnly t) (k : t.storedOnly u) : s.storedOnly u := by
  unfold State.storedOnly at *
  rw [k, h]

theorem State.storedOnly.eq {s t : State} (h : s.storedOnly t) : t = { s with mem := t.mem, integ := { s.integ with odd := t.integ.odd } } := h

theorem State.storedOnly.physOf_eq {s t : State} (h : s.storedOnly t) (l : Nat) : t.physOf l = s.physOf l := (congrArg (State.physOf · l) h.eq).trans rfl

theorem State.storedOnly.ltile_eq {s t : State} (h : s.storedOnly t) (l : Nat) : t.ltile l = s.ltile l := (congrArg (State.ltile · l) h.eq).trans rfl

theorem State.storedOnly_storeMem (s : State) (l o : Nat) (bs : List Byte) : s.storedOnly (s.storeMem l false o bs) := rfl

/-- Zeros that are stored read as zero. -/
theorem State.seen_storeMem_zeros (s : State) (l o n : Nat) (c : Bool) (j : Nat) :
    (s.storeMem l false o (List.replicate n 0)).mem.seen c j =
      if c = false ∧ sramKey (s.physOf l) o ≤ j ∧ j < sramKey (s.physOf l) o + n then 0 else s.mem.seen c j := by
  have h := Memory.seen_store s.mem false (sramKey (s.physOf l) o) (List.replicate n 0) c j
  rw [List.length_replicate, List.getD_eq_getElem?_getD, List.getElem?_getD_replicate_default_eq] at h
  exact h

/-- A change of words, then one of memory: against the state that has the memory already, only the words change. -/
theorem State.wordsOnly.stored {s t u : State} {l : Nat} {os : List Nat} (h : s.wordsOnly t l os) (k : t.storedOnly u) :
    { s with mem := u.mem, integ := { s.integ with odd := u.integ.odd } }.wordsOnly u l os := by
  obtain ⟨hrest, hother, hwords⟩ := h
  have htile : ∀ q, u.tile q = t.tile q := fun q => (congrArg (State.tile · q) k.eq).trans rfl
  refine ⟨?_, fun q hq => (htile q).trans (hother q hq), fun o ho => ?_⟩
  · rw [k, hrest]
  · rw [k.ltile_eq]; exact hwords o ho

/-- A part of a range without header lines has none. -/
theorem Tile.touchesRing_part {t : Tile} {o n o' n' : Nat} (h : t.touchesRing o n = false) (hlo : o ≤ o') (hhi : o' + n' ≤ o + n) :
    t.touchesRing o' n' = false := by
  unfold Tile.touchesRing at *
  rw [List.any_eq_false] at *
  intro i hi hpart
  apply h i hi
  simp only [Bool.and_eq_true, decide_eq_true_eq] at hpart ⊢
  obtain ⟨⟨⟨hon, hbelow⟩, habove⟩, hpos⟩ := hpart
  exact ⟨⟨⟨hon, by omega⟩, by omega⟩, by omega⟩

/-- Which header lines there are stands in the words of the rings. -/
theorem Tile.touchesRing_of_rd {t u : Tile} (hcfg : ∀ i < 8, u.rd (Reg.RING_CFG i) = t.rd (Reg.RING_CFG i))
    (hbase : ∀ i < 8, u.rd (Reg.RING_BASE i) = t.rd (Reg.RING_BASE i)) (o n : Nat) : u.touchesRing o n = t.touchesRing o n := by
  unfold Tile.touchesRing
  rw [Bool.eq_iff_iff, List.any_eq_true, List.any_eq_true]
  refine exists_congr fun i => and_congr_right fun hi => ?_
  have hon : u.ringOn i = t.ringOn i := congrArg (wbit · 7) (hcfg i (List.mem_range.1 hi))
  have hat : u.ringBase i = t.ringBase i := congrArg (wfld · 17 6 * 64) (hbase i (List.mem_range.1 hi))
  rw [hon, hat]

/-- A zeroing of one line of SRAM, which a header line of an enabled ring escapes. -/
def State.zeroLineAround (s : State) (l ln : Nat) : State :=
  if (s.ltile l).touchesRing (64 * ln) 64 then s else s.storeMem l false (64 * ln) (List.replicate 64 0)

/-- Byte key j lies in line ln of the tile, which is no header line. -/
def State.zeroedAt (s : State) (l j ln : Nat) : Prop :=
  (s.ltile l).touchesRing (64 * ln) 64 = false ∧ sramKey (s.physOf l) (64 * ln) ≤ j ∧ j < sramKey (s.physOf l) (64 * ln) + 64

theorem State.storedOnly_zeroLineAround (s : State) (l ln : Nat) : s.storedOnly (s.zeroLineAround l ln) := by
  unfold State.zeroLineAround
  split
  · exact s.storedOnly_refl
  · exact s.storedOnly_storeMem _ _ _

theorem State.storedOnly.zeroedAt_iff {s t : State} (h : s.storedOnly t) (l j ln : Nat) : t.zeroedAt l j ln ↔ s.zeroedAt l j ln := by
  unfold State.zeroedAt
  rw [h.ltile_eq, h.physOf_eq]

theorem State.seen_zeroLineAround_of_zeroedAt {s : State} {l j ln : Nat} (h : s.zeroedAt l j ln) : (s.zeroLineAround l ln).mem.seen false j = 0 := by
  obtain ⟨hring, hlo, hhi⟩ := h
  rw [State.zeroLineAround, if_neg (by simp [hring]), State.seen_storeMem_zeros, if_pos ⟨rfl, hlo, hhi⟩]

theorem State.seen_zeroLineAround_of_not {s : State} {l ln : Nat} {c : Bool} {j : Nat} (h : ¬(c = false ∧ s.zeroedAt l j ln)) :
    (s.zeroLineAround l ln).mem.seen c j = s.mem.seen c j := by
  unfold State.zeroLineAround
  split
  next => rfl
  next hring =>
    rw [State.seen_storeMem_zeros, if_neg]
    exact fun hin => h ⟨hin.1, by simpa using hring, hin.2⟩

theorem State.storedOnly_zeroLinesAround (s : State) (l : Nat) (ls : List Nat) : s.storedOnly (ls.foldl (State.zeroLineAround · l ·) s) := by
  induction ls generalizing s with
  | nil => exact s.storedOnly_refl
  | cons ln ls ih => exact (s.storedOnly_zeroLineAround l ln).trans (ih _)

theorem State.seen_zeroLinesAround_of_not {s : State} {l : Nat} {ls : List Nat} {c : Bool} {j : Nat}
    (h : ∀ ln ∈ ls, ¬(c = false ∧ s.zeroedAt l j ln)) : (ls.foldl (State.zeroLineAround · l ·) s).mem.seen c j = s.mem.seen c j := by
  induction ls generalizing s with
  | nil => rfl
  | cons ln ls ih =>
    have hkeep := s.storedOnly_zeroLineAround l ln
    rw [List.foldl_cons, ih fun m hm => by rw [hkeep.zeroedAt_iff]; exact h m (List.mem_cons_of_mem _ hm)]
    exact State.seen_zeroLineAround_of_not (h ln List.mem_cons_self)

/-- A byte that is zero stays zero; one of a listed line becomes so. -/
theorem State.seen_zeroLinesAround_of_zeroedAt {s : State} {l : Nat} {ls : List Nat} {j : Nat}
    (h : s.mem.seen false j = 0 ∨ ∃ ln ∈ ls, s.zeroedAt l j ln) : (ls.foldl (State.zeroLineAround · l ·) s).mem.seen false j = 0 := by
  induction ls generalizing s with
  | nil => simpa using h
  | cons ln ls ih =>
    apply ih
    by_cases hat : s.zeroedAt l j ln
    · exact .inl (State.seen_zeroLineAround_of_zeroedAt hat)
    · rw [State.seen_zeroLineAround_of_not (by simp [hat])]
      refine h.imp_right ?_
      rintro ⟨m, hm, hm'⟩
      have hne : m ≠ ln := by rintro rfl; exact hat hm'
      exact ⟨m, (List.mem_cons.1 hm).resolve_left hne, ((s.storedOnly_zeroLineAround l ln).zeroedAt_iff l j m).2 hm'⟩

/-- Where a range of whole lines holds a header line, it is zeroed line by line. -/
theorem State.storeAround_zeros_ring {s : State} {l o n : Nat} (ho : 64 ∣ o) (hn : 64 ∣ n) (h : (s.ltile l).touchesRing o n = true) :
    s.storeAround l false o (List.replicate n 0) = (linesOf o n).foldl (State.zeroLineAround · l ·) s := by
  unfold State.storeAround
  rw [List.length_replicate, if_pos (by simp [h])]
  refine List.foldl_ext _ _ _ fun s ln hln => ?_
  obtain ⟨hpos, hlo, hhi⟩ := (mem_linesOf _ _ _).1 hln
  have ha : max o (64 * ln) = 64 * ln := by omega
  have hlen : min (64 * ln + 64 - 64 * ln) (n - (64 * ln - o)) = 64 := by omega
  simp only [ha, List.drop_replicate, List.take_replicate, hlen]
  rfl

/-- Where it holds none, it is zeroed at once. -/
theorem State.storeAround_zeros_plain {s : State} {l o n : Nat} (h : (s.ltile l).touchesRing o n = false) :
    s.storeAround l false o (List.replicate n 0) = s.storeMem l false o (List.replicate n 0) := by
  unfold State.storeAround
  rw [List.length_replicate, if_neg (by simp [h])]

theorem State.storedOnly_storeAround_zeros {s : State} {l o n : Nat} (ho : 64 ∣ o) (hn : 64 ∣ n) :
    s.storedOnly (s.storeAround l false o (List.replicate n 0)) := by
  cases h : (s.ltile l).touchesRing o n with
  | false => rw [State.storeAround_zeros_plain h]; exact s.storedOnly_storeMem _ _ _
  | true => rw [State.storeAround_zeros_ring ho hn h]; exact s.storedOnly_zeroLinesAround _ _

/-- Of a range of whole lines, every byte outside the header lines of enabled rings reads zero. -/
theorem State.seen_storeAround_zeros {s : State} {l o n j : Nat} (ho : 64 ∣ o) (hn : 64 ∣ n) (hj : j < n) :
    (s.storeAround l false o (List.replicate n 0)).mem.seen false (sramKey (s.physOf l) o + j) =
      if (s.ltile l).touchesRing (o + j / 64 * 64) 64 then s.mem.seen false (sramKey (s.physOf l) o + j) else 0 := by
  have hline : o + j / 64 * 64 = 64 * (o / 64 + j / 64) := by omega
  cases h : (s.ltile l).touchesRing o n with
  | false =>
    rw [State.storeAround_zeros_plain h, State.seen_storeMem_zeros, if_pos ⟨rfl, by omega, by omega⟩,
      Tile.touchesRing_part h (by omega) (by omega)]
    rfl
  | true =>
    rw [State.storeAround_zeros_ring ho hn h, hline]
    cases hring : (s.ltile l).touchesRing (64 * (o / 64 + j / 64)) 64 with
    | false =>
      refine State.seen_zeroLinesAround_of_zeroedAt (.inr ⟨o / 64 + j / 64, ?_, hring, ?_, ?_⟩)
      · rw [mem_linesOf]; omega
      · simp only [sramKey]; omega
      · simp only [sramKey]; omega
    | true =>
      refine State.seen_zeroLinesAround_of_not fun ln _ hat => ?_
      obtain ⟨-, hfree, hlo, hhi⟩ := hat
      simp only [sramKey] at hlo hhi
      have hln : ln = o / 64 + j / 64 := by omega
      rw [hln, hring] at hfree
      cases hfree

/-- Outside the range nothing changes. -/
theorem State.bytesOnly_storeAround_zeros {s : State} {l o n : Nat} (ho : 64 ∣ o) (hn : 64 ∣ n) :
    s.bytesOnly (s.storeAround l false o (List.replicate n 0)) false (sramKey (s.physOf l) o) n := by
  intro c j hout
  cases h : (s.ltile l).touchesRing o n with
  | false => rw [State.storeAround_zeros_plain h, State.seen_storeMem_zeros, if_neg hout]
  | true =>
    rw [State.storeAround_zeros_ring ho hn h]
    refine State.seen_zeroLinesAround_of_not fun ln hln hat => hout ?_
    obtain ⟨hpos, hfirst, hlast⟩ := (mem_linesOf _ _ _).1 hln
    obtain ⟨hc, -, hlo, hhi⟩ := hat
    simp only [sramKey] at hlo hhi ⊢
    exact ⟨hc, by omega, by omega⟩

/-! ### Writes of EV_CFG (R207 to R209) -/

/-- A field of the low byte, under its mask. -/
theorem wfld_and_FF (v : Word) (hi lo : Nat) (h : hi < 8) : wfld (v &&& 0xFF#32) hi lo = wfld v hi lo := by
  apply Nat.eq_of_testBit_eq
  intro i
  rw [testBit_wfld, testBit_wfld, BitVec.getLsbD_and]
  by_cases hi' : i < hi + 1 - lo
  · have hmask : (0xFF#32).getLsbD (lo + i) = true := by
      rw [BitVec.getLsbD_ofNat, Nat.testBit_two_pow_sub_one (n := 8)]
      simp; omega
    rw [hmask, Bool.and_true]
  · simp [hi']

/-- What a write of EV_CFG meets while ENABLE is 1 and is refused for: another RING_SHIFT or W_SHIFT, or a clearing of ENABLE with spikes queued or in
work (R208, R209). -/
def Tile.evBusy (t : Tile) (v : Word) : Prop :=
  wbit (t.rd Reg.EV_CFG) 0 = true ∧
    ((wbit v 0 = true ∧ wfld (t.rd Reg.EV_CFG) 6 1 ≠ wfld v 6 1) ∨ (wbit v 0 = false ∧ (t.spikes ≠ [] ∨ t.cursors ≠ [])))

/-- The write sets ENABLE. -/
def Tile.evRises (t : Tile) (v : Word) : Prop := wbit (t.rd Reg.EV_CFG) 0 = false ∧ wbit v 0 = true

/-- The word that stands after a write which is taken and clears nothing: it does not set ENABLE where that was 0 (R207). -/
def Tile.evTaken (t : Tile) (v : Word) : Word :=
  if wbit (t.rd Reg.EV_CFG) 0 = false ∧ wbit v 0 = true then wSetBit (v &&& 0xFF#32) 0 false else v &&& 0xFF#32

/-- The bytes of the slots under a configuration (R206). -/
def Tile.evBytes (t : Tile) (v : Word) : Nat := 2 ^ wfld v 3 1 * t.npad * 4

theorem Tile.dvd_evBytes (t : Tile) (v : Word) : 64 ∣ t.evBytes v :=
  ⟨2 ^ wfld v 3 1 * ((t.fld Reg.EV_NEURON_COUNT 16 0 + 15) / 16), by unfold Tile.evBytes Tile.npad; ring⟩

/-- EV_CFG taken with ENABLE set: the word stands and the clear of the slots is under way. -/
def Tile.evEnable (t : Tile) (v : Word) : Tile := { t.wr Reg.EV_CFG (v &&& 0xFF#32) with evClear := true }

theorem Tile.evValid_iff (t : Tile) (v : Word) :
    t.evValid v = true ↔ 2 ≤ wfld v 3 1 ∧ wfld v 3 1 ≤ 6 ∧ 1 ≤ t.fld Reg.EV_NEURON_COUNT 16 0 ∧ t.fld Reg.EV_NEURON_COUNT 16 0 ≤ 65536 ∧
      t.fld Reg.EV_NEURON_BASE 17 6 * 64 + t.evBytes v ≤ 0x40000 ∧
      t.fld Reg.EV_SYN_BASE 17 6 * 64 + 4 * t.fld Reg.EV_NEURON_COUNT 16 0 ≤ 0x40000 := by
  simp only [Tile.evValid, Tile.evBytes, Bool.and_eq_true, decide_eq_true_eq, and_assoc]

theorem State.evCfgWrite_busy {s : State} {l : Nat} {v : Word} (h : (s.ltile l).evBusy v) : s.evCfgWrite l v = (s, cBusy) := by
  obtain ⟨hon, ⟨hv, hshift⟩ | ⟨hv, hwork⟩⟩ := h
  · simp [State.evCfgWrite, hon, hv, hshift]
  · simp [State.evCfgWrite, hon, hv, hwork]

/-- Neither refused nor enabling: the word stands, without ENABLE where the configuration is not valid. -/
theorem State.evCfgWrite_taken {s : State} {l : Nat} {v : Word} (hb : ¬(s.ltile l).evBusy v)
    (he : ¬((s.ltile l).evRises v ∧ (s.ltile l).evValid v = true)) :
    s.evCfgWrite l v = (s.onL l (·.wr Reg.EV_CFG ((s.ltile l).evTaken v)), cOK) := by
  cases hon : wbit ((s.ltile l).rd Reg.EV_CFG) 0 <;> cases hv : wbit v 0
  case false.false => simp [State.evCfgWrite, Tile.evTaken, hon, hv]
  case false.true =>
    have hinvalid : (s.ltile l).evValid v = false := by simpa [Tile.evRises, hon, hv] using he
    simp [State.evCfgWrite, Tile.evTaken, hon, hv, hinvalid]
  case true.false =>
    have hidle : (s.ltile l).spikes = [] ∧ (s.ltile l).cursors = [] := by simpa [Tile.evBusy, hon, hv] using hb
    simp [State.evCfgWrite, Tile.evTaken, hon, hv, hidle]
  case true.true =>
    have hshift : wfld ((s.ltile l).rd Reg.EV_CFG) 6 1 = wfld v 6 1 := by simpa [Tile.evBusy, hon, hv] using hb
    simp [State.evCfgWrite, Tile.evTaken, hon, hv, hshift]

/-- Enabling over a valid configuration zeroes the slots. -/
theorem State.evCfgWrite_enables {s : State} {l : Nat} {v : Word} (hr : (s.ltile l).evRises v) (hv : (s.ltile l).evValid v = true) :
    s.evCfgWrite l v = ((s.onL l (·.evEnable v)).storeAround l false ((s.ltile l).fld Reg.EV_NEURON_BASE 17 6 * 64)
      (List.replicate ((s.ltile l).evBytes v) 0), cOK) := by
  have hword : ((s.ltile l).evEnable v).rd Reg.EV_CFG = v &&& 0xFF#32 := Tile.rd_wr_same _ _ _
  have hkept : ∀ o, o ≠ Reg.EV_CFG → ((s.ltile l).evEnable v).rd o = (s.ltile l).rd o := fun o ho => Tile.rd_wr_ne _ _ _ _ ho
  have hslots : ((s.ltile l).evEnable v).evSlots = 2 ^ wfld v 3 1 := by rw [Tile.evSlots, Tile.fld, hword, wfld_and_FF _ _ _ (by decide)]
  have hpad : ((s.ltile l).evEnable v).npad = (s.ltile l).npad := by rw [Tile.npad, Tile.fld, hkept _ (by decide)]; rfl
  have haddr : ((s.ltile l).evEnable v).slotAddr 0 0 = (s.ltile l).fld Reg.EV_NEURON_BASE 17 6 * 64 := by
    rw [Tile.slotAddr, Tile.fld, hkept _ (by decide), Nat.zero_mod]; rfl
  obtain ⟨hoff, hset⟩ := hr
  have hrun : s.evCfgWrite l v = ((s.onL l (·.evEnable v)).storeAround l false (((s.onL l (·.evEnable v)).ltile l).slotAddr 0 0)
      (List.replicate (((s.onL l (·.evEnable v)).ltile l).evSlots * ((s.onL l (·.evEnable v)).ltile l).npad * 4) 0), cOK) := by
    simp only [State.evCfgWrite, hoff, hset, hv, Bool.false_eq_true, if_false, if_true]
    rfl
  rw [hrun, State.ltile_onL, haddr, hslots, hpad]
  rfl

/-! ### The command -/

/-- The row of EV_CFG may be written, so a write of it is a write of the event engine's configuration. -/
theorem State.ctlWrite_evCfg (s : State) (l : Nat) (v : Word) : s.ctlWrite l Reg.EV_CFG v = s.evCfgWrite l v := by
  have hrow : (tileRow Reg.EV_CFG).map RegRow.ro = some false := by decide
  obtain ⟨row, hfound, hrw⟩ := Option.map_eq_some_iff.1 hrow
  simp [State.ctlWrite, hfound, hrw]

theorem State.exec_evCfgWrite {s t : State} {l : Fin 256} {v : Word} {code : Nat} (hup : s.tileUp l = true)
    (h : (s.onL l Tile.wake).evCfgWrite l v = (t, code)) : exec (.evCfgWrite l v) s = .next { t with lastStatus := BitVec.ofNat 8 code } := by
  change Host.Outcome.next (s.ctlCommand l Reg.EV_CFG v) = _
  simp only [State.ctlCommand, hup, if_true, State.wakeL_of_up hup, State.ctlWrite_evCfg, h]

theorem State.exec_evCfgWrite_down {s : State} {l : Fin 256} (v : Word) : s.noTile (.evCfgWrite l v) l := by
  intro hdown
  change Host.Outcome.next (s.ctlCommand l Reg.EV_CFG v) = _
  simp only [State.ctlCommand, hdown, Bool.false_eq_true, if_false, State.tileCode]
  split <;> rfl

/-- A restart of the clock changes nothing that a write of EV_CFG looks at. -/
theorem Tile.evBusy_wake (t : Tile) (v : Word) : t.wake.evBusy v ↔ t.evBusy v := by
  unfold Tile.evBusy
  rw [Tile.rd_wake_ne _ (by decide)]
  rfl

theorem Tile.evRises_wake (t : Tile) (v : Word) : t.wake.evRises v ↔ t.evRises v := by
  unfold Tile.evRises
  rw [Tile.rd_wake_ne _ (by decide)]

theorem Tile.evTaken_wake (t : Tile) (v : Word) : t.wake.evTaken v = t.evTaken v := by
  unfold Tile.evTaken
  rw [Tile.rd_wake_ne _ (by decide)]

theorem Tile.npad_wake (t : Tile) : t.wake.npad = t.npad := by
  unfold Tile.npad Tile.fld
  rw [Tile.rd_wake_ne _ (by decide)]

theorem Tile.evBytes_wake (t : Tile) (v : Word) : t.wake.evBytes v = t.evBytes v := by
  unfold Tile.evBytes
  rw [Tile.npad_wake]

theorem Tile.evValid_wake (t : Tile) (v : Word) : t.wake.evValid v = t.evValid v := by
  unfold Tile.evValid Tile.fld
  rw [Tile.npad_wake, Tile.rd_wake_ne (o := Reg.EV_NEURON_COUNT) _ (by decide), Tile.rd_wake_ne (o := Reg.EV_NEURON_BASE) _ (by decide),
    Tile.rd_wake_ne (o := Reg.EV_SYN_BASE) _ (by decide)]

/-- The rings stand apart from CLK_STATUS and EV_CFG. -/
theorem Tile.touchesRing_evEnable (t : Tile) (v : Word) (o n : Nat) : (t.wake.evEnable v).touchesRing o n = t.touchesRing o n := by
  have hkept : ∀ k, k ≠ Reg.EV_CFG → k ≠ Reg.CLK_STATUS → (t.wake.evEnable v).rd k = t.rd k := fun k he hc =>
    (Tile.rd_wr_ne _ _ _ _ he).trans (Tile.rd_wake_ne _ hc)
  refine Tile.touchesRing_of_rd (fun i hi => hkept _ ?_ ?_) (fun i hi => hkept _ ?_ ?_) o n <;>
    simp only [Reg.RING_CFG, Reg.RING_BASE, Reg.EV_CFG, Reg.CLK_STATUS] <;> omega

/-- A refused write: only the clock restarts. -/
theorem State.evCfgWrite_refused {s : State} {l : Fin 256} {v : Word} (hup : s.tileUp l = true) (h : (s.ltile l).evBusy v) :
    Gives (.evCfgWrite l v) s fun t => s.atTile t l cBusy [] :=
  ⟨_, State.exec_evCfgWrite hup (State.evCfgWrite_busy (by rw [State.ltile_onL, Tile.evBusy_wake]; exact h)),
    State.atTile_of_wordsOnly _ List.not_mem_nil (State.wordsOnly_refl _ _ _)⟩

/-- A write that is taken and clears nothing. -/
theorem State.evCfgWrite_keeps_slots {s : State} {l : Fin 256} {v : Word} (hup : s.tileUp l = true) (hb : ¬(s.ltile l).evBusy v)
    (he : ¬((s.ltile l).evRises v ∧ (s.ltile l).evValid v = true)) :
    Gives (.evCfgWrite l v) s fun t => (t.ltile l).rd Reg.EV_CFG = (s.ltile l).evTaken v ∧ s.atTile t l cOK [Reg.EV_CFG] := by
  have hw : (s.onL l Tile.wake).ltile l = (s.ltile l).wake := State.ltile_onL _ _ _
  have hrun := State.evCfgWrite_taken (s := s.onL l Tile.wake) (l := l) (v := v) (by rwa [hw, Tile.evBusy_wake])
    (by rwa [hw, Tile.evRises_wake, Tile.evValid_wake])
  rw [hw, Tile.evTaken_wake] at hrun
  refine ⟨_, State.exec_evCfgWrite hup hrun, ?_, State.atTile_of_wordsOnly _ (by decide) (State.wordsOnly_onL _ _ fun t o ho => ?_)⟩
  · exact (congrArg (Tile.rd · Reg.EV_CFG) (State.ltile_onL (s.onL l Tile.wake) l (·.wr Reg.EV_CFG _))).trans (Tile.rd_wr_same _ _ _)
  · exact Tile.rd_wr_ne _ _ _ _ (List.ne_of_not_mem_cons ho)

/-- A write that enables the event engine: the slots are zero outside header lines, and their clear is under way. -/
theorem State.evCfgWrite_clears_slots {s : State} {l : Fin 256} {v : Word} (hup : s.tileUp l = true) (hr : (s.ltile l).evRises v)
    (hv : (s.ltile l).evValid v = true) :
    let base := (s.ltile l).fld Reg.EV_NEURON_BASE 17 6 * 64
    Gives (.evCfgWrite l v) s fun t =>
      (t.ltile l).rd Reg.EV_CFG = v &&& 0xFF#32 ∧ (t.ltile l).evClear = true ∧
      (∀ j < (s.ltile l).evBytes v, t.mem.seen false (sramKey (s.physOf l) base + j) =
        if (s.ltile l).touchesRing (base + j / 64 * 64) 64 then s.mem.seen false (sramKey (s.physOf l) base + j) else 0) ∧
      s.bytesOnly t false (sramKey (s.physOf l) base) ((s.ltile l).evBytes v) ∧
      { s with mem := t.mem, integ := { s.integ with odd := t.integ.odd } }.atTile t l cOK [Reg.EV_CFG] := by
  intro base
  have hw : (s.onL l Tile.wake).ltile l = (s.ltile l).wake := State.ltile_onL _ _ _
  have hrun := State.evCfgWrite_enables (s := s.onL l Tile.wake) (l := l) (v := v) (by rwa [hw, Tile.evRises_wake])
    (by rwa [hw, Tile.evValid_wake])
  have hbase : (s.ltile l).wake.fld Reg.EV_NEURON_BASE 17 6 * 64 = base := by rw [Tile.fld, Tile.rd_wake_ne _ (by decide)]; rfl
  rw [hw, Tile.evBytes_wake, hbase] at hrun
  set s1 := (s.onL l Tile.wake).onL l (·.evEnable v) with hs1
  have ht1 : s1.ltile l = (s.ltile l).wake.evEnable v := by rw [hs1, State.ltile_onL, hw]
  have h64 : 64 ∣ base := Nat.dvd_mul_left _ _
  have hstored := State.storedOnly_storeAround_zeros (s := s1) (l := l) h64 ((s.ltile l).dvd_evBytes v)
  have hwords : (s.onL l Tile.wake).wordsOnly s1 l [Reg.EV_CFG] :=
    State.wordsOnly_onL _ _ fun t o ho => Tile.rd_wr_ne _ _ _ _ (List.ne_of_not_mem_cons ho)
  refine ⟨_, State.exec_evCfgWrite hup hrun, ?_, ?_, fun j hj => ?_, State.bytesOnly_storeAround_zeros (s := s1) h64 ((s.ltile l).dvd_evBytes v),
    State.atTile_of_wordsOnly _ (by decide) (hwords.stored hstored)⟩
  · exact (congrArg (Tile.rd · Reg.EV_CFG) ((hstored.ltile_eq l).trans ht1)).trans (Tile.rd_wr_same _ _ _)
  · exact congrArg Tile.evClear ((hstored.ltile_eq l).trans ht1)
  · have hseen := State.seen_storeAround_zeros (s := s1) (l := l) h64 ((s.ltile l).dvd_evBytes v) hj
    rw [ht1, Tile.touchesRing_evEnable] at hseen
    exact hseen

/-! ### The end of the clear (R208, R226) -/

theorem State.exec_evClearDone_idle {s : State} {l : Fin 256} (h : (s.ltile l).evClear = false) : exec (.evClearDone l) s = .next s := by
  change Host.Outcome.next (s.evClearDone l) = _
  rw [State.evClearDone, if_neg (by simp [h])]

theorem State.exec_evClearDone {s : State} {l : Fin 256} (h : (s.ltile l).evClear = true) :
    exec (.evClearDone l) s = .next (State.drainPosts l (s.ltile l).posts.length (s.onL l fun t => { t with evClear := false })) := by
  change Host.Outcome.next (s.evClearDone l) = _
  rw [State.evClearDone, if_pos h]

/-- What stands before the POSTs held during the clear are applied. -/
theorem State.evClear_ended (s : State) (l : Nat) :
    let s0 := s.onL l fun t => { t with evClear := false }
    (s0.ltile l).evClear = false ∧ (s0.ltile l).posts = (s.ltile l).posts ∧ s.wordsOnly s0 l [] := by
  intro s0
  have ht : s0.ltile l = { s.ltile l with evClear := false } := State.ltile_onL _ _ _
  exact ⟨by rw [ht], by rw [ht], State.wordsOnly_onL _ _ fun _ _ _ => rfl⟩

/-- Settles O24: a case per branch of the write, each a lemma above; the slots are whole lines, so the clear leaves out exactly the header lines. -/
theorem eventStateWrites : Obligations.EventStateWrites := by
  unfold Obligations.EventStateWrites
  intro l v s t0 old slots count row base busy rises valid
  have hvalid : t0.evValid v = true ↔ valid := t0.evValid_iff v
  refine ⟨State.exec_evCfgWrite_down v, fun hup hb => State.evCfgWrite_refused hup hb,
    fun hup hb he => State.evCfgWrite_keeps_slots hup hb fun h => he ⟨h.1, hvalid.1 h.2⟩,
    fun hup hr hv => State.evCfgWrite_clears_slots hup hr (hvalid.2 hv), State.exec_evClearDone_idle, fun hc hnone => ?_, fun hc => ?_⟩
  · obtain ⟨hdone, -, hwords⟩ := s.evClear_ended l
    refine ⟨_, State.exec_evClearDone hc, ?_⟩
    rw [show (s.ltile l).posts = [] from hnone]
    exact ⟨hdone, hwords⟩
  · obtain ⟨hdone, hposts, hwords⟩ := s.evClear_ended l
    exact ⟨_, State.exec_evClearDone hc, _, hdone, hposts, hwords, rfl⟩

end Sys2Proof.Machine
